-- ==== Sys2Proof/Word.lean ====
section
/-! DEFINITION. The words, bytes, addresses and index types of the AV-648 (00_scope.md, "Units and numbers", "Naming conventions"). -/

namespace Sys2Proof

/-- A word of the host bus and of the window: 16 bits (00_scope.md). -/
abbrev Word := BitVec 16

/-- One byte: a byte lane of the host bus, or a byte of a field frame. -/
abbrev Byte := BitVec 8

/-- A host word address, HA19 to HA0 (R151). -/
abbrev Addr := BitVec 20

/-- Channels are numbered 0 to 47. -/
abbrev ChannelId := Fin 48

/-- Zones are numbered 0 to 5. -/
abbrev ZoneId := Fin 6

/-- Field lines A to D are 0 to 3 (R2). -/
abbrev LineId := Fin 4

/-- The eight pattern bytes of a test frame (R142). -/
abbrev Pattern := Vector Byte 8

end Sys2Proof
end

