-- ==== Sys2Proof/Syntax.lean ====
section
/-! DEFINITION. The commands of the AV-648: one constructor per row of spec/opcode_table.json, with the operands the
row's rule needs (the table gives none). -/

namespace Sys2Proof

/-- HBE1 and HBE0: which byte lanes of a host access are active (R151). -/
structure ByteEnables where
  upper : Bool
  lower : Bool
deriving DecidableEq, Repr

/-- The one active byte enable of a byte write (R155, R157). -/
inductive Lane where
  | upper
  | lower
deriving DecidableEq, Repr

/-- The classification of a fire loop (R47). -/
inductive LoopState where
  | normal
  | alarm
  | openCircuit
  | shortCircuit
deriving DecidableEq, Repr

/-- The seven loops: FL0 to FL5 and FLGA (R47). -/
inductive LoopId where
  | zone (z : ZoneId)
  | ga
deriving DecidableEq, Repr

/-- The eight error banks (R183). -/
inductive BankId where
  | gate
  | line (l : LineId)
  | channel
  | zone
  | input
deriving DecidableEq, Repr

/-- The three conditions a window end may change (R72). -/
inductive Condition where
  | storm
  | smokeWind
  | sector
deriving DecidableEq, Repr

/-- The order in which the Source Arbiter takes the publications of one window end: "in any order" (R72, log 10). -/
inductive PublicationOrder where
  | stormSmokeSector
  | stormSectorSmoke
  | smokeStormSector
  | smokeSectorStorm
  | sectorStormSmoke
  | sectorSmokeStorm
deriving DecidableEq, Repr

/-- A loop change that is taken between two zones of one release: just before the release of a named zone (R65, log 43). -/
structure LoopReport where
  before : ZoneId
  loop : LoopId
  state : LoopState
deriving DecidableEq, Repr

/-- Where in the part's own frame an arbitration loss falls; the place matters for a test frame alone (R143). -/
inductive LossPlace where
  | lead
  | pattern (place : Fin 8)
  | crc
deriving DecidableEq, Repr

/-- What the line had shown before the start bit of a reception, since the last reception that its receiver heard (R120, log 50):
recessive for 1 ms or more without a break, recessive for less, or no recessive level. -/
inductive Gap where
  | idle
  | short
  | none
deriving DecidableEq, Repr

/-- How a reception ended (R120): recessive, for 1 ms where a frame being collected had not reached its length, or with a byte
whose stop bit read dominant. To a receiver that discards, the next gap says whether the recessive level lasted 1 ms. -/
inductive Ending where
  | recessive
  | dominantStop (last : Byte)
deriving DecidableEq, Repr

/-- What the receiver met on a line from one start bit on (R120): the gap before it, the bytes with a good stop bit, and the
end. -/
structure Reception where
  gap : Gap
  bytes : List Byte
  ending : Ending
deriving DecidableEq, Repr

/-- An ACCEPT of node 1 with a bad CRC byte: the damaged frame of a DAMAGED_FRAME that names none. -/
def badCrcReception : Reception := ⟨.idle, [0xA1, 0x00], .recessive⟩

/-- The commands. -/
inductive Instr where
  /-- POWER_ON_RESET (R17): the straps, the first sample of each loop and of the RAIN contact. -/
  | powerOnReset (straps : BitVec 3) (zoneLoops : Vector LoopState 6) (gaLoop : LoopState) (rainActive : Bool)
  /-- RSTN (R166): the straps as they stand at the assertion. -/
  | rstn (straps : BitVec 3)
  /-- REQUESTED_TARGET_WRITE (R6). -/
  | requestedTargetWrite (n : ChannelId) (be : ByteEnables) (data : Word)
  /-- NOTIFY_WRITE (R7). -/
  | notifyWrite (n : ChannelId) (be : ByteEnables) (data : Word)
  /-- CONFIGURATION_WRITE (R171): configuration word 0x200 + index. -/
  | configurationWrite (index : Fin 209) (be : ByteEnables) (data : Word)
  /-- ARGUMENT_WRITE (R169): argument word index + 1. -/
  | argumentWrite (index : Fin 3) (be : ByteEnables) (data : Word)
  /-- PATTERN_WRITE (R140): pattern word 0 to 3 of a line's test record. -/
  | patternWrite (l : LineId) (index : Fin 4) (be : ByteEnables) (data : Word)
  /-- ENABLE_WORD_WRITE (R183). -/
  | enableWordWrite (b : BankId) (be : ByteEnables) (data : Word)
  /-- ACKNOWLEDGE_WORD_WRITE (R189). -/
  | acknowledgeWordWrite (b : BankId) (be : ByteEnables) (data : Word)
  /-- COUNTER_START_WRITE (R188). -/
  | counterStartWrite (b : BankId) (be : ByteEnables) (data : Word)
  /-- NOTICE_ACKNOWLEDGE_WRITE (R192): acknowledge word 0 to 2. -/
  | noticeAcknowledgeWrite (index : Fin 3) (be : ByteEnables) (data : Word)
  /-- OWNED_WORD_WRITE (R159): the offset of a PART-OWNED word. -/
  | ownedWordWrite (offset : BitVec 10) (be : ByteEnables) (data : Word)
  /-- COMMAND_BYTE_WRITE (R157). -/
  | commandByteWrite (lane : Lane) (data : Word)
  /-- FORWARDED_WRITE (R151). -/
  | forwardedWrite (addr : Addr) (be : ByteEnables) (data : Word)
  /-- WRITE_BACK_CYCLE (R162). -/
  | writeBackCycle
  /-- CONFIG_COMMIT (R173). -/
  | configCommit
  /-- FAULT_CLEAR (R174). -/
  | faultClear
  /-- LINE_STATE_RUN (R133): the LINE_STATE command, argument 2 captured as RUN. -/
  | lineStateRun
  /-- LINE_STATE_QUIET (R134): the LINE_STATE command, argument 2 captured as QUIET. -/
  | lineStateQuiet
  /-- LINE_STATE_DISABLED (R135): the LINE_STATE command, argument 2 captured as DISABLED. -/
  | lineStateDisabled
  /-- TEST_START (R141). -/
  | testStart
  /-- TEST_STOP (R148). -/
  | testStop
  /-- RELEASE_BEGIN (R178). -/
  | releaseBegin
  /-- RELEASE_ZONES (R179). -/
  | releaseZones
  /-- RELEASE_END (R180), with the loop changes that fall between the releases of its zones (R65); none unless given. -/
  | releaseEnd (changes : List LoopReport := [])
  /-- UNKNOWN_COMMAND (R170): the code written. -/
  | unknownCommand (code : Word)
  /-- RELEASE_TIMER_EXPIRY (R181). -/
  | releaseTimerExpiry
  /-- LOOP_CHANGE (R47). -/
  | loopChange (loop : LoopId) (state : LoopState)
  /-- LEVEL_TIMER_EXPIRY (R49). -/
  | levelTimerExpiry (loop : LoopId)
  /-- PULSE_TIMER_EXPIRY (R50). -/
  | pulseTimerExpiry (loop : LoopId)
  /-- COMPLETENESS_JUDGEMENT (R59). -/
  | completenessJudgement (z : ZoneId)
  /-- DEADLINE_SECOND (R57). -/
  | deadlineSecond (z : ZoneId)
  /-- DEADLINE_EXPIRY (R61). -/
  | deadlineExpiry (z : ZoneId)
  /-- OVERRUN_SECOND (R62). -/
  | overrunSecond (z : ZoneId)
  /-- ANEMOMETER_PULSE (R71). -/
  | anemometerPulse
  /-- WINDOW_END (R71): the levels of VANE2 to VANE0 and the order of the publications. -/
  | windowEnd (vane : BitVec 3) (order : PublicationOrder)
  /-- RAIN_CONTACT_CHANGE (R78): to active (wet) or inactive. -/
  | rainContactChange (active : Bool)
  /-- RAIN_TIMER_EXPIRY (R78). -/
  | rainTimerExpiry
  /-- TRANSACTION_START (R130). -/
  | transactionStart (l : LineId)
  /-- SEND (R102). -/
  | send (l : LineId)
  /-- ARBITRATION_LOSS (R127): where it fell, and the bytes read back so far (they matter for a test frame, R143). -/
  | arbitrationLoss (l : LineId) (place : LossPlace) (readBack : Pattern)
  /-- REPLY_TIMEOUT (R123). -/
  | replyTimeout (l : LineId)
  /-- DAMAGED_FRAME (R120): what the receiver met; a frame with a bad CRC unless given. -/
  | damagedFrame (l : LineId) (heard : Reception := badCrcReception)
  /-- STATUS (R108): the replying address, the position, the motion byte and the fault byte (R198). -/
  | status (l : LineId) (addr : BitVec 4) (position : Word) (motion : Byte) (faults : Byte)
  /-- ACCEPT (R104). -/
  | accept (l : LineId) (addr : BitVec 4)
  /-- BUSY (R105). -/
  | busy (l : LineId) (addr : BitVec 4)
  /-- REFUSE (R106): the reason code. -/
  | refuse (l : LineId) (addr : BitVec 4) (reason : Byte)
  /-- KEY (R86): the station's address, the zone set byte, the command code, and, where the frame also ends a
  transaction, whether the transaction's result is taken before the KEY command (R115, R123, log 11). -/
  | key (l : LineId) (addr : BitVec 4) (zones : Byte) (command : Byte) (resultFirst : Bool)
  /-- STATION_ANSWER (R128). -/
  | stationAnswer (l : LineId)
  /-- BACKOFF_END (R105): the channel of the order in backoff. -/
  | backoffEnd (n : ChannelId)
  /-- TRAVEL_SECOND (R13). -/
  | travelSecond (n : ChannelId)
  /-- TRAVEL_EXPIRY (R113). -/
  | travelExpiry (n : ChannelId)
  /-- POLL_DUE (R131). -/
  | pollDue (n : ChannelId)
  /-- SUPERVISION_DUE (R132). -/
  | supervisionDue (n : ChannelId)
  /-- STATION_WINDOW_DUE (R126). -/
  | stationWindowDue (l : LineId)
  /-- STATION_WINDOW_END (R126). -/
  | stationWindowEnd (l : LineId)
  /-- LINE_STUCK (R136): the instant of the first dominant bit of the period, where it is later than the last recessive level
the line has shown (log 22). -/
  | lineStuck (l : LineId) (dominantFrom : Nat := 0)
  /-- LINE_RECOVERY (R137): the instant of the return to recessive, where it is later than the last dominant level the line has
shown (log 22). -/
  | lineRecovery (l : LineId) (recessiveFrom : Nat := 0)
  /-- TEST_FRAME_START (R143). -/
  | testFrameStart (l : LineId)
  /-- LOCAL_ECHO_CHECK (R144): the eight bytes read back. -/
  | localEchoCheck (l : LineId) (readBack : Pattern)
  /-- TEST_ECHO (R145): a frame of kind TEST from an address, the pattern bytes received of it (fewer than eight where
  it was damaged before its length) and whether its CRC was good. -/
  | testEcho (l : LineId) (addr : BitVec 4) (received : List Byte) (crcGood : Bool)
  /-- MISSING_ECHO (R145). -/
  | missingEcho (l : LineId)
  /-- HOST_READ (R160). -/
  | hostRead (addr : Addr) (be : ByteEnables)
  /-- RSTN_DEASSERTION (R166). -/
  | rstnDeassertion
deriving DecidableEq, Repr

end Sys2Proof
end

