-- ==== Sys2Proof/Decode.lean ====
section
/-! DEFINITION. The commands that words of the opcode table spell. The table gives no row any bits ("n_rows_with_fixed": 0,
98_reader.md), so no word spells a command. -/

namespace Sys2Proof

/-- The command a word of `nbits` bits spells by the table's bits: none, since no row gives bits. -/
def decodeTableWord (_nbits _w : Nat) : Option Instr := none

end Sys2Proof
end

