-- ==== Sys2Proof/Config.lean ====
section
/-! DEFINITION. What the spec leaves open for good: the free values. -/

namespace Sys2Proof

/-- What the host's static RAM woke with: the byte at byte address `key` after power-on number `powerOn`.
"after power-on the static RAM holds whatever it woke with" (09_the_bus_path.md, 9.6). A free value: no body (log 4). -/
opaque Config.ramAtPowerOn : (powerOn key : Nat) → Byte

end Sys2Proof
end

