-- ==== Sys2Proof/Machine/Timing.lean ====
section
/-! DEFINITION. The fixed durations of the spec, in milliseconds, and the ceilings of its counters. -/

namespace Sys2Proof.Machine

/-- A second. -/
def second : Nat := 1000
/-- Level timer (R49). -/
def levelTime : Nat := 200
/-- Pulse timer (R50). -/
def pulseTime : Nat := 50
/-- Release timer (R178). -/
def releaseTime : Nat := 10000
/-- Backoff after BUSY (R105). -/
def backoffTime : Nat := 50
/-- A MOVING channel's poll (R131). -/
def pollTime : Nat := 200
/-- Reply window, and the wait after an abandonment (R123, R125). -/
def replyTime : Nat := 10
/-- Gap between frames on a line (R123). -/
def gapTime : Nat := 2
/-- Marks of the station window clock (R126). -/
def windowPeriod : Nat := 250
/-- Length of a station window (R126). -/
def windowLength : Nat := 20
/-- A line held dominant is stuck (R136). -/
def stuckTime : Nat := 100
/-- A FAILED line recessive without a break recovers (R137). -/
def recoveryTime : Nat := 1000
/-- Ceiling of the pulse count, the overrun count and frames sent (R62, R71, R143). -/
def wordCeiling : Nat := 65535
/-- Ceiling of the test error counter (R146). -/
def errorCeiling : Nat := 255
/-- Ceiling of a bank's threshold counter (R187). -/
def thresholdCeiling : Nat := 4095
/-- Full opening (00_scope.md, "Units and numbers"). -/
def fullOpen : Nat := 1000
/-- List length from which the arbiter alternates (R163). -/
def alternateAt : Nat := 48
/-- Query misses that lose a node (R112). -/
def missCeiling : Nat := 3

end Sys2Proof.Machine
end

