-- ==== Sys2Proof/Machine/Window.lean ====
section
/-! DEFINITION. The control window: its records, its words and their classes (R153, R197; 12_word_and_frame_formats.md). -/

namespace Sys2Proof.Machine

/-- The 73 records the part writes (R161). -/
inductive RecordId where
  | channel (n : ChannelId)
  | zone (z : ZoneId)
  | line (l : LineId)
  | command
  | global
  | notice
  | bank (b : BankId)
  | test (l : LineId)
deriving DecidableEq, Repr

/-- The banks are numbered in the order of R183. -/
def bankNumber : BankId → Nat
  | .gate => 0
  | .line l => 1 + l.val
  | .channel => 5
  | .zone => 6
  | .input => 7

/-- The banks in the order of R183. -/
def allBanks : List BankId := [.gate, .line 0, .line 1, .line 2, .line 3, .channel, .zone, .input]

/-- The bank with a number; numbers above 7 do not occur and read as INPUT. -/
def bankOfNumber : Nat → BankId
  | 0 => .gate
  | 1 => .line 0
  | 2 => .line 1
  | 3 => .line 2
  | 4 => .line 3
  | 5 => .channel
  | 6 => .zone
  | _ => .input

/-- A bank's place in the vector of banks. -/
def bankIndex (b : BankId) : Fin 8 := ⟨bankNumber b, by cases b <;> simp [bankNumber] <;> omega⟩

/-- The place of a record in the record list of R165. -/
def recordNumber : RecordId → Nat
  | .channel n => n.val
  | .zone z => 48 + z.val
  | .line l => 54 + l.val
  | .command => 58
  | .global => 59
  | .notice => 60
  | .bank b => 61 + bankNumber b
  | .test l => 69 + l.val

/-- A record's place in the vector of dirty marks. -/
def recordIndex (r : RecordId) : Fin 73 :=
  ⟨recordNumber r, by
    cases r <;> simp only [recordNumber] <;> first | omega | skip
    rename_i b; have := (bankIndex b).isLt; simp only [bankIndex] at this; omega⟩

/-- The record list of R165, in its order. -/
def allRecords : List RecordId :=
  (List.finRange 48).map RecordId.channel ++ (List.finRange 6).map RecordId.zone ++ (List.finRange 4).map RecordId.line ++
    [.command, .global, .notice] ++ allBanks.map RecordId.bank ++ (List.finRange 4).map RecordId.test

/-- The offset of a record's first word (R197). The command status is part of the command area at 0x1D0. -/
def recordOffset : RecordId → Nat
  | .channel n => 0x000 + 8 * n.val
  | .zone z => 0x180 + 8 * z.val
  | .line l => 0x1B0 + 8 * l.val
  | .command => 0x1D0
  | .global => 0x1D8
  | .notice => 0x1E0
  | .bank b => 0x300 + 8 * bankNumber b
  | .test l => 0x340 + 8 * l.val

/-- The PART-OWNED and CAPTURED-ONLY words of a record, one bit per word (R153, R197). -/
def ownedMask : RecordId → BitVec 8
  | .channel _ => 0b11111100
  | .zone _ => 0b00111111
  | .line _ => 0b00000111
  | .command => 0b01110000
  | .global => 0b01111111
  | .notice => 0b00111111
  | .bank _ => 0b11101111
  | .test _ => 0b11110000

/-- What a word of the window is (R153, R197). -/
inductive WindowWord where
  | requestedTarget (n : ChannelId)
  | notify (n : ChannelId)
  | command
  | argument (index : Fin 3)
  | noticeAcknowledge (index : Fin 3)
  | configuration (index : Fin 209)
  | enable (b : BankId)
  | acknowledge (b : BankId)
  | counterStart (b : BankId)
  | pattern (l : LineId) (index : Fin 4)
  | owned (r : RecordId) (word : Fin 8)
  | free
deriving DecidableEq, Repr

/-- The five word classes (R153). -/
inductive WordClass where
  | hostWritten
  | command
  | capturedOnly
  | partOwned
  | free
deriving DecidableEq, Repr

/-- The class of a word (R153). -/
def WindowWord.cls : WindowWord → WordClass
  | .requestedTarget _ | .notify _ | .argument _ | .configuration _ | .enable _ | .pattern _ _ => .hostWritten
  | .command => .command
  | .noticeAcknowledge _ | .acknowledge _ | .counterStart _ => .capturedOnly
  | .owned _ _ => .partOwned
  | .free => .free

/-- Word `k` of an area of 8-word records that are PART-OWNED in the words of their mask and FREE in the rest. -/
def ownedOrFree (r : RecordId) (k : Fin 8) : WindowWord :=
  if (ownedMask r).getLsbD k.val then .owned r k else .free

/-- The word at an offset of the window (the window map and the layouts of R197). -/
def windowWord (off : BitVec 10) : WindowWord :=
  let o := off.toNat
  let k : Fin 8 := ⟨o % 8, by omega⟩
  if h : o < 0x180 then
    let n : ChannelId := ⟨o / 8, by omega⟩
    if o % 8 = 0 then .requestedTarget n else if o % 8 = 1 then .notify n else .owned (.channel n) k
  else if h : o < 0x1B0 then ownedOrFree (.zone ⟨(o - 0x180) / 8, by omega⟩) k
  else if h : o < 0x1D0 then ownedOrFree (.line ⟨(o - 0x1B0) / 8, by omega⟩) k
  else if o = 0x1D0 then .command
  else if h : o < 0x1D4 then .argument ⟨o - 0x1D1, by omega⟩
  else if o < 0x1D8 then ownedOrFree .command k
  else if o < 0x1E0 then ownedOrFree .global k
  else if o < 0x1E3 then .owned .notice k
  else if h : o < 0x1E6 then .noticeAcknowledge ⟨o - 0x1E3, by omega⟩
  else if o < 0x200 then .free
  else if h : o < 0x2D1 then .configuration ⟨o - 0x200, by omega⟩
  else if o < 0x300 then .free
  else if o < 0x340 then
    let b := bankOfNumber ((o - 0x300) / 8)
    if o % 8 = 4 then .enable b
    else if o % 8 = 6 then .acknowledge b
    else if o % 8 = 7 then .counterStart b
    else .owned (.bank b) k
  else if h : o < 0x360 then
    let l : LineId := ⟨(o - 0x340) / 8, by omega⟩
    if h4 : o % 8 < 4 then .pattern l ⟨o % 8, h4⟩ else .owned (.test l) k
  else .free

/-- The record and word whose dirty mark covers a word the part writes; none for a word it does not write. -/
def WindowWord.dirtyPlace : WindowWord → Option (RecordId × Fin 8)
  | .owned r k => some (r, k)
  | .noticeAcknowledge i => some (.notice, ⟨3 + i.val, by omega⟩)
  | .acknowledge b => some (.bank b, 6)
  | .counterStart b => some (.bank b, 7)
  | _ => none

/-- The offset of each captured word (R197). -/
def requestedOffset (n : ChannelId) : Nat := 8 * n.val
def notifyOffset (n : ChannelId) : Nat := 8 * n.val + 1
def commandOffset : Nat := 0x1D0
def argumentOffset (i : Fin 3) : Nat := 0x1D1 + i.val
def configurationOffset (i : Fin 209) : Nat := 0x200 + i.val
def enableOffset (b : BankId) : Nat := 0x300 + 8 * bankNumber b + 4
def acknowledgeOffset (b : BankId) : Nat := 0x300 + 8 * bankNumber b + 6
def patternOffset (l : LineId) (i : Fin 4) : Nat := 0x340 + 8 * l.val + i.val

end Sys2Proof.Machine
end

