-- ==== Sys2Proof/Machine/Types.lean ====
section
/-! DEFINITION. The kinds of things the state is made of, block by block, in the spec's names. -/

namespace Sys2Proof.Machine

/-! ## Configuration (R2, R46, R70, R171) -/

/-- Channel class (R4). -/
inductive ChannelClass where
  | unused | vent | dual | window
deriving DecidableEq, Repr

/-- What a fire asks of a channel: OPEN, CLOSE or HOLD (R28). -/
inductive SmokeAction where
  | opens | closes | holds
deriving DecidableEq, Repr

/-- The active configuration of a channel (R2). -/
structure ChannelConfig where
  cls : ChannelClass
  zone : ZoneId
  line : LineId
  node : BitVec 4
  smokeAction : SmokeAction
  facing : BitVec 8
  rainClose : Bool
  stormClose : Bool
  comfortLimit : Nat
  tolerance : Nat
  travelLimit : Nat
deriving DecidableEq, Repr

/-- LEVEL or PULSE (R46). -/
inductive FireMode where
  | level | pulse
deriving DecidableEq, Repr

/-- The configuration of a fire loop (R46). -/
structure LoopConfig where
  mode : FireMode
  faultAsAlarm : Bool
deriving DecidableEq, Repr

/-- The eight weather items of R70 and the two items of R171 that apply to all channels. -/
structure GlobalConfig where
  windWindow : Nat
  stormSetLimit : Nat
  stormClearLimit : Nat
  stormSetCount : Nat
  stormClearCount : Nat
  smokeWindLimit : Nat
  rainOnDelay : Nat
  rainOffDelay : Nat
  retryLimit : Nat
  supervisionInterval : Nat
deriving DecidableEq, Repr

/-! ## Channel records (R8 to R14, R25, R96) -/

/-- Governing source (R26). -/
inductive Source where
  | none | comfort | weather | smoke | manual
deriving DecidableEq, Repr

/-- The eight motion states (R14). -/
inductive Motion where
  | unused | offline | idle | queued | ordering | moving | halting | faulted
deriving DecidableEq, Repr

/-- Motion of a node (R11). -/
inductive NodeMotion where
  | stopped | opening | closing
deriving DecidableEq, Repr

/-- Node report (R11). -/
structure NodeReport where
  motion : NodeMotion
  endOpen : Bool
  endClosed : Bool
deriving DecidableEq, Repr

/-- Fault code with its detail (R12). -/
inductive FaultCode where
  | refused (reason : Byte)
  | nodeFault (flags : BitVec 3)
  | noResponse (retries : Nat)
  | checkError (retries : Nat)
  | shortTravel (position : Option Nat)
  | travelTimeout (seconds : Nat)
  | haltUnconfirmed (retries : Nat)
deriving DecidableEq, Repr

/-- A channel record with the Source Arbiter's, the Motion Unit's and the line controller's items for the channel. -/
structure Channel where
  cfg : ChannelConfig
  /-- The captured requested-target word, 0 to 1,000 (R6). -/
  requested : Word
  /-- The captured notify word (R7). -/
  notifyWord : Word
  granted : Option Nat
  governing : Source
  freeze : Option Nat
  position : Option Nat
  motion : Motion
  fault : Option FaultCode
  lastFault : Option FaultCode
  report : Option NodeReport
  /-- Travel elapsed in whole seconds, present while the travel timer runs (R13). -/
  travel : Option Nat
  /-- The instant of the travel timer's last whole second (the model's own, log 33). -/
  secondMark : Nat
  accepted : Option Nat
  /-- Query miss count, 0 to 3 (R112). -/
  miss : Nat
  shortMark : Bool
  /-- The instant from which the 200 ms of the next poll count (R131). -/
  pollFrom : Option Nat
  pollDue : Bool
  /-- The instant at which the supervision timer started (R132). -/
  supFrom : Option Nat
  supDue : Bool
deriving DecidableEq, Repr

/-- Notify is on for any captured word but 0 (R7). -/
def Channel.notify (c : Channel) : Bool := decide (c.notifyWord ≠ 0)

/-! ## Orders, exchanges and lines (R95, R121) -/

/-- An ORDER to a target, or the HALT after a travel expiry with its expiry value (R95). -/
inductive Work where
  | move (target : Nat)
  | halt (expiry : Nat)
deriving DecidableEq, Repr

/-- The queue group of an order (R98). -/
inductive OrderClass where
  | urgent | routine
deriving DecidableEq, Repr

/-- An order (R95). -/
structure Order where
  work : Work
  channel : ChannelId
  cls : OrderClass
  retriesLeft : Nat
  retriesAtQueueing : Nat
  sent : Bool
  /-- The instant at which the 50 ms backoff started, while it runs (R105). -/
  backoff : Option Nat
deriving DecidableEq, Repr

/-- Whether an order is a HALT. -/
def Order.isHalt (o : Order) : Bool := match o.work with | .halt _ => true | .move _ => false

/-- The part's frame exchange in flight (R121): an ORDER or HALT, a QUERY (poll or supervision), or a TEST frame with
the bytes it carries; `discarded` marks the last frame of an earlier test (R141). -/
inductive ExchangeKind where
  | order (o : Order)
  | query (channel : ChannelId) (poll : Bool)
  | test (bytes : Pattern) (discarded : Bool)
deriving DecidableEq, Repr

/-- An exchange with its node address and, once the frame is sent, the instant of the send (R122). -/
structure Exchange where
  kind : ExchangeKind
  node : BitVec 4
  sentAt : Option Nat
deriving DecidableEq, Repr

/-- The transaction that lost arbitration and is taken again next (R127). -/
inductive Retake where
  | move (n : ChannelId)
  | halt (n : ChannelId)
  | poll (n : ChannelId)
  | supervise (n : ChannelId)
deriving DecidableEq, Repr

/-- The channel a retake is for. -/
def Retake.channel : Retake → ChannelId
  | .move n | .halt n | .poll n | .supervise n => n

/-- Whether a retake is a HALT or a poll, which QUIETING still takes (R127, R130). -/
def Retake.inQuieting : Retake → Bool
  | .halt _ | .poll _ => true
  | .move _ | .supervise _ => false

/-- Line states (R121). -/
inductive LineState where
  | run | quieting | quiet | test | disabled | failed
deriving DecidableEq, Repr

/-- The station window of a line: none, due and waiting for the line, or in force since an instant (R126). -/
inductive StationWindow where
  | none
  | due
  | inForce (since : Nat)
deriving DecidableEq, Repr

/-- The part's answer to a station, waiting to be sent (R128). -/
structure Answer where
  station : BitVec 4
  accepted : Bool
deriving DecidableEq, Repr

/-- The watch a line keeps: none while DISABLED, the stuck watch, or in FAILED the recovery watch, with the last instant at
which its measure stood at 0 (R121, R136, R137, log 22). -/
inductive Watch where
  | off
  | stuck (since : Nat)
  | recovery (since : Nat)
deriving DecidableEq, Repr

/-- The receiver of a line (R120): it looks for a start bit, waits for the line to return recessive after a stop bit read
dominant, or after an unused kind code discards what follows until the line has been recessive for 1 ms. -/
inductive Receiver where
  | looking
  | waiting
  | discarding
deriving DecidableEq, Repr

/-- Kind of a line test (R140). -/
inductive TestKind where
  | sequence | pattern
deriving DecidableEq, Repr

/-- Result of a line test (R140). -/
inductive TestResult where
  | running | stopped | aborted
deriving DecidableEq, Repr

/-- The line test record (R140) and the pseudo-random sequence (R142). -/
structure LineTest where
  /-- The four captured pattern words. -/
  pattern : Vector Word 4
  kind : Option TestKind
  target : Option (BitVec 4)
  result : Option TestResult
  frames : Nat
  errors : Nat
  /-- Expected and actual byte of the most recent mismatch. -/
  pair : Option (Byte × Byte)
  /-- The next seven bits of the sequence, the first in the most significant place. -/
  seq : BitVec 7
deriving DecidableEq, Repr

/-- A field line with its controller (R121), its order queue (R97) and its test record (R140). -/
structure Line where
  state : LineState
  urgent : List Order
  routine : List Order
  exchange : Option Exchange
  /-- The channel last given a poll; none stands before the lowest channel. -/
  pollPos : Option ChannelId
  supPos : Option ChannelId
  retake : Option Retake
  /-- The instant of the station window clock's next 250 ms mark; absent while the clock is stopped (R126). -/
  clock : Option Nat
  window : StationWindow
  answer : Option Answer
  /-- The earliest instant at which the part may start a frame (R123, R125). -/
  freeAt : Nat
  /-- After an arbitration loss, the rest of the other sender's frame is still on the line (R127). -/
  receiving : Bool
  watch : Watch
  receiver : Receiver
  /-- The bytes of the last frame the part put on the line (R118, R198). -/
  wire : List Byte
  test : LineTest
deriving DecidableEq, Repr

/-! ## Zones (R45, R84) -/

/-- A fire loop: configuration, state, and the running level or pulse timer with its start (R49, R50). -/
structure FireLoop where
  cfg : LoopConfig
  state : LoopState
  timer : Option (FireMode × Nat)
deriving DecidableEq, Repr

/-- Deadline state (R45). -/
inductive Deadline where
  | idle | running | met | missed
deriving DecidableEq, Repr

/-- OPEN or CLOSE of a manual override (R84). -/
inductive OverrideValue where
  | opens | closes
deriving DecidableEq, Repr

/-- A manual override that is not NONE, with the line and station that last set it (R84). -/
structure KeyOverride where
  value : OverrideValue
  line : LineId
  station : BitVec 4
deriving DecidableEq, Repr

/-- A zone record (R45). -/
structure Zone where
  loop : FireLoop
  smokeDeadline : Nat
  latch : Bool
  deadline : Deadline
  remaining : Option Nat
  overrun : Nat
  overrunRunning : Bool
  complete : Bool
  indicator : Bool
  override : Option KeyOverride
  /-- The instant of the zone's last whole second (the model's own, log 33). -/
  secondMark : Nat
deriving DecidableEq, Repr

/-! ## Weather (R69) -/

/-- Rain debounce state (R78). -/
inductive RainState where
  | dry | wetting | wet | drying
deriving DecidableEq, Repr

/-- The Weather Unit (R69). -/
structure Weather where
  pulses : Nat
  /-- The instant at which the running window began. -/
  windowStart : Nat
  lastCount : Option Nat
  storm : Bool
  setRun : Nat
  clearRun : Nat
  smokeWind : Bool
  lastSample : Option (Fin 8)
  settled : Option (Fin 8)
  rainState : RainState
  /-- The instant at which the rain timer started, while it runs. -/
  rainFrom : Option Nat
deriving DecidableEq, Repr

/-- Rain is present in WET and DRYING (R79). -/
def Weather.rain (w : Weather) : Bool := match w.rainState with | .wet | .drying => true | .dry | .wetting => false

/-! ## Command Unit (R169, R171, R178) -/

/-- Outcome of the last command (R169). -/
inductive CommandOutcome where
  | ready | done | refused
deriving DecidableEq, Repr

/-- Reason of a refusal (R169). -/
inductive Reason where
  | badArg | wrongState | smokeActive | sequence | configInvalid
deriving DecidableEq, Repr

/-- The release sequence with the start of its timer and, in RS_ZONED, its zone set (R178). -/
inductive Release where
  | idle
  | begun (since : Nat)
  | zoned (since : Nat) (zones : BitVec 6)
deriving DecidableEq, Repr

/-- The Command Unit. -/
structure CommandUnit where
  args : Vector Word 3
  /-- The captured configuration words 0x200 to 0x2D0. -/
  pending : Vector Word 209
  generation : Word
  last : Option Word
  outcome : CommandOutcome
  reason : Option Reason
  /-- Command count, 0 to 127. -/
  count : Nat
  resultA : Option Word
  resultB : Option Word
  release : Release
deriving DecidableEq, Repr

/-! ## Error Banks (R183) -/

/-- Severity (R183). -/
inductive Severity where
  | notice | fault | safety
deriving DecidableEq, Repr

/-- Error kind (R184). -/
inductive ErrorKind where
  | ownedWordWrite | targetClamped | commandByteWrite | commandRefused | releaseAbandoned | commitRefused | ackMismatch
  | replyTimeout | checkError | unexpectedFrame | arbitrationLost | keyRefused | testAborted | lineFailed
  | channelFaulted | channelOffline
  | deadlineMissed | releaseRefused
  | loopOpen | loopShort
deriving DecidableEq, Repr

/-- Subject of an error (R183). -/
inductive Subject where
  | channel (n : ChannelId)
  | zone (z : ZoneId)
  | ga
  | line (l : LineId)
  | offset (off : Nat)
deriving DecidableEq, Repr

/-- Detail of an error (R184): a fault code, the reason of a refused command, or MALFORMED. -/
inductive Detail where
  | fault (f : FaultCode)
  | reason (r : Reason)
  | malformed
deriving DecidableEq, Repr

/-- An error as reported, and as a bank holds it (R185). -/
structure ErrorRecord where
  severity : Severity
  kind : ErrorKind
  subject : Option Subject
  detail : Option Detail
deriving DecidableEq, Repr

/-- Outcome of an acknowledgement (R189). -/
inductive AckOutcome where
  | cleared | mismatch | empty
deriving DecidableEq, Repr

/-- A bank (R183); it is valid while it holds a record. -/
structure Bank where
  record : Option ErrorRecord
  overflow : Bool
  safetyLost : Bool
  /-- The captured enable word. -/
  enable : Word
  /-- Threshold counter, 0 to 4,095. -/
  counter : Nat
  reached : Bool
  lastAck : Option (Byte × AckOutcome)
  lastStart : Nat
  recordShown : Bool
  thresholdShown : Bool
deriving DecidableEq, Repr

/-- Report enable and count enable (R197). -/
def Bank.reports (b : Bank) : Bool := b.enable.getLsbD 0
def Bank.counts (b : Bank) : Bool := b.enable.getLsbD 1

/-! ## The part and the bus -/

/-- Everything the part holds but the Bus Gate's list, arbiter and window. -/
structure Part where
  /-- Milliseconds since power-on (the model's clock, log 1). -/
  now : Nat
  chans : Vector Channel 48
  zones : Vector Zone 6
  ga : FireLoop
  lines : Vector Line 4
  weather : Weather
  globals : GlobalConfig
  cmd : CommandUnit
  banks : Vector Bank 8
  notices : BitVec 48
  noticeAcks : Vector Word 3
  noticesShown : Bool
  /-- Dirty marks of each record's words (R161). -/
  dirty : Vector (BitVec 8) 73
deriving DecidableEq, Repr

/-- The host's memory: the bytes written since power-on, by byte address, rising (log 4). -/
structure Memory where
  cells : List Host.Cell
deriving DecidableEq, Repr

/-- The two claimants of the memory port (R163). -/
inductive Claimant where
  | host | writeBack
deriving DecidableEq, Repr

/-- HD15 to HD0 as returned by a read, lane by lane (R160). -/
structure ReadData where
  upper : Option Byte
  lower : Option Byte
deriving DecidableEq, Repr

/-- The Bus Gate (R151, R152, R161 to R166). -/
structure Bus where
  straps : BitVec 3
  mem : Memory
  powerOns : Nat
  list : List RecordId
  /-- The words of the head entry's snapshot not yet written, from the moment the entry is begun; absent while the list is
  empty (R162, log 8). -/
  snapshot : Option (BitVec 8)
  lastCycle : Claimant
  /-- The records whose pass snapshot is not yet written; absent while no pass runs. -/
  pass : Option (List RecordId)
  rstn : Bool
  readData : ReadData
  /-- HRDY was held for the last host access (R164). -/
  waited : Bool
deriving DecidableEq, Repr

end Sys2Proof.Machine
end

