-- ==== Sys2Proof/Machine/Operands.lean ====
section
/-! DEFINITION. Operand forms: byte merges, the fields of configuration words, argument words and frame bytes, and the
validation of the pending copy (R155, R172, R196 to R198). -/

namespace Sys2Proof.Machine

/-! ## Bytes and words -/

/-- Upper byte of a word. -/
def upperByte (w : Word) : Byte := w.extractLsb' 8 8
/-- Lower byte of a word. -/
def lowerByte (w : Word) : Byte := w.extractLsb' 0 8
/-- A word of two bytes, the upper first. -/
def wordOfBytes (u l : Byte) : Word := u ++ l
/-- A field of a word as a number. -/
def field (w : Word) (lo len : Nat) : Nat := (w.extractLsb' lo len).toNat

/-- R155, step 1: the enabled bytes come from the host, the others from the captured value. -/
def merge (be : ByteEnables) (data old : Word) : Word :=
  wordOfBytes (if be.upper then upperByte data else upperByte old) (if be.lower then lowerByte data else lowerByte old)

/-- Both byte enables. -/
def wholeWord : ByteEnables := ⟨true, true⟩
/-- The byte enables of a byte write. -/
def laneEnables : Lane → ByteEnables
  | .upper => ⟨true, false⟩
  | .lower => ⟨false, true⟩

/-- R156: a merged requested target above 1,000 is rewritten to 1,000. -/
def clampTarget (w : Word) : Word := if fullOpen < w.toNat then BitVec.ofNat 16 fullOpen else w

/-! ## Defaults (R2, R46, R70, R171) -/

/-- Default configuration of a channel (R2). -/
def defaultChannelConfig (n : ChannelId) : ChannelConfig where
  cls := .dual
  zone := ⟨n.val / 8, by omega⟩
  line := ⟨n.val / 12, by omega⟩
  node := BitVec.ofNat 4 (n.val % 12 + 1)
  smokeAction := .opens
  facing := 0
  rainClose := true
  stormClose := true
  comfortLimit := 0
  tolerance := 10
  travelLimit := 120

/-- Default loop configuration (R46). -/
def defaultLoopConfig : LoopConfig := ⟨.level, false⟩
/-- Default smoke deadline (R46). -/
def defaultSmokeDeadline : Nat := 60

/-- Defaults of R70 and R171. -/
def defaultGlobals : GlobalConfig where
  windWindow := 2
  stormSetLimit := 100
  stormClearLimit := 60
  stormSetCount := 3
  stormClearCount := 30
  smokeWindLimit := 50
  rainOnDelay := 5
  rainOffDelay := 300
  retryLimit := 3
  supervisionInterval := 10

/-! ## Configuration words (R197) -/

/-- Class code (R196). -/
def classOfCode : Nat → ChannelClass
  | 0 => .unused
  | 1 => .vent
  | 2 => .dual
  | _ => .window

def classCode : ChannelClass → Nat
  | .unused => 0
  | .vent => 1
  | .dual => 2
  | .window => 3

/-- Smoke action code; 3 is out of range (R197) and never becomes active. -/
def actionOfCode : Nat → SmokeAction
  | 0 => .opens
  | 1 => .closes
  | _ => .holds

def actionCode : SmokeAction → Nat
  | .opens => 0
  | .closes => 1
  | .holds => 2

/-- Zone code; 6 and 7 are out of range (R197) and never become active. -/
def zoneOfCode (k : Nat) : ZoneId := ⟨k % 6, by omega⟩

/-- The configuration a channel's four words hold. -/
def decodeChannelConfig (w0 w1 w2 w3 : Word) : ChannelConfig where
  cls := classOfCode (field w0 14 2)
  zone := zoneOfCode (field w1 11 3)
  line := ⟨field w1 14 2 % 4, by omega⟩
  node := w1.extractLsb' 0 4
  smokeAction := actionOfCode (field w0 12 2)
  facing := upperByte w2
  rainClose := w0.getLsbD 11
  stormClose := w0.getLsbD 10
  comfortLimit := field w0 0 10
  tolerance := field w2 0 6
  travelLimit := w3.toNat

/-- The four words that encode a channel's configuration, bits without a field 0. -/
def encodeChannelConfig (c : ChannelConfig) : Nat → Word
  | 0 => BitVec.ofNat 16 (classCode c.cls * 0x4000 + actionCode c.smokeAction * 0x1000 + c.rainClose.toNat * 0x800 +
      c.stormClose.toNat * 0x400 + c.comfortLimit)
  | 1 => BitVec.ofNat 16 (c.line.val * 0x4000 + c.zone.val * 0x800 + c.node.toNat)
  | 2 => BitVec.ofNat 16 (c.facing.toNat * 0x100 + c.tolerance)
  | _ => BitVec.ofNat 16 c.travelLimit

/-- The loop configuration of a zone or GA word. -/
def decodeLoopConfig (w : Word) : LoopConfig := ⟨if w.getLsbD 15 then .pulse else .level, w.getLsbD 14⟩

/-- The captured configuration words: the pending copy (R171). -/
abbrev ConfigWords := Vector Word 209

/-- A word of the pending copy by its index from 0x200; indexes above 208 do not occur. -/
def configWord (p : ConfigWords) (i : Nat) : Word := if h : i < 209 then p[i] else 0

/-- A channel's configuration in the pending copy. -/
def pendingChannel (p : ConfigWords) (n : ChannelId) : ChannelConfig :=
  decodeChannelConfig (configWord p (4 * n.val)) (configWord p (4 * n.val + 1)) (configWord p (4 * n.val + 2))
    (configWord p (4 * n.val + 3))

/-- A zone's word in the pending copy: 0x2C0 + z. -/
def pendingZoneWord (p : ConfigWords) (z : ZoneId) : Word := configWord p (0xC0 + z.val)

/-- The zone's smoke deadline in the pending copy. -/
def pendingSmokeDeadline (p : ConfigWords) (z : ZoneId) : Nat := field (pendingZoneWord p z) 0 8

/-- A loop's configuration in the pending copy. -/
def pendingLoop (p : ConfigWords) : LoopId → LoopConfig
  | .zone z => decodeLoopConfig (pendingZoneWord p z)
  | .ga => decodeLoopConfig (configWord p 0xC6)

/-- The global items in the pending copy: 0x2C7 to 0x2D0. -/
def pendingGlobals (p : ConfigWords) : GlobalConfig where
  windWindow := (configWord p 0xC7).toNat
  stormSetLimit := (configWord p 0xC8).toNat
  stormClearLimit := (configWord p 0xC9).toNat
  stormSetCount := (configWord p 0xCA).toNat
  stormClearCount := (configWord p 0xCB).toNat
  smokeWindLimit := (configWord p 0xCC).toNat
  rainOnDelay := (configWord p 0xCD).toNat
  rainOffDelay := (configWord p 0xCE).toNat
  retryLimit := (configWord p 0xCF).toNat
  supervisionInterval := (configWord p 0xD0).toNat

/-- The word at an index of the pending copy that encodes the default configuration (R155). -/
def defaultConfigWord (i : Nat) : Word :=
  if h : i < 192 then encodeChannelConfig (defaultChannelConfig ⟨i / 4, by omega⟩) (i % 4)
  else if i < 0xC6 then BitVec.ofNat 16 defaultSmokeDeadline
  else match i with
    | 0xC7 => BitVec.ofNat 16 defaultGlobals.windWindow
    | 0xC8 => BitVec.ofNat 16 defaultGlobals.stormSetLimit
    | 0xC9 => BitVec.ofNat 16 defaultGlobals.stormClearLimit
    | 0xCA => BitVec.ofNat 16 defaultGlobals.stormSetCount
    | 0xCB => BitVec.ofNat 16 defaultGlobals.stormClearCount
    | 0xCC => BitVec.ofNat 16 defaultGlobals.smokeWindLimit
    | 0xCD => BitVec.ofNat 16 defaultGlobals.rainOnDelay
    | 0xCE => BitVec.ofNat 16 defaultGlobals.rainOffDelay
    | 0xCF => BitVec.ofNat 16 defaultGlobals.retryLimit
    | 0xD0 => BitVec.ofNat 16 defaultGlobals.supervisionInterval
    | _ => 0

/-- The pending copy after power-on reset (R171). -/
def defaultConfigWords : ConfigWords := Vector.ofFn (fun i => defaultConfigWord i.val)

/-! ## Validation (R172) -/

/-- Whether a number lies in a closed range. -/
def inRange (lo hi k : Nat) : Bool := decide (lo ≤ k) && decide (k ≤ hi)

/-- R172, check 1, for the word at index `i` of the pending copy. -/
def wordInRange (i : Nat) (w : Word) : Bool :=
  if i < 192 then
    match i % 4 with
    | 0 => decide (field w 12 2 ≠ 3) && decide (field w 0 10 ≤ 1000)
    | 1 => decide (field w 11 3 ≤ 5) && inRange 1 12 (field w 0 4)
    | 2 => decide (field w 0 6 ≤ 50)
    | _ => inRange 5 600 w.toNat
  else if i < 0xC6 then inRange 10 240 (field w 0 8)
  else match i with
    | 0xC7 => inRange 1 8 w.toNat
    | 0xC8 => inRange 1 65535 w.toNat
    | 0xC9 => inRange 1 65535 w.toNat
    | 0xCA => inRange 1 15 w.toNat
    | 0xCB => inRange 1 255 w.toNat
    | 0xCC => inRange 1 65535 w.toNat
    | 0xCD => inRange 1 60 w.toNat
    | 0xCE => inRange 10 3600 w.toNat
    | 0xCF => inRange 1 7 w.toNat
    | 0xD0 => inRange 2 60 w.toNat
    | _ => true

/-- Two channels of the pending copy clash: both in use, with the same line and node (R172, check 2). -/
def bindingClash (p : ConfigWords) (m n : ChannelId) : Bool :=
  decide ((pendingChannel p m).cls ≠ .unused) && decide ((pendingChannel p n).cls ≠ .unused) &&
    decide ((pendingChannel p m).line = (pendingChannel p n).line) &&
    decide ((pendingChannel p m).node = (pendingChannel p n).node)

/-- Channel `n` clashes with a lower-numbered channel. -/
def clashesBelow (p : ConfigWords) (n : ChannelId) : Bool :=
  (List.finRange 48).any (fun m => decide (m.val < n.val) && bindingClash p m n)

/-- The first out-of-range word of the pending copy, in ascending offset order. -/
def firstBadWord (p : ConfigWords) : Option (Fin 209) :=
  (List.finRange 209).find? (fun i => !wordInRange i.val p[i.val])

/-- The first channel that clashes with a lower one. -/
def firstClash (p : ConfigWords) : Option ChannelId := (List.finRange 48).find? (clashesBelow p)

/-- A failed validation: the offending channel, where there is one, and the offset of the failing word (R172). -/
structure ConfigFailure where
  channel : Option ChannelId
  offset : Nat
deriving DecidableEq, Repr

/-- R172: ranges, then bindings, then storm limits; none when the pending copy passes. -/
def validate (p : ConfigWords) : Option ConfigFailure :=
  match firstBadWord p with
  | some i => some ⟨if h : i.val < 192 then some ⟨i.val / 4, by omega⟩ else none, configurationOffset i⟩
  | none =>
    match firstClash p with
    | some n => some ⟨some n, 0x200 + 4 * n.val + 1⟩
    | none =>
      if (pendingGlobals p).stormSetLimit < (pendingGlobals p).stormClearLimit then some ⟨none, 0x2C9⟩ else none

/-! ## Frame bytes (R76, R198) -/

/-- Position carried by a STATUS: 0xFFFF and values above 1,000 are UNKNOWN (R9). -/
def positionOfWord (w : Word) : Option Nat := if w.toNat ≤ fullOpen then some w.toNat else none

/-- Node motion of a STATUS motion byte; 3 names no motion (R198). -/
def nodeMotionOfByte (b : Byte) : Option NodeMotion :=
  match (b.extractLsb' 0 2).toNat with
  | 0 => some .stopped
  | 1 => some .opening
  | 2 => some .closing
  | _ => none

/-- Node report of a STATUS motion byte (R198). -/
def nodeReportOfByte (m : NodeMotion) (b : Byte) : NodeReport := ⟨m, b.getLsbD 2, b.getLsbD 3⟩

/-- Fault flags of a STATUS fault byte: JAM, OVERCURRENT, SUPPLY_LOW (R196). -/
def faultFlags (b : Byte) : BitVec 3 := b.extractLsb' 0 3

/-- The sector of the vane levels, a reflected Gray code (R76). -/
def sectorOfVane (v : BitVec 3) : Fin 8 :=
  match v.toNat with
  | 0b000 => 0
  | 0b001 => 1
  | 0b011 => 2
  | 0b010 => 3
  | 0b110 => 4
  | 0b111 => 5
  | 0b101 => 6
  | _ => 7

/-- The commands a KEY frame carries (R85). -/
inductive KeyCommand where
  | opens | closes | auto
deriving DecidableEq, Repr

/-- The KEY command of a code; other codes are unknown (R196, R198). -/
def keyCommandOfByte (b : Byte) : Option KeyCommand :=
  match b.toNat with
  | 1 => some .opens
  | 2 => some .closes
  | 3 => some .auto
  | _ => none

/-- The zone set of a KEY frame: bits 5 to 0 (R198). -/
def zoneSetOfByte (b : Byte) : BitVec 6 := b.extractLsb' 0 6

/-- An address of a key station (R86). -/
def isStation (addr : BitVec 4) : Bool := decide (addr = 14) || decide (addr = 15)

/-! ## Argument words (R197) -/

/-- The line an argument names; above 3 it names none. -/
def lineOfArgument (w : Word) : Option LineId := if h : w.toNat < 4 then some ⟨w.toNat, h⟩ else none

/-- The channels FAULT_CLEAR names: one, or all for 255 (R174). -/
def channelsOfArgument (w : Word) : Option (List ChannelId) :=
  if h : w.toNat < 48 then some [⟨w.toNat, h⟩] else if w.toNat = 255 then some (List.finRange 48) else none

/-- The states LINE_STATE may ask for (R175). -/
inductive LineRequest where
  | run | quiet | disabled
deriving DecidableEq, Repr

/-- The state an argument asks for (R196). -/
def lineRequestOfArgument (w : Word) : Option LineRequest :=
  match w.toNat with
  | 0 => some .run
  | 1 => some .quiet
  | 2 => some .disabled
  | _ => none

/-- The test kind of an argument: 1 or 2; 3 names both and is refused (R176, R196). -/
def testKindOfArgument (w : Word) : Option TestKind :=
  match w.toNat with
  | 1 => some .sequence
  | 2 => some .pattern
  | _ => none

/-- The target node of an argument, 0 to 12 (R176). -/
def targetOfArgument (w : Word) : Option (BitVec 4) := if w.toNat ≤ 12 then some (w.extractLsb' 0 4) else none

/-- The zone set of an argument: at least one zone, none outside 0 to 5 (R179). -/
def zoneSetOfArgument (w : Word) : Option (BitVec 6) := if w ≠ 0 ∧ w.toNat < 64 then some (w.extractLsb' 0 6) else none

end Sys2Proof.Machine
end

