-- ==== Sys2Proof/Machine/PowerOn.lean ====
section
/-! DEFINITION. The values power-on reset gives every item (R17, R25, R45, R69, R84, R96, R97, R121, R140, R155, R165,
R169, R171, R178, R183, R191, R192). -/

namespace Sys2Proof.Machine

/-- A channel record after power-on reset (R17): OFFLINE, governed by COMFORT, due for supervision at once (R121). -/
def initialChannel (n : ChannelId) : Channel where
  cfg := defaultChannelConfig n
  requested := 0
  notifyWord := 0
  granted := some 0
  governing := .comfort
  freeze := none
  position := none
  motion := .offline
  fault := none
  lastFault := none
  report := none
  travel := none
  secondMark := 0
  accepted := none
  miss := 0
  shortMark := false
  pollFrom := none
  pollDue := false
  supFrom := some 0
  supDue := true

/-- A fire loop before its first sample: no alarm condition and no fault (R51). -/
def initialLoop : FireLoop := ⟨defaultLoopConfig, .normal, none⟩

/-- A zone record after power-on reset (R45, R46, R84). -/
def initialZone : Zone where
  loop := initialLoop
  smokeDeadline := defaultSmokeDeadline
  latch := false
  deadline := .idle
  remaining := none
  overrun := 0
  overrunRunning := false
  complete := true
  indicator := false
  override := none
  secondMark := 0

/-- A line test record after power-on reset (R140). -/
def initialTest : LineTest where
  pattern := Vector.replicate 4 0
  kind := none
  target := none
  result := none
  frames := 0
  errors := 0
  pair := none
  seq := 0b1111111

/-- A line after power-on reset (R97, R121); its receiver looks for a frame (R120, log 50). -/
def initialLine : Line where
  state := .run
  urgent := []
  routine := []
  exchange := none
  pollPos := none
  supPos := none
  retake := none
  clock := some windowPeriod
  window := .none
  answer := none
  freeAt := 0
  receiving := false
  watch := .stuck 0
  receiver := .looking
  wire := []
  test := initialTest

/-- The Weather Unit after power-on reset (R69, R78). -/
def initialWeather (rainActive : Bool) : Weather where
  pulses := 0
  windowStart := 0
  lastCount := none
  storm := false
  setRun := 0
  clearRun := 0
  smokeWind := false
  lastSample := none
  settled := none
  rainState := if rainActive then .wetting else .dry
  rainFrom := if rainActive then some 0 else none

/-- The Command Unit after power-on reset (R169, R171, R173, R178). -/
def initialCommandUnit : CommandUnit where
  args := Vector.replicate 3 0
  pending := defaultConfigWords
  generation := 0
  last := none
  outcome := .ready
  reason := none
  count := 0
  resultA := none
  resultB := none
  release := .idle

/-- A bank after power-on reset (R183): report enable and count enable off; the 14 bits of the captured enable word that no
field uses are 0 by the model's choice (log 15). -/
def initialBank : Bank where
  record := none
  overflow := false
  safetyLost := false
  enable := 0
  counter := 0
  reached := false
  lastAck := none
  lastStart := 0
  recordShown := false
  thresholdShown := false

/-- Dirty marks of a resynchronisation pass: every word the part writes (R165). -/
def allDirty : Vector (BitVec 8) 73 := Vector.ofFn (fun i => (allRecords[i.val]?.map ownedMask).getD 0)

/-- The part after power-on reset, before the first samples of the loops are taken (R51). -/
def initialPart (rainActive : Bool) : Part where
  now := 0
  chans := Vector.ofFn initialChannel
  zones := Vector.replicate 6 initialZone
  ga := initialLoop
  lines := Vector.replicate 4 initialLine
  weather := initialWeather rainActive
  globals := defaultGlobals
  cmd := initialCommandUnit
  banks := Vector.replicate 8 initialBank
  notices := 0
  noticeAcks := Vector.replicate 3 0
  noticesShown := false
  dirty := allDirty

/-- The Bus Gate after power-on reset: the straps are read, a pass runs and its first entry is begun (R152, R162, R163,
R165). RSTN stands not asserted, also where it was asserted before: the spec gives no level of it at power-on (the model's choice,
log 5). -/
def initialBus (straps : BitVec 3) (powerOns : Nat) : Bus where
  straps := straps
  mem := ⟨[]⟩
  powerOns := powerOns
  list := allRecords
  snapshot := some (ownedMask (.channel 0))
  lastCycle := .host
  pass := some allRecords
  rstn := false
  readData := ⟨none, none⟩
  waited := false

end Sys2Proof.Machine
end

