-- ==== Sys2Proof/Machine/State.lean ====
section
/-! DEFINITION. The state of the machine, the reasons a step can stop, and the state after reset. -/

namespace Sys2Proof.Machine

/-- The machine: the part, its Bus Gate with the host's memory, and the queue of commands that wait. -/
structure State where
  part : Part
  bus : Bus
  pending : List Instr
deriving DecidableEq, Repr

/-- Faults: none. Every event the spec names has an outcome in it, so no command stops the machine (safe: nothing is
hidden behind a stop). -/
inductive Fault where
deriving DecidableEq, Repr

/-- Refusals. -/
inductive Refusal where
  /-- Raised by an arm of exec that has no meaning yet; no arm uses it. Safe: nothing can be proved of a next state. -/
  | notModelled (mnemonic : String)
deriving DecidableEq, Repr

/-- The machine right after power-on reset, with straps 0, every loop NORMAL and the rain contact inactive (log 5). -/
def State.reset : State where
  part := initialPart false
  bus := initialBus 0 0
  pending := []

end Sys2Proof.Machine
end

