-- ==== Sys2Proof/Machine/Ops.lean ====
section
/-! DEFINITION. The named operations over the state: the host's memory, the records of the part with their dirty marks
(R16, R45, R83, R121, R161), and the clock. -/

namespace Sys2Proof.Machine

/-! ## The host's memory (R151) -/

/-- Byte address of a lane of a word: the lower lane even, the upper lane odd (log 4). -/
def byteKey (addr : Addr) : Lane → Nat
  | .lower => 2 * addr.toNat
  | .upper => 2 * addr.toNat + 1

/-- Insert or replace a byte, keeping the addresses rising. -/
def writeCell : List Host.Cell → Nat → Byte → List Host.Cell
  | [], k, v => [(k, v)]
  | (k', v') :: rest, k, v =>
    if k < k' then (k, v) :: (k', v') :: rest
    else if k = k' then (k, v) :: rest
    else (k', v') :: writeCell rest k v

/-- The byte written at an address; none where nothing has been written since power-on. -/
def readCell : List Host.Cell → Nat → Option Byte
  | [], _ => none
  | (k', v') :: rest, k => if k = k' then some v' else readCell rest k

def Memory.write (m : Memory) (k : Nat) (v : Byte) : Memory := ⟨writeCell m.cells k v⟩
def Memory.read (m : Memory) (k : Nat) : Option Byte := readCell m.cells k

/-- The canonical form: addresses strictly rising, all inside the address space. No entry can equal what an unlisted
address reads as, since that is no listed byte but a free value (log 4). -/
abbrev Memory.wf (m : Memory) : Prop :=
  List.Pairwise (fun a b => a.1 < b.1) m.cells ∧ ∀ c ∈ m.cells, c.1 < 2 ^ 21

/-- A memory write cycle with its byte enables. -/
def Memory.writeWord (m : Memory) (addr : Addr) (be : ByteEnables) (w : Word) : Memory :=
  let m1 := if be.lower then m.write (byteKey addr .lower) (lowerByte w) else m
  if be.upper then m1.write (byteKey addr .upper) (upperByte w) else m1

/-- What a byte of the RAM holds: what was written, or what it woke with (log 4). -/
def Bus.byteAt (b : Bus) (k : Nat) : Byte := (b.mem.read k).getD (Config.ramAtPowerOn b.powerOns k)

/-- The word of the RAM at an address. -/
def Bus.wordAt (b : Bus) (addr : Addr) : Word := wordOfBytes (b.byteAt (byteKey addr .upper)) (b.byteAt (byteKey addr .lower))

/-- The window base (R152). -/
def Bus.base (b : Bus) : Addr := BitVec.ofNat 20 (b.straps.toNat * 131072)

/-- The address of an offset of the window. -/
def Bus.addressOf (b : Bus) (off : Nat) : Addr := b.base + BitVec.ofNat 20 off

/-- The offset of an address inside the window (R152). -/
def Bus.offsetOf (b : Bus) (addr : Addr) : Option (BitVec 10) :=
  if (addr - b.base).toNat < 1024 then some ((addr - b.base).extractLsb' 0 10) else none

/-- The lanes of a word that the byte enables give the host (R160). -/
def lanesOf (be : ByteEnables) (w : Word) : ReadData :=
  ⟨if be.upper then some (upperByte w) else none, if be.lower then some (lowerByte w) else none⟩

/-! ## Reading the records of the part -/

def Part.chan (p : Part) (n : ChannelId) : Channel := p.chans[n.val]
def Part.zone (p : Part) (z : ZoneId) : Zone := p.zones[z.val]
def Part.line (p : Part) (l : LineId) : Line := p.lines[l.val]
def Part.bank (p : Part) (b : BankId) : Bank := p.banks[(bankIndex b).val]
def Part.dirtyOf (p : Part) (r : RecordId) : BitVec 8 := p.dirty[(recordIndex r).val]
def Part.loop (p : Part) : LoopId → FireLoop
  | .zone z => (p.zone z).loop
  | .ga => p.ga

/-- The line a channel is bound to (R5). -/
def Part.lineOf (p : Part) (n : ChannelId) : LineId := (p.chan n).cfg.line

/-- A channel in use, bound to a line (R5). -/
def Channel.boundTo (c : Channel) (l : LineId) : Bool := decide (c.cfg.cls ≠ .unused) && decide (c.cfg.line = l)

/-- The channels, in ascending order. -/
def allChannels : List ChannelId := List.finRange 48

/-- One act for each channel of a list, in order (R40). -/
def Part.forEach (p : Part) (ns : List ChannelId) (act : ChannelId → Part → Part) : Part :=
  ns.foldl (fun q n => act n q) p

/-! ## Dirty marks (R16, R161) -/

/-- One word of a dirty set, if something changed. -/
def wordBit (changed : Bool) (k : Nat) : BitVec 8 := if changed then BitVec.ofNat 8 (2 ^ k) else 0

/-- Mark words of a record dirty; a word already marked stays marked. -/
def Part.mark (p : Part) (r : RecordId) (words : BitVec 8) : Part :=
  { p with dirty := p.dirty.set (recordIndex r).val (p.dirtyOf r ||| words) }

/-- The words of a channel record whose fields differ (R16, R197). -/
def channelChanges (a b : Channel) : BitVec 8 :=
  wordBit (decide (a.granted ≠ b.granted)) 2 ||| wordBit (decide (a.governing ≠ b.governing ∨ a.motion ≠ b.motion)) 3 |||
  wordBit (decide (a.position ≠ b.position)) 4 ||| wordBit (decide (a.report ≠ b.report ∨ a.travel ≠ b.travel)) 5 |||
  wordBit (decide (a.fault ≠ b.fault)) 6 ||| wordBit (decide (a.lastFault ≠ b.lastFault)) 7

/-- The words of a zone record whose fields differ (R45, R84, R197). -/
def zoneChanges (a b : Zone) : BitVec 8 :=
  wordBit (decide (a.loop.state ≠ b.loop.state ∨ a.indicator ≠ b.indicator ∨ a.complete ≠ b.complete ∨ a.latch ≠ b.latch)) 0 |||
  wordBit (decide (a.deadline ≠ b.deadline ∨ a.overrunRunning ≠ b.overrunRunning)) 1 |||
  wordBit (decide (a.remaining ≠ b.remaining)) 2 ||| wordBit (decide (a.overrun ≠ b.overrun)) 3 |||
  wordBit (decide (a.override.map (fun o => (o.value, o.line)) ≠ b.override.map (fun o => (o.value, o.line)))) 4 |||
  wordBit (decide (a.override.map (fun o => o.station) ≠ b.override.map (fun o => o.station))) 5

/-- The words of a line record whose fields differ (R121, R197). -/
def lineChanges (a b : Line) : BitVec 8 :=
  wordBit (decide (a.state ≠ b.state)) 0 ||| wordBit (decide (a.urgent.length ≠ b.urgent.length)) 1 |||
  wordBit (decide (a.routine.length ≠ b.routine.length)) 2

/-- The part-owned words of a line test record whose fields differ (R140, R197). -/
def testChanges (a b : LineTest) : BitVec 8 :=
  wordBit (decide (a.kind ≠ b.kind ∨ a.target ≠ b.target)) 4 |||
  wordBit (decide (a.result ≠ b.result ∨ a.errors ≠ b.errors)) 5 |||
  wordBit (decide (a.frames ≠ b.frames)) 6 ||| wordBit (decide (a.pair ≠ b.pair)) 7

/-- The words of the command status whose fields differ (R169, R197). -/
def statusChanges (a b : CommandUnit) : BitVec 8 :=
  wordBit (decide (a.last ≠ b.last ∨ a.outcome ≠ b.outcome ∨ a.reason ≠ b.reason ∨ a.count ≠ b.count)) 4 |||
  wordBit (decide (a.resultA ≠ b.resultA)) 5 ||| wordBit (decide (a.resultB ≠ b.resultB)) 6

/-- Code of the release state (R196). -/
def releaseCode : Release → Nat
  | .idle => 0
  | .begun _ => 1
  | .zoned _ _ => 2

/-- The global status words of the Command Unit whose fields differ (R173, R178, R197). -/
def commandGlobalChanges (a b : CommandUnit) : BitVec 8 :=
  wordBit (decide (a.generation ≠ b.generation)) 1 ||| wordBit (decide (releaseCode a.release ≠ releaseCode b.release)) 2

/-- The global status words of the Weather Unit whose fields differ (R83, R197). A window end with the last count and the last
sample again may still change storm, smoke wind or the settled sector: that change marks its word, by R83's rule for each change of
a shown item, although its last sentence has such a window end mark nothing (the model's choice, log 49). -/
def weatherChanges (a b : Weather) : BitVec 8 :=
  wordBit (decide (a.rain ≠ b.rain ∨ a.storm ≠ b.storm ∨ a.smokeWind ≠ b.smokeWind)) 3 |||
  wordBit (decide (a.settled ≠ b.settled)) 4 ||| wordBit (decide (a.lastCount ≠ b.lastCount)) 5 |||
  wordBit (decide (a.lastSample ≠ b.lastSample)) 6

/-- The words of a bank record whose fields differ (R183, R197). -/
def bankChanges (a b : Bank) : BitVec 8 :=
  wordBit (decide (a.reached ≠ b.reached ∨ a.safetyLost ≠ b.safetyLost ∨ a.overflow ≠ b.overflow ∨
    a.record.isSome ≠ b.record.isSome)) 0 |||
  wordBit (decide (a.record.map (fun e => (e.severity, e.kind)) ≠ b.record.map (fun e => (e.severity, e.kind)))) 1 |||
  wordBit (decide (a.record.bind (fun e => e.subject) ≠ b.record.bind (fun e => e.subject))) 2 |||
  wordBit (decide (a.record.bind (fun e => e.detail) ≠ b.record.bind (fun e => e.detail))) 3 |||
  wordBit (decide (a.counter ≠ b.counter)) 5 ||| wordBit (decide (a.lastAck ≠ b.lastAck)) 6 |||
  wordBit (decide (a.lastStart ≠ b.lastStart)) 7

/-- The membership word of a set of channels: channels 16 k to 16 k + 15 (R196). -/
def setWord (s : BitVec 48) (k : Nat) : Word := s.extractLsb' (16 * k) 16

/-! ## Writing the records of the part: each write marks what it changes -/

def Part.setChan (p : Part) (n : ChannelId) (c : Channel) : Part :=
  Part.mark { p with chans := p.chans.set n.val c } (.channel n) (channelChanges (p.chan n) c)

def Part.setZone (p : Part) (z : ZoneId) (x : Zone) : Part :=
  Part.mark { p with zones := p.zones.set z.val x } (.zone z) (zoneChanges (p.zone z) x)

def Part.setGa (p : Part) (g : FireLoop) : Part :=
  Part.mark { p with ga := g } .global (wordBit (decide (p.ga.state ≠ g.state)) 0)

def Part.setLine (p : Part) (l : LineId) (x : Line) : Part :=
  Part.mark (Part.mark { p with lines := p.lines.set l.val x } (.line l) (lineChanges (p.line l) x))
    (.test l) (testChanges (p.line l).test x.test)

def Part.setWeather (p : Part) (w : Weather) : Part :=
  Part.mark { p with weather := w } .global (weatherChanges p.weather w)

def Part.setCmd (p : Part) (c : CommandUnit) : Part :=
  Part.mark (Part.mark { p with cmd := c } .command (statusChanges p.cmd c)) .global (commandGlobalChanges p.cmd c)

def Part.setBank (p : Part) (b : BankId) (x : Bank) : Part :=
  Part.mark { p with banks := p.banks.set (bankIndex b).val x } (.bank b) (bankChanges (p.bank b) x)

/-- The notice set; when it empties, the notices item ends and its shown mark is lost (R193). -/
def Part.setNotices (p : Part) (s : BitVec 48) : Part :=
  Part.mark { p with notices := s, noticesShown := p.noticesShown && decide (s ≠ 0) } .notice
    (wordBit (decide (setWord p.notices 0 ≠ setWord s 0)) 0 ||| wordBit (decide (setWord p.notices 1 ≠ setWord s 1)) 1 |||
      wordBit (decide (setWord p.notices 2 ≠ setWord s 2)) 2)

def Part.modChan (p : Part) (n : ChannelId) (f : Channel → Channel) : Part := p.setChan n (f (p.chan n))
def Part.modZone (p : Part) (z : ZoneId) (f : Zone → Zone) : Part := p.setZone z (f (p.zone z))
def Part.modLine (p : Part) (l : LineId) (f : Line → Line) : Part := p.setLine l (f (p.line l))
def Part.modTest (p : Part) (l : LineId) (f : LineTest → LineTest) : Part :=
  p.modLine l (fun x => { x with test := f x.test })

/-- A loop's record: in its zone, or GA's. -/
def Part.setLoop (p : Part) (loop : LoopId) (g : FireLoop) : Part :=
  match loop with
  | .zone z => p.modZone z (fun x => { x with loop := g })
  | .ga => p.setGa g

/-! ## The clock (log 1, log 2) -/

/-- One millisecond passes. -/
def Part.tick (p : Part) : Part := { p with now := p.now + 1 }

/-- The clock stands at an instant or later: a timed event is taken at its instant, or after it. -/
def Part.advanceTo (p : Part) (t : Nat) : Part := { p with now := max p.now t }

/-- A counter that stops at its ceiling. -/
def saturate (ceiling k : Nat) : Nat := if ceiling ≤ k then ceiling else k

end Sys2Proof.Machine
end

