-- ==== Sys2Proof/Machine/Flags.lean ====
section
/-! DEFINITION. The Error Banks: recording, threshold, acknowledgement, notices, attention items, and the outputs ATTN
and FAULT (R183 to R195). -/

namespace Sys2Proof.Machine

/-- NOTICE < FAULT < SAFETY (R183). -/
def severityRank : Severity → Nat
  | .notice => 0
  | .fault => 1
  | .safety => 2

/-- R185: what a bank holds after it takes an error. -/
def Bank.take (b : Bank) (e : ErrorRecord) : Bank :=
  match b.record with
  | none => { b with record := some e }
  | some r =>
    if severityRank r.severity < severityRank e.severity then { b with record := some e, overflow := true }
    else if r.severity = .safety ∧ e.severity = .safety then { b with overflow := true, safetyLost := true }
    else { b with overflow := true }

/-- R187: the threshold count of an error. -/
def Bank.count (b : Bank) : Bank :=
  if b.counts ∧ b.counter < thresholdCeiling then
    { b with counter := b.counter + 1, reached := b.reached || decide (b.counter + 1 = thresholdCeiling) }
  else b

/-- A bank takes an error as one event (R185, R187). -/
def Part.record (p : Part) (b : BankId) (e : ErrorRecord) : Part := p.setBank b ((p.bank b).take e).count

/-- A NOTICE of a bank. -/
def noticeOf (kind : ErrorKind) (subject : Option Subject) (detail : Option Detail) : ErrorRecord :=
  ⟨.notice, kind, subject, detail⟩

/-- R116: SAFETY if the channel is governed by SMOKE at the moment, FAULT otherwise. -/
def channelSeverity (c : Channel) : Severity := if c.governing = .smoke then .safety else .fault

/-- CHANNEL_OFFLINE of a channel (R18, R20, R23, R116). -/
def Part.recordOffline (p : Part) (n : ChannelId) : Part :=
  p.record .channel ⟨channelSeverity (p.chan n), .channelOffline, some (.channel n), none⟩

/-- CHANNEL_FAULTED of a channel (R116). -/
def Part.recordFaulted (p : Part) (n : ChannelId) (f : FaultCode) : Part :=
  p.record .channel ⟨channelSeverity (p.chan n), .channelFaulted, some (.channel n), some (.fault f)⟩

/-- Error kind codes (R196). -/
def errorKindCode : ErrorKind → Nat
  | .ownedWordWrite => 1
  | .targetClamped => 2
  | .commandByteWrite => 3
  | .commandRefused => 4
  | .releaseAbandoned => 5
  | .commitRefused => 6
  | .ackMismatch => 7
  | .replyTimeout => 16
  | .checkError => 17
  | .unexpectedFrame => 18
  | .arbitrationLost => 19
  | .keyRefused => 20
  | .testAborted => 21
  | .lineFailed => 22
  | .channelFaulted => 32
  | .channelOffline => 33
  | .deadlineMissed => 48
  | .releaseRefused => 49
  | .loopOpen => 64
  | .loopShort => 65

/-- R189: the outcome of a kind code written to a bank's acknowledge word. -/
def Bank.ackOutcome (b : Bank) (code : Word) : AckOutcome :=
  match b.record with
  | none => .empty
  | some r => if errorKindCode r.kind = code.toNat then .cleared else .mismatch

/-- R189: a write of the merged word to a bank's acknowledge word. Clearing the record ends its attention item (R193). -/
def Bank.acknowledge (b : Bank) (code : Word) : Bank :=
  match b.ackOutcome code with
  | .cleared =>
    { b with record := none, overflow := false, safetyLost := false, recordShown := false,
             lastAck := some (lowerByte code, .cleared) }
  | .mismatch => { b with lastAck := some (lowerByte code, .mismatch) }
  | .empty => { b with lastAck := some (lowerByte code, .empty) }

/-- R189 at the part: a MISMATCH records ACK_MISMATCH in GATE after the comparison. The word is marked dirty (R158). -/
def Part.acknowledge (p : Part) (b : BankId) (code : Word) : Part :=
  let p1 := Part.mark (p.setBank b ((p.bank b).acknowledge code)) (.bank b) (wordBit true 6)
  match (p.bank b).ackOutcome code with
  | .mismatch => p1.record .gate (noticeOf .ackMismatch (some (.offset (acknowledgeOffset b))) none)
  | .cleared | .empty => p1

/-- The start value of a counter-start word, at most 4,095 (R188). -/
def startValue (w : Word) : Nat := saturate thresholdCeiling w.toNat

/-- R188: the threshold counter takes the start value, and the threshold item ends. -/
def Bank.startCounter (b : Bank) (w : Word) : Bank :=
  { b with counter := startValue w, reached := false, thresholdShown := false, lastStart := startValue w }

def Part.startCounter (p : Part) (b : BankId) (w : Word) : Part :=
  Part.mark (p.setBank b ((p.bank b).startCounter w)) (.bank b) (wordBit true 7)

/-- The members of acknowledge word `k` in a word, as a set of channels (R192). -/
def namedSet (k : Fin 3) (w : Word) : BitVec 48 := w.setWidth 48 <<< (16 * k.val)

/-- R192: the named members leave the notice set, and the word's value becomes the set removed. -/
def Part.acknowledgeNotices (p : Part) (k : Fin 3) (w : Word) : Part :=
  let removed := setWord p.notices k.val &&& w
  let p1 := p.setNotices (p.notices &&& ~~~ (namedSet k w))
  Part.mark { p1 with noticeAcks := p1.noticeAcks.set k.val removed } .notice (wordBit true (3 + k.val))

/-- R191: a channel joins the notice set. -/
def Part.joinNotices (p : Part) (n : ChannelId) : Part := p.setNotices (p.notices ||| BitVec.ofNat 48 (2 ^ n.val))

/-- A word of a record has no dirty mark. -/
def Part.cleanWord (p : Part) (r : RecordId) (k : Nat) : Bool := !(p.dirtyOf r).getLsbD k

/-- R193: at a snapshot report, each item of the record whose holding word is clean receives its shown mark. -/
def Part.showItems (p : Part) (r : RecordId) : Part :=
  match r with
  | .bank b =>
    let x := p.bank b
    if p.cleanWord r 0 then
      p.setBank b { x with recordShown := x.recordShown || x.record.isSome,
                           thresholdShown := x.thresholdShown || x.reached }
    else p
  | .notice =>
    if p.cleanWord r 0 ∧ p.cleanWord r 1 ∧ p.cleanWord r 2 then
      { p with noticesShown := p.noticesShown || decide (p.notices ≠ 0) }
    else p
  | .channel _ | .zone _ | .line _ | .command | .global | .test _ => p

/-- R194: at the start of a pass every shown mark is lost. -/
def Part.hideItems (p : Part) : Part :=
  let q := allBanks.foldl (fun q b => q.setBank b { q.bank b with recordShown := false, thresholdShown := false }) p
  { q with noticesShown := false }

/-- A bank with report enable on has a shown item (R193). -/
def Bank.attention (b : Bank) : Bool := b.reports && (b.recordShown || b.thresholdShown)

/-- ATTN (R193): asserted while no pass runs and a reporting bank's item or the notices item is shown. -/
def State.attn (s : State) : Bool :=
  s.bus.pass.isNone && (allBanks.any (fun b => (s.part.bank b).attention) || s.part.noticesShown)

/-- FAULT (R195): on while a channel is FAULTED or OFFLINE or a line is FAILED or DISABLED. -/
def Part.faultOutput (p : Part) : Bool :=
  allChannels.any (fun n => decide ((p.chan n).motion = .faulted ∨ (p.chan n).motion = .offline)) ||
    (List.finRange 4).any (fun l => decide ((p.line l).state = .failed ∨ (p.line l).state = .disabled))

end Sys2Proof.Machine
end

