-- ==== Sys2Proof/Machine/Motion.lean ====
section
/-! DEFINITION. The Motion Unit: order queues, grant notices, motion states, what results and expiries do to a channel
(R10, R13 to R15, R18, R95 to R116). -/

namespace Sys2Proof.Machine

/-! ## Tolerance and timers of a channel -/

/-- A position is within tolerance of a target (R10). -/
def withinTolerance (c : Channel) (target : Option Nat) : Bool :=
  match c.position, target with
  | some p, some t => decide (p ≤ t + c.cfg.tolerance) && decide (t ≤ p + c.cfg.tolerance)
  | _, _ => false

/-- The supervised states (R132). -/
def supervised : Motion → Bool
  | .idle | .queued | .offline | .faulted => true
  | .unused | .ordering | .moving | .halting => false

/-- A channel enters a motion state. Its supervision timer starts at an entry into a supervised state from another
(R132); its poll time starts at an entry into MOVING and is dropped when it leaves (R131). -/
def Channel.enter (c : Channel) (now : Nat) (m : Motion) : Channel :=
  { c with
    motion := m
    supFrom := if supervised m then (if supervised c.motion then c.supFrom else some now) else none
    supDue := supervised m && supervised c.motion && c.supDue
    pollFrom := if m = .moving then (if c.motion = .moving then c.pollFrom else some now) else none
    pollDue := decide (m = .moving ∧ c.motion = .moving) && c.pollDue }

def Part.setMotion (p : Part) (n : ChannelId) (m : Motion) : Part := p.modChan n (fun c => c.enter p.now m)

/-- The travel timer stops (R13). -/
def Part.stopTravel (p : Part) (n : ChannelId) : Part := p.modChan n (fun c => { c with travel := none })

/-! ## The queue of a line (R97) -/

/-- URGENT for SMOKE and MANUAL, ROUTINE for WEATHER and COMFORT (R98). -/
def classOf : Source → OrderClass
  | .smoke | .manual => .urgent
  | .none | .comfort | .weather => .routine

/-- The order of a channel on a line's queue: at most one (R97). -/
def Line.queued (x : Line) (n : ChannelId) : Option Order :=
  (x.urgent ++ x.routine).find? (fun o => decide (o.channel = n))

/-- The ORDER or HALT of a channel in flight on a line (R96). -/
def Line.inFlight (x : Line) (n : ChannelId) : Option Order :=
  match x.exchange with
  | some e =>
    match e.kind with
    | .order o => if o.channel = n then some o else none
    | .query _ _ | .test _ _ => none
  | none => none

/-- Orders of other channels. -/
def without (n : ChannelId) (os : List Order) : List Order := os.filter (fun o => decide (o.channel ≠ n))

/-- An order leaves the queue, for sending or for a move within it. -/
def Line.take (x : Line) (n : ChannelId) : Line := { x with urgent := without n x.urgent, routine := without n x.routine }

/-- The work of a retake has gone (R127). -/
def Line.forget (x : Line) (n : ChannelId) : Line :=
  { x with retake := match x.retake with
      | some (.move m) => if m = n then none else x.retake
      | some (.halt m) => if m = n then none else x.retake
      | r => r }

/-- Removal: the channel's order leaves the queue and is discarded, and with it a retake for it (R97, R127). -/
def Line.remove (x : Line) (n : ChannelId) : Line := (x.take n).forget n

/-- Join: the order goes to the tail of its class group (R97). -/
def Line.join (x : Line) (o : Order) : Line :=
  match o.cls with
  | .urgent => { x with urgent := x.urgent ++ [o] }
  | .routine => { x with routine := x.routine ++ [o] }

/-- Re-entry: the order goes to the head of its class group (R97, R103). -/
def Line.reenter (x : Line) (o : Order) : Line :=
  match o.cls with
  | .urgent => { x with urgent := o :: x.urgent }
  | .routine => { x with routine := o :: x.routine }

/-- Change the order of a channel where it stands. -/
def Line.change (x : Line) (n : ChannelId) (f : Order → Order) : Line :=
  let g := fun o : Order => if o.channel = n then f o else o
  { x with urgent := x.urgent.map g, routine := x.routine.map g }

/-- Replace the target of a channel's queued ORDER in place; its class follows the source, and a change of class moves
it to the tail of its new group (R98, R100). -/
def Line.retarget (x : Line) (n : ChannelId) (target : Nat) (cls : OrderClass) : Line :=
  match x.queued n with
  | none => x
  | some o =>
    if o.isHalt then x
    else if o.cls = cls then x.change n (fun o => { o with work := .move target })
    else (x.take n).join { o with work := .move target, cls := cls }

/-- The in-flight ORDER of a channel keeps a new class for its re-entry (R98). -/
def Line.reclassInFlight (x : Line) (n : ChannelId) (cls : OrderClass) : Line :=
  match x.exchange with
  | some e =>
    match e.kind with
    | .order o =>
      if o.channel = n ∧ o.isHalt = false then
        { x with exchange := some { e with kind := .order { o with cls := cls } } }
      else x
    | .query _ _ | .test _ _ => x
  | none => x

/-- The channel's order on its line's queue. -/
def Part.queuedOf (p : Part) (n : ChannelId) : Option Order := (p.line (p.lineOf n)).queued n

/-- The channel's order is removed from its queue (R15, R97). -/
def Part.removeOrder (p : Part) (n : ChannelId) : Part := p.modLine (p.lineOf n) (fun x => x.remove n)

/-- A new ORDER or HALT with the retry limit in force (R95). -/
def Part.newOrder (p : Part) (n : ChannelId) (w : Work) (cls : OrderClass) : Order where
  work := w
  channel := n
  cls := cls
  retriesLeft := p.globals.retryLimit
  retriesAtQueueing := p.globals.retryLimit
  sent := false
  backoff := none

/-- A new ORDER for a target joins the tail of its group (R99, R101). -/
def Part.joinOrder (p : Part) (n : ChannelId) (target : Nat) : Part :=
  p.modLine (p.lineOf n) (fun x => x.join (p.newOrder n (.move target) (classOf (p.chan n).governing)))

/-! ## IDLE and grant notices (R99 to R101) -/

/-- R99: an IDLE channel not within tolerance of its granted target gets an ORDER and becomes QUEUED. -/
def Part.testIdle (p : Part) (n : ChannelId) : Part :=
  let c := p.chan n
  if c.motion = .idle ∧ withinTolerance c c.granted = false then
    match c.granted with
    | some t => (p.joinOrder n t).setMotion n .queued
    | none => p
  else p

/-- R101: supersession of a channel in ORDERING or MOVING. -/
def Part.supersede (p : Part) (n : ChannelId) (target : Nat) : Part :=
  let l := p.lineOf n
  let cls := classOf (p.chan n).governing
  let p1 := p.modLine l (fun x => x.reclassInFlight n cls)
  let current : Option Nat := match (p.line l).inFlight n with
    | some o => match o.work with | .move t => some t | .halt _ => none
    | none => (p.chan n).accepted
  if current = some target then p1.removeOrder n
  else if ((p1.line l).queued n).isSome then p1.modLine l (fun x => x.retarget n target cls)
  else p1.joinOrder n target

/-- R100: a grant notice, by the channel's motion state; the record already holds the new target and source. -/
def Part.notice (p : Part) (n : ChannelId) : Part :=
  let c := p.chan n
  match c.motion, c.granted with
  | .idle, _ => p.testIdle n
  | .queued, some t =>
    if withinTolerance c (some t) then
      ((p.removeOrder n).modChan n (fun c => { c with travel := none, shortMark := false })).setMotion n .idle
    else p.modLine c.cfg.line (fun x => x.retarget n t (classOf c.governing))
  | .ordering, some t => p.supersede n t
  | .moving, some t => p.supersede n t
  | _, _ => p

/-! ## Entering FAULTED and OFFLINE (R15, R106, R112) -/

/-- A channel's order or superseding order is removed, its accepted target becomes absent, its travel timer stops and
its short-travel mark is cleared. -/
def Part.dropWork (p : Part) (n : ChannelId) : Part :=
  (p.removeOrder n).modChan n (fun c => { c with accepted := none, travel := none, shortMark := false })

/-- Entry into FAULTED with a fault code; CHANNEL_FAULTED is recorded (R12, R116). -/
def Part.enterFaulted (p : Part) (n : ChannelId) (f : FaultCode) : Part :=
  ((p.modChan n (fun c => { c with fault := some f })).setMotion n .faulted).recordFaulted n f

/-- A channel with work loses it and faults. -/
def Part.faultChannel (p : Part) (n : ChannelId) (f : FaultCode) : Part := (p.dropWork n).enterFaulted n f

/-- Position UNKNOWN and node report absent (R9, R11). -/
def Part.forgetPosition (p : Part) (n : ChannelId) : Part :=
  p.modChan n (fun c => { c with position := none, report := none })

/-- Entry into OFFLINE with the loss of all work; CHANNEL_OFFLINE is recorded (R20, R112). -/
def Part.goOffline (p : Part) (n : ChannelId) : Part :=
  (((p.dropWork n).forgetPosition n).setMotion n .offline).recordOffline n

/-- R18: a channel leaves FAULTED by FAULT_CLEAR or by a latch setting. -/
def Part.leaveFaulted (p : Part) (n : ChannelId) : Part :=
  let p1 := p.modChan n (fun c => { c with lastFault := c.fault, fault := none, miss := 0, shortMark := false })
  match (p.line (p.lineOf n)).state with
  | .disabled | .failed => ((p1.forgetPosition n).setMotion n .offline).recordOffline n
  | .run | .quieting | .quiet | .test => (p1.setMotion n .idle).testIdle n

/-! ## Attempts that end without success (R103, R105, R107, R112, R114) -/

/-- R103: an attempt of an order has ended without success; the order and the channel are settled. -/
def Part.settleAttempt (p : Part) (l : LineId) (o : Order) : Part :=
  let n := o.channel
  match o.work with
  | .halt _ => p.modLine l (fun x => x.reenter { o with cls := .urgent })
  | .move _ =>
    let newer := ((p.line l).queued n).isSome
    let p1 := if newer then p else p.modLine l (fun x => x.reenter o)
    if (p.chan n).accepted.isSome then p1.setMotion n .moving
    else
      let p2 := if newer || !o.sent then p1.stopTravel n else p1
      p2.setMotion n .queued

/-- The three failures of a transaction (R123). -/
inductive Failure where
  | replyTimeout | checkError | unexpectedFrame
deriving DecidableEq, Repr

/-- The kind of the notice a failure records (R123). -/
def failureKind : Failure → ErrorKind
  | .replyTimeout => .replyTimeout
  | .checkError => .checkError
  | .unexpectedFrame => .unexpectedFrame

/-- R107, R114: a failed attempt of an ORDER or a HALT. -/
def Part.orderFailed (p : Part) (l : LineId) (o : Order) (f : Failure) : Part :=
  let n := o.channel
  match o.work with
  | .move _ =>
    if ((p.line l).queued n).isSome then p.settleAttempt l o
    else if o.retriesLeft ≤ 1 then
      p.faultChannel n (match f with
        | .checkError => .checkError o.retriesAtQueueing
        | .replyTimeout | .unexpectedFrame => .noResponse o.retriesAtQueueing)
    else p.settleAttempt l { o with retriesLeft := o.retriesLeft - 1 }
  | .halt _ =>
    if o.retriesLeft ≤ 1 then p.enterFaulted n (.haltUnconfirmed o.retriesAtQueueing)
    else p.settleAttempt l { o with retriesLeft := o.retriesLeft - 1 }

/-- R112: a failed QUERY. -/
def Part.queryMissed (p : Part) (n : ChannelId) : Part :=
  let c := p.chan n
  match c.motion with
  | .halting | .unused | .ordering => p
  | .offline => p.modChan n (fun c => { c with miss := saturate missCeiling (c.miss + 1) })
  | .faulted =>
    let p1 := p.modChan n (fun c => { c with miss := saturate missCeiling (c.miss + 1) })
    if c.miss + 1 = missCeiling then p1.forgetPosition n else p1
  | .idle | .queued | .moving =>
    let p1 := p.modChan n (fun c => { c with miss := saturate missCeiling (c.miss + 1) })
    if missCeiling ≤ c.miss + 1 then p1.goOffline n else p1

/-! ## Replies (R104 to R111, R114) -/

/-- The query miss count becomes 0. -/
def Part.clearMiss (p : Part) (n : ChannelId) : Part := p.modChan n (fun c => { c with miss := 0 })

/-- R104, R114: ACCEPT to an in-flight order. -/
def Part.orderAccepted (p : Part) (o : Order) : Part :=
  let p1 := p.clearMiss o.channel
  match o.work with
  | .move t => (p1.modChan o.channel (fun c => { c with accepted := some t })).setMotion o.channel .moving
  | .halt v => p1.enterFaulted o.channel (.travelTimeout v)

/-- R105, R114: BUSY to an in-flight order; a re-entering order carries a backoff. -/
def Part.orderBusy (p : Part) (l : LineId) (o : Order) : Part :=
  (p.clearMiss o.channel).settleAttempt l { o with backoff := some p.now }

/-- R106, R114: REFUSE to an in-flight order. -/
def Part.orderRefused (p : Part) (o : Order) (reason : Byte) : Part :=
  let p1 := p.clearMiss o.channel
  match o.work with
  | .move _ => p1.faultChannel o.channel (.refused reason)
  | .halt _ => p1.enterFaulted o.channel (.haltUnconfirmed o.retriesAtQueueing)

/-- R108, steps 1 to 3: position, node report, query miss count. -/
def Part.takeStatus (p : Part) (n : ChannelId) (position : Word) (m : NodeMotion) (motion : Byte) : Part :=
  p.modChan n (fun c =>
    { c with position := positionOfWord position, report := some (nodeReportOfByte m motion), miss := 0 })

/-- R114: STATUS in answer to a HALT. -/
def Part.haltStatus (p : Part) (o : Order) (expiry : Nat) (position : Word) (m : NodeMotion) (motion : Byte) : Part :=
  (p.takeStatus o.channel position m motion).enterFaulted o.channel (.travelTimeout expiry)

/-- R109: completion of the accepted order. -/
def Part.complete (p : Part) (n : ChannelId) : Part :=
  let p1 := p.modChan n (fun c => { c with accepted := none, travel := none, shortMark := false })
  let p2 := if (p1.chan n).notify then p1.joinNotices n else p1
  match p2.queuedOf n with
  | none => (p2.setMotion n .idle).testIdle n
  | some o =>
    match o.work with
    | .move t =>
      if withinTolerance (p2.chan n) (some t) then ((p2.removeOrder n).setMotion n .idle).testIdle n
      else p2.setMotion n .queued
    | .halt _ => p2.setMotion n .queued

/-- R110: short travel of the accepted order for `target`. -/
def Part.shortTravel (p : Part) (n : ChannelId) (target : Nat) : Part :=
  let c := p.chan n
  if (p.queuedOf n).isSome then
    (p.modChan n (fun c => { c with accepted := none, travel := none, shortMark := false })).setMotion n .queued
  else if c.shortMark then p.faultChannel n (.shortTravel c.position)
  else
    let o : Order := { p.newOrder n (.move target) (classOf c.governing) with sent := true }
    ((p.modChan n (fun c => { c with accepted := none, shortMark := true })).modLine c.cfg.line
      (fun x => x.reenter o)).setMotion n .queued

/-- R108 to R111: STATUS in answer to a QUERY, by the channel's motion state. -/
def Part.queryStatus (p : Part) (n : ChannelId) (position : Word) (m : NodeMotion) (motion faults : Byte) : Part :=
  let p1 := p.takeStatus n position m motion
  let c := p1.chan n
  if faultFlags faults ≠ 0 ∧ c.motion ≠ .faulted ∧ c.motion ≠ .halting then
    p1.faultChannel n (.nodeFault (faultFlags faults))
  else
    match c.motion with
    | .moving =>
      match m, c.accepted with
      | .stopped, some t => if withinTolerance c (some t) then p1.complete n else p1.shortTravel n t
      | _, _ => p1
    | .offline => (p1.setMotion n .idle).testIdle n
    | .idle => p1.testIdle n
    | .queued | .faulted | .halting | .ordering | .unused => p1

/-! ## Lines and exchanges as the Motion Unit meets them (R123, R125) -/

/-- An exchange ends or is abandoned: the line may carry the part's next frame from `free` on, and a station window that
was waiting begins then (R126; after an abandonment too, log 21). -/
def Line.endExchange (x : Line) (free : Nat) : Line :=
  { x with exchange := none, freeAt := free, window := if x.window = .due then .inForce free else x.window }

/-- R125: the exchange in flight is abandoned; no frame for 10 ms from the end of its frame, or from now if it is cut
short. -/
def Part.abandon (p : Part) (l : LineId) : Part :=
  match (p.line l).exchange with
  | some e => p.modLine l (fun x => x.endExchange ((match e.sentAt with | some t => t | none => p.now) + replyTime))
  | none => p

/-- The channel an exchange is for. -/
def ExchangeKind.channel : ExchangeKind → Option ChannelId
  | .order o => some o.channel
  | .query n _ => some n
  | .test _ _ => none

/-- R22, R23: abandon the exchange in flight on a line if it is for the channel. -/
def Part.abandonFor (p : Part) (l : LineId) (n : ChannelId) : Part :=
  match (p.line l).exchange with
  | some e => if e.kind.channel = some n then p.abandon l else p
  | none => p

/-! ## Travel expiry (R113) -/

/-- R113: the travel timer has expired with `elapsed` seconds. -/
def Part.expireTravel (p : Part) (n : ChannelId) (elapsed : Nat) : Part :=
  match (p.chan n).motion with
  | .queued => p.faultChannel n (.travelTimeout elapsed)
  | .ordering => (p.abandonFor (p.lineOf n) n).faultChannel n (.travelTimeout elapsed)
  | .moving =>
    let p1 := ((p.removeOrder n).modChan n (fun c => { c with accepted := none, travel := none })).setMotion n .halting
    p1.modLine (p1.lineOf n) (fun x => x.reenter (p1.newOrder n (.halt elapsed) .urgent))
  | .unused | .offline | .idle | .halting | .faulted => p

end Sys2Proof.Machine
end

