-- ==== Sys2Proof/Machine/Arbiter.lean ====
section
/-! DEFINITION. The Source Arbiter: governing order, recomputation and HOLD freezes (R25 to R44). -/

namespace Sys2Proof.Machine

/-- R29: a channel is windward in smoke wind, with a settled sector that is one of its facing sectors. -/
def windward (w : Weather) (c : ChannelConfig) : Bool :=
  w.smokeWind && (match w.settled with | some k => c.facing.getLsbD k.val | none => false)

/-- R28: the granted target under SMOKE. A HOLD channel has its freeze while its zone's latch is set; without one, which
no event leaves behind (log 27), the target held stays. -/
def smokeTarget (w : Weather) (c : Channel) : Nat :=
  match c.cfg.smokeAction with
  | .opens => if windward w c.cfg then 0 else fullOpen
  | .closes => 0
  | .holds => c.freeze.getD (c.granted.getD 0)

/-- R32: the granted target under COMFORT. -/
def comfortTarget (c : Channel) : Nat :=
  match c.cfg.cls with
  | .vent => 0
  | .unused | .dual | .window => min c.requested.toNat c.cfg.comfortLimit

/-- Entry 2 of R26: the override that reaches a channel of this class. -/
def reachingOverride (z : Zone) (c : Channel) : Option OverrideValue :=
  match c.cfg.cls with
  | .vent | .dual => z.override.map (fun o => o.value)
  | .unused | .window => none

/-- R27: the granted target under MANUAL. -/
def manualTarget : OverrideValue → Nat
  | .opens => fullOpen
  | .closes => 0

/-- Entry 4 of R26. -/
def weatherApplies (w : Weather) (c : ChannelConfig) : Bool := (w.rain && c.rainClose) || (w.storm && c.stormClose)

/-- R26: the first entry of the governing order that applies. -/
def governs (w : Weather) (z : Zone) (c : Channel) : Source × Option Nat :=
  if c.cfg.cls = .unused then (.none, none)
  else
    match reachingOverride z c with
    | some v => (.manual, some (manualTarget v))
    | none =>
      if z.latch then (.smoke, some (smokeTarget w c))
      else if weatherApplies w c.cfg then (.weather, some 0)
      else (.comfort, some (comfortTarget c))

/-- The result of the governing order for a channel of the part. -/
def Part.governs (p : Part) (n : ChannelId) : Source × Option Nat :=
  Machine.governs p.weather (p.zone (p.chan n).cfg.zone) (p.chan n)

/-- R33: a recomputation. If either field differs, both are written, both their words are marked dirty, and the Motion
Unit takes a grant notice. -/
def Part.recompute (p : Part) (n : ChannelId) : Part :=
  let r := p.governs n
  if (p.chan n).governing = r.1 ∧ (p.chan n).granted = r.2 then p
  else
    (Part.mark (p.modChan n (fun c => { c with governing := r.1, granted := r.2 })) (.channel n)
      (wordBit true 2 ||| wordBit true 3)).notice n

/-- The channels of a zone, in ascending order (R36). -/
def Part.channelsOf (p : Part) (z : ZoneId) : List ChannelId :=
  allChannels.filter (fun n => decide ((p.chan n).cfg.zone = z))

/-- R40: the recomputations of one input change, in ascending channel order. -/
def Part.recomputeZone (p : Part) (z : ZoneId) : Part := p.forEach (p.channelsOf z) (fun n q => q.recompute n)
def Part.recomputeAll (p : Part) : Part := p.forEach allChannels (fun n q => q.recompute n)

/-- R30: the HOLD channels of the zone freeze their granted targets. -/
def Part.takeFreezes (p : Part) (z : ZoneId) : Part :=
  p.forEach (p.channelsOf z) (fun n q =>
    if (q.chan n).cfg.cls ≠ .unused ∧ (q.chan n).cfg.smokeAction = .holds then
      q.modChan n (fun c => { c with freeze := c.granted })
    else q)

/-- R31: the HOLD freezes of the zone are dropped. -/
def Part.dropFreezes (p : Part) (z : ZoneId) : Part :=
  p.forEach (p.channelsOf z) (fun n q => q.modChan n (fun c => { c with freeze := none }))

end Sys2Proof.Machine
end

