-- ==== Sys2Proof/Machine/Frames.lean ====
section
/-! DEFINITION. The frames of a field line: kinds, byte layouts and the CRC (R118 to R120, R198). -/

namespace Sys2Proof.Machine

/-- One bit of the CRC register: x^8 + x^2 + x + 1 (R119). -/
def crcShift (r : Byte) : Byte := if r.getLsbD 7 then (r <<< 1) ^^^ 0x07 else r <<< 1

/-- A byte into the CRC register, most significant bit first (R119). -/
def crcByte (r b : Byte) : Byte :=
  crcShift (crcShift (crcShift (crcShift (crcShift (crcShift (crcShift (crcShift (r ^^^ b))))))))

/-- CRC-8 over the bytes of a frame before its last, the register starting at 0 (R119). -/
def crc8 (bytes : List Byte) : Byte := bytes.foldl crcByte 0

/-- A frame by its items (R118). -/
inductive Frame where
  | key (station : BitVec 4) (zones command : Byte)
  | order (node : BitVec 4) (target : Word)
  | query (node : BitVec 4)
  | halt (node : BitVec 4)
  | test (addr : BitVec 4) (bytes : Pattern)
  | status (addr : BitVec 4) (position : Word) (motion faults : Byte)
  | accept (addr : BitVec 4)
  | busy (addr : BitVec 4)
  | refuse (addr : BitVec 4) (reason : Byte)
deriving DecidableEq, Repr

/-- Kind code of a frame (R118). -/
def Frame.kindCode : Frame → BitVec 4
  | .key .. => 1
  | .order .. => 4
  | .query .. => 5
  | .halt .. => 6
  | .test .. => 7
  | .status .. => 9
  | .accept .. => 10
  | .busy .. => 11
  | .refuse .. => 12

/-- The address in a frame's lead byte (R118). -/
def Frame.address : Frame → BitVec 4
  | .key a _ _ | .order a _ | .query a | .halt a | .test a _ | .status a _ _ _ | .accept a | .busy a | .refuse a _ => a

/-- The items after the lead byte, high byte first (R198). -/
def Frame.items : Frame → List Byte
  | .key _ zones command => [zones, command]
  | .order _ target => [upperByte target, lowerByte target]
  | .query _ | .halt _ | .accept _ | .busy _ => []
  | .test _ bytes => bytes.toList
  | .status _ position motion faults => [upperByte position, lowerByte position, motion, faults]
  | .refuse _ reason => [reason]

/-- Lead byte and items (R198). -/
def Frame.body (f : Frame) : List Byte := (f.kindCode ++ f.address : Byte) :: f.items

/-- The frame on the wire: the CRC byte is the last (R119). -/
def Frame.bytes (f : Frame) : List Byte := f.body ++ [crc8 f.body]

/-- A frame read from its lead byte and items: the kind fixes the length (R118, R120). -/
def frameOfBody (kind addr : BitVec 4) (items : List Byte) : Option Frame :=
  match kind.toNat, items with
  | 1, [z, c] => some (.key addr z c)
  | 4, [h, l] => some (.order addr (wordOfBytes h l))
  | 5, [] => some (.query addr)
  | 6, [] => some (.halt addr)
  | 7, [a, b, c, d, e, f, g, h] => some (.test addr #v[a, b, c, d, e, f, g, h])
  | 9, [h, l, m, f] => if (nodeMotionOfByte m).isSome then some (.status addr (wordOfBytes h l) m f) else none
  | 10, [] => some (.accept addr)
  | 11, [] => some (.busy addr)
  | 12, [r] => some (.refuse addr r)
  | _, _ => none

/-- A complete frame as received: none when it is damaged (R120): unused kind code, wrong length, bad CRC, or a STATUS
whose node motion is 3. -/
def parseFrame (bytes : List Byte) : Option Frame :=
  match bytes with
  | [] => none
  | lead :: rest =>
    match rest.getLast? with
    | none => none
    | some crc =>
      if crc = crc8 (lead :: rest.dropLast) then
        frameOfBody (lead.extractLsb' 4 4) (lead.extractLsb' 0 4) rest.dropLast
      else none

/-! ## The receiver (R120) -/

/-- Length of a frame by its kind code, lead and CRC byte included (R118, R198); none for the unused codes. -/
def frameLength (kind : BitVec 4) : Option Nat :=
  match kind.toNat with
  | 1 | 4 => some 4
  | 5 | 6 | 10 | 11 => some 2
  | 7 => some 10
  | 9 => some 6
  | 12 => some 3
  | _ => none

/-- What a reception is found to be: no frame at all, a valid frame, a damaged frame of kind TEST with the pattern bytes
received of it (R145), or another damaged frame. -/
inductive Found where
  | nothing
  | frame (f : Frame)
  | damagedEcho (addr : BitVec 4) (received : List Byte)
  | damaged
deriving DecidableEq, Repr

/-- Whether a frame is a KEY frame. -/
def Frame.isKey : Frame → Bool
  | .key .. => true
  | _ => false

/-- Whether a valid KEY frame was found. -/
def Found.isKey : Found → Bool
  | .frame f => f.isKey
  | .nothing | .damagedEcho _ _ | .damaged => false

/-- Whether a valid frame was found. -/
def Found.isFrame : Found → Bool
  | .frame _ => true
  | .nothing | .damagedEcho _ _ | .damaged => false

/-- What was found, and the receiver after it. -/
structure Finding where
  found : Found
  after : Receiver
deriving DecidableEq, Repr

/-- A damaged frame by its lead byte, with what was received after it: a TEST frame's pattern bytes may still be an echo's
(R145). -/
def damagedBy (lead : Byte) (items : List Byte) : Found :=
  if lead.extractLsb' 4 4 = 7 then .damagedEcho (lead.extractLsb' 0 4) (items.take 8) else .damaged

/-- R120: a frame that reached its length. -/
def readComplete (lead : Byte) (rest : List Byte) : Found :=
  match parseFrame (lead :: rest) with
  | some f => .frame f
  | none => damagedBy lead rest

/-- R120: a receiver that looks for a frame reads the kind from the lead byte and the length from the kind. A lead byte whose own
stop bit read dominant names no kind (log 50). -/
def readReception (h : Reception) : Finding :=
  match h.bytes with
  | [] => ⟨.damaged, match h.ending with | .recessive => .looking | .dominantStop _ => .waiting⟩
  | lead :: rest =>
    match frameLength (lead.extractLsb' 4 4) with
    | none => ⟨.damaged, .discarding⟩
    | some n =>
      if n ≤ rest.length + 1 then ⟨readComplete lead (rest.take (n - 1)), .looking⟩
      else
        match h.ending with
        | .recessive => ⟨damagedBy lead rest, .looking⟩
        | .dominantStop last => ⟨damagedBy lead (rest ++ [last]), .waiting⟩

/-- Whether a reception is a valid KEY frame to a receiver that looks. -/
def isKeyReception (h : Reception) : Bool := (readReception h).found.isKey

/-- A receiver that does not look for a frame hears none (R120). One that waits looks again if the line ends recessive; one that
discards goes on, since a recessive end need not last 1 ms: the next gap says whether it did (log 50). -/
def Receiver.pass (r : Receiver) (h : Reception) : Finding :=
  ⟨.nothing, match r, h.ending with
    | .waiting, .recessive => .looking
    | .waiting, .dominantStop _ => .waiting
    | .discarding, _ => .discarding
    | .looking, _ => .looking⟩

/-- R120: what a reception is to a receiver. One that waits looks again once the line has been recessive, one that discards once
it has been so for 1 ms. -/
def Receiver.hear (r : Receiver) (h : Reception) : Finding :=
  match r, h.gap with
  | .waiting, .none => r.pass h
  | .discarding, .short => r.pass h
  | .discarding, .none => r.pass h
  | .looking, _ => readReception h
  | .waiting, _ => readReception h
  | .discarding, .idle => readReception h

/-- Whether the line showed a recessive level in a reception, its gap included (R117, R136). -/
def sawRecessive (h : Reception) : Bool :=
  decide (h.gap ≠ .none) || !h.bytes.isEmpty ||
    match h.ending with | .recessive => true | .dominantStop last => decide (last ≠ 0)

/-! ## Levels on the line (R117) -/

/-- The two levels of a field line: dominant is 0, recessive is 1 and the idle state (R117). -/
inductive Level where
  | dominant | recessive
deriving DecidableEq, Repr

/-- The level that carries a data bit (R117). -/
def levelOf (bit : Bool) : Level := if bit then .recessive else .dominant

/-- What is read on the line where two parties drive it: dominant overrides recessive (R117). -/
def wiredAnd : Level → Level → Level
  | .recessive, .recessive => .recessive
  | _, _ => .dominant

/-- A byte on the line, ten bits: a dominant start bit, the data bits, most significant first, and a recessive stop bit
(R117). -/
def byteLevels (b : Byte) : List Level :=
  .dominant :: (List.finRange 8).map (fun k => levelOf (b.getLsbD (7 - k.val))) ++ [.recessive]

/-- Bytes on the line, with no idle time between the stop bit of one and the start bit of the next (R117). -/
def levelsOf (bytes : List Byte) : List Level := bytes.flatMap byteLevels

/-- The levels of the part's last frame on a line (LINEA to LINED). -/
def Line.levels (x : Line) : List Level := levelsOf x.wire

/-- The bit at which a sender sees another: the first it sends recessive and reads dominant (R117, R127). -/
def lossBit (sent other : List Level) : Option Nat :=
  (List.zip sent other).findIdx? (fun b => decide (b.1 = .recessive ∧ wiredAnd b.1 b.2 = .dominant))

/-- The frame of the part's answer to a station (R128, R198); 4 is MALFORMED. -/
def answerFrame (a : Answer) : Frame := if a.accepted then .accept a.station else .refuse a.station 4

/-- The frame of a transaction or a test exchange (R118). -/
def exchangeFrame (node : BitVec 4) : ExchangeKind → Frame
  | .order o =>
    match o.work with
    | .move target => .order node (BitVec.ofNat 16 target)
    | .halt _ => .halt node
  | .query _ _ => .query node
  | .test bytes _ => .test node bytes

end Sys2Proof.Machine
end

