-- ==== Sys2Proof/Machine/Lines.lean ====
section
/-! DEFINITION. The Field Line Controllers: line states, the scheduler, exchanges and received frames, station windows
and line tests (R117 to R150). -/

namespace Sys2Proof.Machine

/-! ## Line states (R126, R133 to R138) -/

/-- A line enters a state from another. The window clock starts from 0 in RUN, QUIETING and TEST and stops in the others
(R126); a retake stays in RUN, a HALT or poll in QUIETING (R127); the watch follows R135 to R137. -/
def Line.enter (x : Line) (now : Nat) (s : LineState) : Line :=
  { x with
    state := s
    clock := match s with
      | .run | .quieting | .test => some (now + windowPeriod)
      | .quiet | .disabled | .failed => none
    window := match s with
      | .run | .quieting | .test => x.window
      | .quiet | .disabled | .failed => .none
    retake := match s with
      | .run => x.retake
      | .quieting => match x.retake with | some r => if r.inQuieting then some r else none | none => none
      | .quiet | .test | .disabled | .failed => none
    watch := match s with
      | .disabled => .off
      | .failed => .recovery now
      | .run | .quieting | .quiet | .test =>
        match x.state with
        | .disabled | .failed => .stuck now
        | .run | .quieting | .quiet | .test => x.watch }

def Part.enterLine (p : Part) (l : LineId) (s : LineState) : Part := p.modLine l (fun x => x.enter p.now s)

/-- The channels bound to a line, in ascending order (R5). -/
def Part.boundChannels (p : Part) (l : LineId) : List ChannelId := allChannels.filter (fun n => (p.chan n).boundTo l)

/-- R149: a test in progress ends ABORTED, and TEST_ABORTED is recorded. -/
def Part.abortTest (p : Part) (l : LineId) : Part :=
  if (p.line l).state = .test then
    (p.modTest l (fun t => { t with result := some .aborted })).record (.line l)
      (noticeOf .testAborted (some (.line l)) none)
  else p

/-- R20: what a line leaving service does to a channel bound to it. -/
def Part.outOfService (p : Part) (n : ChannelId) : Part :=
  match (p.chan n).motion with
  | .idle | .queued | .ordering | .moving | .halting => (p.clearMiss n).goOffline n
  | .faulted | .offline | .unused => p

/-- R135, R136: the exchange in flight is abandoned, the retake, the answer, a frame being received and the queue are dropped,
the channels of the line are treated by R20, and a test in progress is aborted. -/
def Part.clearLine (p : Part) (l : LineId) : Part :=
  let p1 := (p.abandon l).modLine l (fun x => { x with retake := none, answer := none, receiving := false, urgent := [], routine := [] })
  (p1.forEach (p1.boundChannels l) (fun n q => q.outOfService n)).abortTest l

/-- R135: entry into DISABLED. From FAILED the state alone changes. -/
def Part.disableLine (p : Part) (l : LineId) : Part :=
  match (p.line l).state with
  | .disabled => p
  | .failed => p.enterLine l .disabled
  | .run | .quieting | .quiet | .test => (p.clearLine l).enterLine l .disabled

/-- R136: the line is stuck and enters FAILED. -/
def Part.failLine (p : Part) (l : LineId) : Part :=
  match (p.line l).state with
  | .disabled | .failed => p
  | .run | .quieting | .quiet | .test =>
    ((p.clearLine l).record (.line l) ⟨.fault, .lineFailed, some (.line l), none⟩).enterLine l .failed

/-- Supervision of a channel falls due at once (R132). -/
def Part.dueAtOnce (p : Part) (n : ChannelId) : Part :=
  if supervised (p.chan n).motion then p.modChan n (fun c => { c with supDue := true }) else p

/-- R137: a line returns to RUN from DISABLED or FAILED and starts afresh. What is left of a wait after an abandonment stays:
R125 gives the wait to a line that stays in service, and that a line which comes back within it keeps it is the model's choice
(log 40). -/
def Part.restartLine (p : Part) (l : LineId) : Part :=
  let p1 := (p.modLine l (fun x => { x with exchange := none, retake := none, pollPos := none, supPos := none })).enterLine l .run
  p1.forEach (p1.boundChannels l) (fun n q => q.dueAtOnce n)

/-- R138: a latch setting returns a line in QUIETING, QUIET or TEST to RUN. From TEST the exchange in flight is abandoned (R125,
R149), and so is one left from an earlier test, which R148 has run to its end: where the two meet the model abandons it (the
model's choice, log 48). -/
def Part.latchLine (p : Part) (l : LineId) : Part :=
  match (p.line l).state with
  | .quieting | .quiet => p.enterLine l .run
  | .test => ((p.abandon l).abortTest l).enterLine l .run
  | .run | .disabled | .failed => p

/-- R134: no channel of the line is MOVING or HALTING and no exchange is in flight. -/
def Part.atRest (p : Part) (l : LineId) : Bool :=
  (p.line l).exchange.isNone &&
    (p.boundChannels l).all (fun n => decide ((p.chan n).motion ≠ .moving ∧ (p.chan n).motion ≠ .halting))

/-- R134: quieting complete, judged at the end of every event. -/
def Part.completeQuieting (p : Part) : Part :=
  (List.finRange 4).foldl (fun q l => if (q.line l).state = .quieting ∧ q.atRest l then q.enterLine l .quiet else q) p

/-! ## The scheduler (R129 to R132) -/

/-- The first channel of a list after a position, wrapping (R131, R132). -/
def firstAfter (pos : Option ChannelId) (ns : List ChannelId) : Option ChannelId :=
  match pos with
  | none => ns.head?
  | some k => match ns.find? (fun n => decide (k.val < n.val)) with | some n => some n | none => ns.head?

/-- The first order of a group, in queue order, that has no backoff (R130). -/
def firstReady (os : List Order) : Option Order := os.find? (fun o => o.backoff.isNone)

/-- The due polls of a line (R131). -/
def Part.duePoll (p : Part) (l : LineId) : Option ChannelId :=
  firstAfter (p.line l).pollPos
    ((p.boundChannels l).filter (fun n => decide ((p.chan n).motion = .moving) && (p.chan n).pollDue))

/-- The due supervision queries of a line (R132). -/
def Part.dueSupervision (p : Part) (l : LineId) : Option ChannelId :=
  firstAfter (p.line l).supPos
    ((p.boundChannels l).filter (fun n => supervised (p.chan n).motion && (p.chan n).supDue))

/-- A transaction the scheduler may choose. -/
inductive Choice where
  | order (o : Order)
  | poll (n : ChannelId)
  | supervise (n : ChannelId)
deriving DecidableEq, Repr

/-- The retake, while the work it was for stands (R127). -/
def Part.retakeChoice (p : Part) (l : LineId) : Option Choice :=
  match (p.line l).retake with
  | some (.move n) => ((p.line l).queued n).map Choice.order
  | some (.halt n) => ((p.line l).queued n).map Choice.order
  | some (.poll n) => if (p.chan n).motion = .moving then some (.poll n) else none
  | some (.supervise n) => if supervised (p.chan n).motion then some (.supervise n) else none
  | none => none

/-- R130: the first choice that exists. -/
def Part.choose (p : Part) (l : LineId) : Option Choice :=
  let x := p.line l
  match x.state with
  | .run =>
    (p.retakeChoice l).or (((firstReady x.urgent).map Choice.order).or (((p.duePoll l).map Choice.poll).or
      (((firstReady x.routine).map Choice.order).or ((p.dueSupervision l).map Choice.supervise))))
  | .quieting =>
    let retake := match x.retake with | some r => if r.inQuieting then p.retakeChoice l else none | none => none
    retake.or (((firstReady (x.urgent.filter (fun o => o.isHalt))).map Choice.order).or ((p.duePoll l).map Choice.poll))
  | .quiet | .test | .disabled | .failed => none

/-- An exchange starts: it is in flight from the first bit of its frame (R122). -/
def Part.startExchange (p : Part) (l : LineId) (node : BitVec 4) (k : ExchangeKind) : Part :=
  p.modLine l (fun x => { x with exchange := some ⟨k, node, none⟩, wire := (exchangeFrame node k).bytes })

/-- The chosen transaction is started at once (R102, R129, R131, R132). -/
def Part.startChoice (p : Part) (l : LineId) (c : Choice) : Part :=
  let p1 := p.modLine l (fun x => { x with retake := none })
  match c with
  | .order o =>
    let p2 := (p1.modLine l (fun x => x.take o.channel)).startExchange l (p.chan o.channel).cfg.node (.order o)
    if o.isHalt then p2 else p2.setMotion o.channel .ordering
  | .poll n =>
    ((p1.modLine l (fun x => { x with pollPos := some n })).modChan n
      (fun c => { c with pollDue := false, pollFrom := none })).startExchange l (p.chan n).cfg.node (.query n true)
  | .supervise n =>
    ((p1.modLine l (fun x => { x with supPos := some n })).modChan n
      (fun c => { c with supDue := false })).startExchange l (p.chan n).cfg.node (.query n false)

/-- The conditions of R129 and R143 that the state holds: no exchange in flight, no answer waiting, no station window due or
in force, and no frame of another sender still on the line. -/
def Line.mayStart (x : Line) : Bool := x.exchange.isNone && x.answer.isNone && decide (x.window = .none) && !x.receiving

/-- TRANSACTION_START (R129, R130): the choice is taken when the line has been free for its gap or wait. -/
def Part.startTransaction (p : Part) (l : LineId) : Part :=
  if (p.line l).mayStart then
    match p.choose l with
    | some c => (p.advanceTo (p.line l).freeAt).startChoice l c
    | none => p
  else p

/-! ## Levels and the watches (R136, R137) -/

/-- The line has shown both levels up to this instant: either measure stands at 0 (R136, R137). -/
def Watch.restart (w : Watch) (now : Nat) : Watch :=
  match w with
  | .off => .off
  | .stuck _ => .stuck now
  | .recovery _ => .recovery now

/-- The line has been dominant up to this instant and has shown no recessive level: the recovery measure alone stands at 0
(R136, R137). -/
def Watch.dominant (w : Watch) (now : Nat) : Watch :=
  match w with
  | .off => .off
  | .stuck since => .stuck since
  | .recovery _ => .recovery now

/-- A frame has been carried to its end: it sets the measure of the watch back (R136, R137), and a receiver that waited for the
line to return recessive looks for a frame again (R120). -/
def Line.carried (x : Line) (now : Nat) : Line :=
  { x with
    watch := x.watch.restart now
    receiver := match x.receiver with
      | .looking | .waiting => .looking
      | .discarding => .discarding }

/-- The controller is sending: the frame of its exchange has begun and is not sent (R120, R122). -/
def Line.sending (x : Line) : Bool := match x.exchange with | some e => e.sentAt.isNone | none => false

/-- The receiver looks at the line: it is not DISABLED (R135), and the controller is not sending (R120, log 20). -/
def Line.listens (x : Line) : Bool := decide (x.state ≠ .disabled) && !x.sending

/-- A frame that the receiver has found has ended: either watch's measure is set back (R136, R137), and the receiver looks for
the next (R120, log 50). -/
def Part.frameSeen (p : Part) (l : LineId) : Part :=
  if (p.line l).listens then p.modLine l (fun x => { x with watch := x.watch.restart p.now, receiver := .looking }) else p

/-! ## The send (R102, R122) -/

/-- R102 at the Motion Unit: the first send of an ORDER starts the travel timer and ends an older accepted order. -/
def Part.firstSend (p : Part) (n : ChannelId) : Part :=
  p.modChan n (fun c => { c with travel := some 0, secondMark := p.now, accepted := none, shortMark := false })

/-- The exchange's frame is sent and the reply window opens. -/
def Exchange.sent (e : Exchange) (now : Nat) : Exchange :=
  { e with sentAt := some now
           kind := match e.kind with | .order o => .order { o with sent := true } | k => k }

/-- A local-echo test frame, sent to its end, is the business of LOCAL_ECHO_CHECK (R144). -/
def Exchange.localEcho (e : Exchange) : Bool :=
  match e.kind with
  | .test _ _ => decide (e.node = 0)
  | .order _ | .query _ _ => false

/-- SEND (R102, R122). -/
def Part.sendFrame (p : Part) (l : LineId) : Part :=
  match (p.line l).exchange with
  | some e =>
    if e.sentAt.isNone ∧ e.localEcho = false then
      let p1 := p.modLine l (fun x => { x.carried p.now with exchange := some (e.sent p.now) })
      match e.kind with
      | .order o => if o.isHalt = false ∧ o.sent = false then p1.firstSend o.channel else p1
      | .query _ _ | .test _ _ => p1
    else p
  | none => p

/-! ## The end of an exchange (R123, R131, R132) -/

/-- The supervision timer restarts at the end of each QUERY exchange to the channel (R132). -/
def Channel.restartSupervision (c : Channel) (now : Nat) : Channel :=
  { c with supFrom := if supervised c.motion then some now else none, supDue := false }

/-- A MOVING channel's poll counts from the end of its last exchange (R131). -/
def Channel.restartPoll (c : Channel) (now : Nat) : Channel :=
  { c with pollFrom := if c.motion = .moving then some now else none, pollDue := false }

/-- The exchange ends; the line is free from `free` on. -/
def Part.endExchange (p : Part) (l : LineId) (free : Nat) : Part :=
  match (p.line l).exchange with
  | some e =>
    let p1 := p.modLine l (fun x => x.endExchange free)
    match e.kind with
    | .query n poll =>
      let p2 := p1.modChan n (fun c => c.restartSupervision p.now)
      if poll then p2.modChan n (fun c => c.restartPoll p.now) else p2
    | .order _ | .test _ _ => p1
  | none => p

/-- R123: a transaction fails; the notice names its channel, and the Motion Unit takes the result. -/
def Part.failExchange (p : Part) (l : LineId) (f : Failure) (free : Nat) : Part :=
  match (p.line l).exchange with
  | some e =>
    match e.kind with
    | .order o =>
      ((p.endExchange l free).record (.line l) (noticeOf (failureKind f) (some (.channel o.channel)) none)).orderFailed l o f
    | .query n _ =>
      ((p.endExchange l free).record (.line l) (noticeOf (failureKind f) (some (.channel n)) none)).queryMissed n
    | .test _ _ => p
  | none => p

/-! ## Line tests (R140 to R149) -/

/-- One step of the pseudo-random sequence: the new bit is the exclusive OR of the bits 6 and 7 places before it (R142). -/
def seqStep (s : BitVec 7) : BitVec 7 := (s <<< 1) ||| (BitVec.ofBool (s.getLsbD 6 != s.getLsbD 5)).setWidth 7

/-- `k` steps of the sequence. -/
def seqAdvance : Nat → BitVec 7 → BitVec 7
  | 0, s => s
  | k + 1, s => seqAdvance k (seqStep s)

/-- The next eight bits, the first in the most significant place. -/
def seqByte (s : BitVec 7) : Byte := s ++ BitVec.ofBool (s.getLsbD 6 != s.getLsbD 5)

/-- The eight bytes of a SEQUENCE frame (R142). -/
def seqBytes (s : BitVec 7) : Pattern := Vector.ofFn (fun i => seqByte (seqAdvance (8 * i.val) s))

/-- The pattern bytes of the record: the first byte of each pair in bits 15 to 8 (R197). -/
def patternBytes (w : Vector Word 4) : Pattern :=
  #v[upperByte w[0], lowerByte w[0], upperByte w[1], lowerByte w[1], upperByte w[2], lowerByte w[2], upperByte w[3],
    lowerByte w[3]]

/-- The bytes of the next test frame (R142): the pattern as it stands, or the next 64 bits of the sequence. A PATTERN frame that
was not counted is sent again with the pattern as it then stands, also where the host has written it meanwhile (R142 and R150
against R143; the model's choice, log 41). -/
def LineTest.nextBytes (t : LineTest) : Pattern :=
  match t.kind with
  | some .sequence => seqBytes t.seq
  | some .pattern => patternBytes t.pattern
  | none => patternBytes t.pattern

/-- The mismatches of a frame, in byte order: a place that came back with another byte, or did not come back, which
counts with 0xFF (R144 to R146). -/
def mismatches : List Byte → List (Option Byte) → List (Byte × Byte)
  | [], _ => []
  | s :: ss, [] => (s, 0xFF) :: mismatches ss []
  | s :: ss, none :: rs => (s, 0xFF) :: mismatches ss rs
  | s :: ss, some r :: rs => if r = s then mismatches ss rs else (s, r) :: mismatches ss rs

/-- R143, R146: a counted frame with its mismatches. -/
def LineTest.countFrame (t : LineTest) (ms : List (Byte × Byte)) : LineTest :=
  { t with
    frames := saturate wordCeiling (t.frames + 1)
    errors := saturate errorCeiling (t.errors + ms.length)
    pair := match ms.getLast? with | some m => some m | none => t.pair
    seq := seqAdvance 64 t.seq }

/-- A test frame is counted, unless it belongs to an earlier test (R141, R143). -/
def Part.countFrame (p : Part) (l : LineId) (bytes : Pattern) (discarded : Bool) (back : List (Option Byte)) : Part :=
  if discarded then p else p.modTest l (fun t => t.countFrame (mismatches bytes.toList back))

/-- The exchange of a test frame ends and is counted. -/
def Part.countTest (p : Part) (l : LineId) (bytes : Pattern) (discarded : Bool) (back : List (Option Byte)) (free : Nat) :
    Part := (p.endExchange l free).countFrame l bytes discarded back

/-- TEST_FRAME_START (R143). -/
def Part.startTestFrame (p : Part) (l : LineId) : Part :=
  let x := p.line l
  match x.test.target with
  | some node =>
    if x.state = .test ∧ x.mayStart then
      (p.advanceTo x.freeAt).startExchange l node (.test x.test.nextBytes false)
    else p
  | none => p

/-- LOCAL_ECHO_CHECK (R144). -/
def Part.checkLocalEcho (p : Part) (l : LineId) (readBack : Pattern) : Part :=
  match (p.line l).exchange with
  | some e =>
    match e.kind with
    | .test bytes discarded =>
      if e.node = 0 ∧ e.sentAt.isNone then
        (p.modLine l (fun x => x.carried p.now)).countTest l bytes discarded (readBack.toList.map some) (p.now + gapTime)
      else p
    | .order _ | .query _ _ => p
  | none => p

/-- MISSING_ECHO (R145): 10 ms from the end of the part's frame with no echo; the line is free at once. -/
def Part.missEcho (p : Part) (l : LineId) : Part :=
  match (p.line l).exchange with
  | some e =>
    match e.kind, e.sentAt with
    | .test bytes discarded, some t =>
      let p1 := p.advanceTo (t + replyTime)
      p1.countTest l bytes discarded [] p1.now
    | _, _ => p
  | none => p

/-! ## Received frames (R120, R123, R124) -/

/-- A frame that is no expected reply: valid, or damaged. -/
inductive Heard where
  | valid
  | damaged
deriving DecidableEq, Repr

def heardFailure : Heard → Failure
  | .valid => .unexpectedFrame
  | .damaged => .checkError

/-- R124: a frame recorded against the line and discarded. -/
def Part.recordHeard (p : Part) (l : LineId) (h : Heard) : Part :=
  p.record (.line l) (noticeOf (failureKind (heardFailure h)) (some (.line l)) none)

/-- A frame of another sender has ended: the line is free 2 ms later (R123, R124), and no earlier than a wait after an
abandonment ends (R125). A station window that has not begun begins then (R126, log 42). -/
def Line.heard (x : Line) (now : Nat) : Line :=
  let free := max x.freeAt (now + gapTime)
  { x with
    freeAt := free
    receiving := false
    window := match x.window with
      | .none => .none
      | .due => .inForce free
      | .inForce since => if now < since then .inForce free else .inForce since }

def Part.lineBusyUntilGap (p : Part) (l : LineId) : Part := p.modLine l (fun x => x.heard p.now)

/-- A frame that is no expected reply, by what is in flight: it ends a transaction as a failure, is a missing echo and a
frame of its own in a test exchange, or is recorded (R123, R124, R145). While the part sends, its receiver looks for no
frame (R120, log 20); a DISABLED line ignores every frame (R135). A KEY frame with a bad CRC that begins in a reply window is
one CHECK_ERROR, with the transaction's channel as R123 has it and not with the line as R87 has it (the model's choice,
log 53). -/
def Part.hearOther (p : Part) (l : LineId) (h : Heard) : Part :=
  let x := p.line l
  if x.state = .disabled then p
  else
    match x.exchange with
    | none => (p.lineBusyUntilGap l).recordHeard l h
    | some e =>
      match e.sentAt with
      | none => p
      | some _ =>
        match e.kind with
        | .order _ => p.failExchange l (heardFailure h) (p.now + gapTime)
        | .query _ _ => p.failExchange l (heardFailure h) (p.now + gapTime)
        | .test bytes discarded => (p.countTest l bytes discarded [] (p.now + gapTime)).recordHeard l h

/-- The transaction in flight that awaits a reply from an address (R122, R123). -/
def Line.awaiting (x : Line) (addr : BitVec 4) : Option ExchangeKind :=
  match x.exchange with
  | some e => if e.sentAt.isSome ∧ e.node = addr then some e.kind else none
  | none => none

/-- STATUS (R108, R123, R124, R198). -/
def Part.hearStatus (p : Part) (l : LineId) (addr : BitVec 4) (position : Word) (motion faults : Byte) : Part :=
  match nodeMotionOfByte motion with
  | none => p.hearOther l .damaged
  | some m =>
    match (p.line l).awaiting addr with
    | some (.query n _) => (p.endExchange l (p.now + gapTime)).queryStatus n position m motion faults
    | some (.order o) =>
      match o.work with
      | .halt v => (p.endExchange l (p.now + gapTime)).haltStatus o v position m motion
      | .move _ => p.hearOther l .valid
    | some (.test _ _) => p.hearOther l .valid
    | none => p.hearOther l .valid

/-- ACCEPT (R104, R114, R123, R124). -/
def Part.hearAccept (p : Part) (l : LineId) (addr : BitVec 4) : Part :=
  match (p.line l).awaiting addr with
  | some (.order o) => (p.endExchange l (p.now + gapTime)).orderAccepted o
  | _ => p.hearOther l .valid

/-- BUSY (R105, R114, R123, R124). -/
def Part.hearBusy (p : Part) (l : LineId) (addr : BitVec 4) : Part :=
  match (p.line l).awaiting addr with
  | some (.order o) => (p.endExchange l (p.now + gapTime)).orderBusy l o
  | _ => p.hearOther l .valid

/-- REFUSE (R106, R114, R123, R124). -/
def Part.hearRefuse (p : Part) (l : LineId) (addr : BitVec 4) (reason : Byte) : Part :=
  match (p.line l).awaiting addr with
  | some (.order o) => (p.endExchange l (p.now + gapTime)).orderRefused o reason
  | _ => p.hearOther l .valid

/-- TEST_ECHO (R145): from the addressed node in a test exchange, the echo; otherwise a frame like any other, valid when
it is complete with a good CRC. -/
def Part.hearEcho (p : Part) (l : LineId) (addr : BitVec 4) (received : List Byte) (crcGood : Bool) : Part :=
  match (p.line l).awaiting addr with
  | some (.test bytes discarded) => p.countTest l bytes discarded (received.map some) (p.now + gapTime)
  | _ => p.hearOther l (if received.length = 8 ∧ crcGood then .valid else .damaged)

/-- REPLY_TIMEOUT (R123): 10 ms from the end of the part's frame with no start bit; the line is free at once. -/
def Part.timeOut (p : Part) (l : LineId) : Part :=
  match (p.line l).exchange with
  | some e =>
    match e.kind, e.sentAt with
    | .order _, some t => let p1 := p.advanceTo (t + replyTime); p1.failExchange l .replyTimeout p1.now
    | .query _ _, some t => let p1 := p.advanceTo (t + replyTime); p1.failExchange l .replyTimeout p1.now
    | _, _ => p
  | none => p

/-! ## Arbitration loss (R103, R127, R143) -/

/-- The transaction that lost arbitration is to be taken again next, if its work stands and the line's state takes it. -/
def Part.setRetake (p : Part) (l : LineId) (r : Retake) : Part :=
  match (p.line l).state with
  | .run => p.modLine l (fun x => { x with retake := some r })
  | .quieting => if r.inQuieting then p.modLine l (fun x => { x with retake := some r }) else p
  | .quiet | .test | .disabled | .failed => p

/-- The receiver takes up the rest of the other sender's frame from the bits already on the line (R120, R127). -/
def Line.yield (x : Line) : Line := { x with receiving := true, receiver := .looking }

/-- The controller stops sending and receives the rest of the other sender's frame: nothing is in flight, and the line, and a
station window that is due, wait for the end of that frame (R126, R127). -/
def Line.lose (x : Line) (now : Nat) : Line := { x.yield with exchange := none, freeAt := now + gapTime }

/-- A lost ORDER or HALT is settled by R103 and, if it re-entered its queue, becomes the retake. -/
def Part.loseOrder (p : Part) (l : LineId) (o : Order) : Part :=
  let newer := ((p.line l).queued o.channel).isSome
  let p1 := (p.modLine l (fun x => x.lose p.now)).settleAttempt l o
  if o.isHalt then p1.setRetake l (.halt o.channel)
  else if newer then p1
  else p1.setRetake l (.move o.channel)

/-- A lost QUERY is taken again while its channel is still MOVING, or still supervised. A lost poll does not restart the
200 ms (R131). -/
def Part.loseQuery (p : Part) (l : LineId) (n : ChannelId) (poll : Bool) : Part :=
  let p1 := (p.modLine l (fun x => x.lose p.now)).modChan n (fun c => c.restartSupervision p.now)
  if poll then (if (p.chan n).motion = .moving then p1.setRetake l (.poll n) else p1)
  else if supervised (p.chan n).motion then p1.setRetake l (.supervise n)
  else p1

/-- What came back of a test frame that lost arbitration after its lead byte: the bytes read back before the loss, and
nothing from the byte of the loss on (R143). -/
def backBeforeLoss (readBack : Pattern) : LossPlace → List (Option Byte)
  | .lead => []
  | .pattern i => (readBack.toList.take i.val).map some
  | .crc => readBack.toList.map some

/-- A test frame loses arbitration: not counted in the lead byte, counted after it (R143). -/
def Part.loseTest (p : Part) (l : LineId) (bytes : Pattern) (discarded : Bool) (place : LossPlace) (readBack : Pattern) :
    Part :=
  let p1 := p.modLine l (fun x => x.lose p.now)
  match place with
  | .lead => p1
  | .pattern _ => p1.countFrame l bytes discarded (backBeforeLoss readBack place)
  | .crc => p1.countFrame l bytes discarded (backBeforeLoss readBack place)

/-- The record of an arbitration loss (R127). -/
def lostRecord (subject : Subject) : ErrorRecord := noticeOf .arbitrationLost (some subject) none

/-- ARBITRATION_LOSS (R127): the frame being sent is the exchange's, or else the answer to a station. -/
def Part.loseArbitration (p : Part) (l : LineId) (place : LossPlace) (readBack : Pattern) : Part :=
  match (p.line l).exchange with
  | some e =>
    match e.sentAt with
    | some _ => p
    | none =>
      match e.kind with
      | .order o => (p.record (.line l) (lostRecord (.channel o.channel))).loseOrder l o
      | .query n poll => (p.record (.line l) (lostRecord (.channel n))).loseQuery l n poll
      | .test bytes discarded => (p.record (.line l) (lostRecord (.line l))).loseTest l bytes discarded place readBack
  | none =>
    if (p.line l).answer.isSome then
      (p.record (.line l) (lostRecord (.line l))).modLine l (fun x => { x.yield with answer := none })
    else p

/-! ## Timed events of a line and of its channels -/

/-- STATION_ANSWER (R128): 2 ms after the KEY frame, or, where that frame fell in the wait after an abandonment, when the wait
has run (R125 against R128; the model's choice, log 39); the line is free 2 ms after the answer. -/
def Part.sendAnswer (p : Part) (l : LineId) : Part :=
  match (p.line l).answer with
  | some a =>
    let p1 := p.advanceTo (p.line l).freeAt
    p1.modLine l (fun x =>
      { x.carried p1.now with answer := none, freeAt := p1.now + gapTime, wire := (answerFrame a).bytes })
  | none => p

/-- BACKOFF_END (R105). -/
def Part.endBackoff (p : Part) (n : ChannelId) : Part :=
  match (p.queuedOf n).bind (fun o => o.backoff) with
  | some t =>
    (p.advanceTo (t + backoffTime)).modLine (p.lineOf n) (fun x => x.change n (fun o => { o with backoff := none }))
  | none => p

/-- A whole second of the travel timer: travel elapsed rises by 1, and at the travel limit the timer expires (R13, R113). -/
def Part.travelStep (p : Part) (n : ChannelId) (elapsed : Nat) : Part :=
  let p1 := p.advanceTo ((p.chan n).secondMark + second)
  let p2 := p1.modChan n (fun c => { c with travel := some (elapsed + 1), secondMark := p1.now })
  if (p.chan n).cfg.travelLimit ≤ elapsed + 1 then p2.expireTravel n (elapsed + 1) else p2

/-- TRAVEL_SECOND (R13). -/
def Part.travelSecond (p : Part) (n : ChannelId) : Part :=
  match (p.chan n).travel with
  | some e => p.travelStep n e
  | none => p

/-- TRAVEL_EXPIRY (R113): the second that brings travel elapsed to the limit. -/
def Part.travelExpiry (p : Part) (n : ChannelId) : Part :=
  match (p.chan n).travel with
  | some e => if (p.chan n).cfg.travelLimit ≤ e + 1 then p.travelStep n e else p
  | none => p

/-- POLL_DUE (R131). -/
def Part.pollFallsDue (p : Part) (n : ChannelId) : Part :=
  match (p.chan n).motion, (p.chan n).pollFrom with
  | .moving, some t => (p.advanceTo (t + pollTime)).modChan n (fun c => { c with pollDue := true })
  | _, _ => p

/-- SUPERVISION_DUE (R132). -/
def Part.supervisionFallsDue (p : Part) (n : ChannelId) : Part :=
  match (p.chan n).supFrom with
  | some t =>
    if supervised (p.chan n).motion then
      (p.advanceTo (t + p.globals.supervisionInterval * second)).modChan n (fun c => { c with supDue := true })
    else p
  | none => p

/-- STATION_WINDOW_DUE (R126): the window begins at once, or when the line is next free. A window that has not begun
does not fall due twice. -/
def Part.windowFallsDue (p : Part) (l : LineId) : Part :=
  match (p.line l).clock with
  | some t =>
    let p1 := p.advanceTo t
    p1.modLine l (fun x =>
      { x with
        clock := some (t + windowPeriod)
        window := match x.window with
          | .none => if x.exchange.isSome then .due else .inForce p1.now
          | .due => .due
          | .inForce s => .inForce s })
  | none => p

/-- STATION_WINDOW_END (R126). -/
def Part.endWindow (p : Part) (l : LineId) : Part :=
  match (p.line l).window with
  | .inForce t => (p.advanceTo (t + windowLength)).modLine l (fun x => { x with window := .none })
  | .none | .due => p

/-- LINE_STUCK (R136): dominant for 100 ms from the first dominant bit, which is no earlier than the last recessive level the
line has shown (log 22). -/
def Part.lineStuck (p : Part) (l : LineId) (dominantFrom : Nat) : Part :=
  match (p.line l).watch with
  | .stuck t => (p.advanceTo (max t dominantFrom + stuckTime)).failLine l
  | .off | .recovery _ => p

/-- LINE_RECOVERY (R137): recessive for 1 s without a break, from no earlier than the last dominant level the line has shown
(log 22). The receiver, if it waited for recessive, looks for a frame again (R120). -/
def Part.lineRecovery (p : Part) (l : LineId) (recessiveFrom : Nat) : Part :=
  match (p.line l).watch with
  | .recovery t =>
    if (p.line l).state = .failed then
      ((p.advanceTo (max t recessiveFrom + recoveryTime)).modLine l (fun x => { x with receiver := .looking })).restartLine l
    else p
  | .off | .stuck _ => p

end Sys2Proof.Machine
end

