-- ==== Sys2Proof/Machine/Zones.lean ====
section
/-! DEFINITION. The Zone Unit: fire loops, latches, completeness, deadlines, indicators, releases, and the manual
override with the KEY frames that set it (R45 to R68, R84 to R94). -/

namespace Sys2Proof.Machine

/-- The zones, in ascending order. -/
def allZones : List ZoneId := List.finRange 6

/-! ## Loops (R47 to R51) -/

/-- R48: a loop's state is its alarm condition. -/
def alarmCondition (cfg : LoopConfig) (s : LoopState) : Bool :=
  match s with
  | .alarm => true
  | .openCircuit | .shortCircuit => cfg.faultAsAlarm
  | .normal => false

def FireLoop.inAlarm (g : FireLoop) : Bool := alarmCondition g.cfg g.state

/-- The subject of a loop's error (R47). -/
def loopSubject : LoopId → Subject
  | .zone z => .zone z
  | .ga => .ga

/-- R47, R49, R50: a loop takes a new state; an entry into the alarm condition starts the timer of its mode, an exit
stops it. -/
def FireLoop.change (g : FireLoop) (s : LoopState) (now : Nat) : FireLoop :=
  let was := g.inAlarm
  let is := alarmCondition g.cfg s
  { g with
    state := s
    timer := if is then (if was then g.timer else some (g.cfg.mode, now)) else none }

/-- R47: the error of a loop fault entered. -/
def loopFaultKind : LoopState → Option ErrorKind
  | .openCircuit => some .loopOpen
  | .shortCircuit => some .loopShort
  | .normal | .alarm => none

/-- LOOP_CHANGE (R47). A report of the state the loop is in is no change. -/
def Part.changeLoop (p : Part) (loop : LoopId) (s : LoopState) : Part :=
  if (p.loop loop).state = s then p
  else
    let p1 := p.setLoop loop ((p.loop loop).change s p.now)
    match loopFaultKind s with
    | some k => p1.record .input ⟨.fault, k, some (loopSubject loop), none⟩
    | none => p1

/-! ## The latch setting (R53 to R57) -/

/-- Whether any zone's latch is set (R53). -/
def Part.anyLatch (p : Part) : Bool := allZones.any (fun z => (p.zone z).latch)

/-- R53, R57: the latch is set and the deadline starts. -/
def Zone.setLatch (x : Zone) (now : Nat) : Zone :=
  { x with latch := true, deadline := .running, remaining := some x.smokeDeadline, overrun := 0, overrunRunning := false,
           secondMark := now }

/-- R55: the fresh attempt of the zone's FAULTED channels with smoke action OPEN or CLOSE. -/
def Part.freshAttempts (p : Part) (z : ZoneId) : Part :=
  p.forEach (p.channelsOf z) (fun n q =>
    if (q.chan n).motion = .faulted ∧ (q.chan n).cfg.smokeAction ≠ .holds then q.leaveFaulted n else q)

/-- R56: the lines return to RUN. -/
def Part.latchLines (p : Part) : Part := (List.finRange 4).foldl (fun q l => q.latchLine l) p

/-- A latch setting (R53 to R57): the deadline, the freezes, the recomputation, the fresh attempts, the lines. -/
def Part.setLatch (p : Part) (z : ZoneId) : Part :=
  let p1 := p.modZone z (fun x => x.setLatch p.now)
  (((p1.takeFreezes z).recomputeZone z).freshAttempts z).latchLines

/-- A qualification for one zone: a latch setting if the latch is clear (R53). -/
def Part.latchIfClear (p : Part) (z : ZoneId) : Part := if (p.zone z).latch then p else p.setLatch z

/-- A loop has qualified: its zone's latch, or for GA every clear latch in ascending zone order (R52, R53). -/
def Part.qualify (p : Part) (loop : LoopId) : Part :=
  match loop with
  | .zone z => p.latchIfClear z
  | .ga => allZones.foldl (fun q z => q.latchIfClear z) p

/-- Length of a qualification (R49, R50). -/
def qualifyTime : FireMode → Nat
  | .level => levelTime
  | .pulse => pulseTime

/-- LEVEL_TIMER_EXPIRY and PULSE_TIMER_EXPIRY: the running timer of a mode reaches its length with the alarm condition
present (R49, R50). -/
def Part.loopTimerExpiry (p : Part) (loop : LoopId) (m : FireMode) : Part :=
  match (p.loop loop).timer with
  | some (mode, t) =>
    if mode = m ∧ (p.loop loop).inAlarm then
      let p1 := p.advanceTo (t + qualifyTime m)
      (p1.setLoop loop { p1.loop loop with timer := none }).qualify loop
    else p
  | none => p

/-! ## Completeness, deadline, indicator (R58 to R64) -/

/-- R58: a channel counts toward its zone's completeness. -/
def counts (z : ZoneId) (c : Channel) : Bool :=
  decide (c.cfg.zone = z ∧ c.cfg.cls ≠ .unused ∧ c.governing = .smoke ∧ c.cfg.smokeAction ≠ .holds)

/-- R58: a counting channel has arrived. -/
def arrived (c : Channel) : Bool := decide (c.motion = .idle) && withinTolerance c c.granted

/-- R58: the zone is complete. With the latch clear no channel is governed by SMOKE, and the field is yes (R59). -/
def Part.zoneComplete (p : Part) (z : ZoneId) : Bool :=
  !(p.zone z).latch || allChannels.all (fun n => !counts z (p.chan n) || arrived (p.chan n))

/-- R59, R60, R62, R64: the result of a judgement reaches the complete field, the deadline and the indicator. -/
def Zone.judge (x : Zone) (complete : Bool) : Zone :=
  { x with
    complete := complete
    indicator := x.latch && complete
    deadline := if x.deadline = .running ∧ complete then .met else x.deadline
    remaining := if x.deadline = .running ∧ complete then none else x.remaining
    overrunRunning := if x.deadline = .missed ∧ complete then false else x.overrunRunning }

/-- COMPLETENESS_JUDGEMENT (R59). -/
def Part.judgeZone (p : Part) (z : ZoneId) : Part := p.modZone z (fun x => x.judge (p.zoneComplete z))

/-- R61: the deadline expires with the zone incomplete. -/
def Part.missDeadline (p : Part) (z : ZoneId) : Part :=
  (p.modZone z (fun x =>
    { x with deadline := .missed, remaining := none, overrunRunning := true, secondMark := p.now })).record .zone
      ⟨.safety, .deadlineMissed, some (.zone z), none⟩

/-- The whole second that brings deadline remaining to 0 (R61). If the zone is complete the completion was taken first
and no expiry happens; the judgement that follows makes the deadline MET (log 13). Where that judgement finds the zone incomplete
again, on which R61 is silent, the deadline stays RUNNING with 1 remaining, and the next report of its last second decides it anew
(the model's choice, log 52). -/
def Part.lastSecond (p : Part) (z : ZoneId) : Part := if p.zoneComplete z then p else p.missDeadline z

/-- DEADLINE_SECOND (R57, R61). -/
def Part.deadlineSecond (p : Part) (z : ZoneId) : Part :=
  match (p.zone z).deadline, (p.zone z).remaining with
  | .running, some r =>
    let p1 := p.advanceTo ((p.zone z).secondMark + second)
    if r ≤ 1 then p1.lastSecond z
    else p1.modZone z (fun x => { x with remaining := some (r - 1), secondMark := p1.now })
  | _, _ => p

/-- DEADLINE_EXPIRY (R61). -/
def Part.deadlineExpiry (p : Part) (z : ZoneId) : Part :=
  match (p.zone z).deadline, (p.zone z).remaining with
  | .running, some r => if r ≤ 1 then (p.advanceTo ((p.zone z).secondMark + second)).lastSecond z else p
  | _, _ => p

/-- OVERRUN_SECOND (R62). -/
def Part.overrunSecond (p : Part) (z : ZoneId) : Part :=
  if (p.zone z).deadline = .missed ∧ (p.zone z).overrunRunning then
    let p1 := p.advanceTo ((p.zone z).secondMark + second)
    p1.modZone z (fun x => { x with overrun := saturate wordCeiling (x.overrun + 1), secondMark := p1.now })
  else p

/-! ## Release of a zone (R65, R66) -/

/-- R65: the release of a latched zone is refused. -/
def Part.releaseRefused (p : Part) (z : ZoneId) : Bool :=
  (decide ((p.zone z).loop.cfg.mode = .level) && (p.zone z).loop.inAlarm) || (decide (p.ga.cfg.mode = .level) && p.ga.inAlarm)

/-- R66: a release is executed. -/
def Part.executeRelease (p : Part) (z : ZoneId) : Part :=
  ((p.modZone z (fun x =>
    { x with latch := false, deadline := .idle, remaining := none, overrunRunning := false, complete := true,
             indicator := false })).dropFreezes z).recomputeZone z

/-- R65, R66: the release of one named zone, with whether it is entered in the released list. -/
def Part.releaseZone (p : Part) (z : ZoneId) : Part × Bool :=
  if (p.zone z).latch then
    if p.releaseRefused z then (p.record .zone (noticeOf .releaseRefused (some (.zone z)) none), false)
    else (p.executeRelease z, true)
  else (p, true)

/-- A release in progress: the part, the zones released and the zones refused. -/
structure ReleaseResult where
  part : Part
  released : BitVec 6
  refused : BitVec 6

/-- The bit of a zone in a zone set (R196). -/
def zoneBit (z : ZoneId) : BitVec 6 := BitVec.ofNat 6 (2 ^ z.val)

/-- R65: the loop changes that are taken between the release of the named zone before and that of zone `z`. -/
def Part.loopChangesAt (p : Part) (changes : List LoopReport) (z : ZoneId) : Part :=
  (changes.filter (fun c => decide (c.before = z))).foldl (fun q c => q.changeLoop c.loop c.state) p

/-- R65, R66: the named zones are decided one at a time, in ascending zone order, each by the loop states as they stand when
its release is taken. -/
def Part.releaseZones (p : Part) (zones : BitVec 6) (changes : List LoopReport) : ReleaseResult :=
  allZones.foldl (fun r z =>
    if zones.getLsbD z.val then
      let d := (r.part.loopChangesAt changes z).releaseZone z
      if d.2 then ⟨d.1, r.released ||| zoneBit z, r.refused⟩ else ⟨d.1, r.released, r.refused ||| zoneBit z⟩
    else r) ⟨p, 0, 0⟩

/-! ## Manual override (R84 to R90) -/

/-- R88: what a KEY command makes of a zone's override. -/
def overrideOf (cmd : KeyCommand) (l : LineId) (station : BitVec 4) : Option KeyOverride :=
  match cmd with
  | .opens => some ⟨.opens, l, station⟩
  | .closes => some ⟨.closes, l, station⟩
  | .auto => none

/-- R88: the Zone Unit takes a KEY command: for each named zone in ascending order the override, then the recomputation
of its channels. -/
def Part.takeKey (p : Part) (zones : BitVec 6) (cmd : KeyCommand) (l : LineId) (station : BitVec 4) : Part :=
  allZones.foldl (fun q z =>
    if zones.getLsbD z.val then
      (q.modZone z (fun x => { x with override := overrideOf cmd l station })).recomputeZone z
    else q) p

/-- R86, R87: a valid KEY frame from a station is answered when the line is next free (R128; log 39 where the frame falls in
the wait after an abandonment), and taken or refused as malformed. -/
def Part.answerKey (p : Part) (l : LineId) (addr : BitVec 4) (zones command : Byte) : Part :=
  let p1 := p.lineBusyUntilGap l
  match keyCommandOfByte command with
  | some cmd =>
    if zoneSetOfByte zones = 0 then
      (p1.modLine l (fun x => { x with answer := some ⟨addr, false⟩ })).record (.line l)
        (noticeOf .keyRefused (some (.line l)) (some .malformed))
    else
      (p1.modLine l (fun x => { x with answer := some ⟨addr, true⟩ })).takeKey (zoneSetOfByte zones) cmd l addr
  | none =>
    (p1.modLine l (fun x => { x with answer := some ⟨addr, false⟩ })).record (.line l)
      (noticeOf .keyRefused (some (.line l)) (some .malformed))

/-- KEY (R86, R87, R123, R124, R145): on a line in service, from a station; it may also end an exchange in flight. -/
def Part.hearKey (p : Part) (l : LineId) (addr : BitVec 4) (zones command : Byte) (resultFirst : Bool) : Part :=
  if isStation addr then
    let x := p.line l
    match x.state with
    | .disabled | .failed => p
    | .run | .quieting | .quiet | .test =>
      match x.exchange with
      | none => p.answerKey l addr zones command
      | some e =>
        match e.sentAt with
        | none => p
        | some _ =>
          match e.kind with
          | .test bytes discarded =>
            (p.countTest l bytes discarded [] (p.now + gapTime)).answerKey l addr zones command
          | .order _ | .query _ _ =>
            if resultFirst then (p.failExchange l .unexpectedFrame (p.now + gapTime)).answerKey l addr zones command
            else (p.answerKey l addr zones command).failExchange l .unexpectedFrame (p.now + gapTime)
  else p.hearOther l .valid

/-! ## What the receiver finds (R120) -/

/-- A valid frame, by its kind (R118, R123, R124). A KEY frame that also ends a transaction ends it first (log 50). -/
def Part.takeFrame (p : Part) (l : LineId) (f : Frame) : Part :=
  match f with
  | .key addr zones command => p.hearKey l addr zones command true
  | .status addr position motion faults => p.hearStatus l addr position motion faults
  | .accept addr => p.hearAccept l addr
  | .busy addr => p.hearBusy l addr
  | .refuse addr reason => p.hearRefuse l addr reason
  | .test addr bytes => p.hearEcho l addr bytes.toList true
  | .order _ _ => p.hearOther l .valid
  | .query _ => p.hearOther l .valid
  | .halt _ => p.hearOther l .valid

/-- What the receiver found is taken (R120, R123, R124, R145). -/
def Part.takeFound (p : Part) (l : LineId) (found : Found) : Part :=
  match found with
  | .nothing => p
  | .frame f => p.takeFrame l f
  | .damagedEcho addr received => p.hearEcho l addr received false
  | .damaged => p.hearOther l .damaged

/-- The levels of a reception reach the watch, and its end the receiver (R120, R136, R137). -/
def Line.receive (x : Line) (h : Reception) (now : Nat) : Line :=
  { x with
    watch := if sawRecessive h then x.watch.restart now else x.watch.dominant now
    receiver := (x.receiver.hear h).after }

/-- DAMAGED_FRAME (R120): a reception is heard, and what the receiver finds in it is taken. -/
def Part.hearReception (p : Part) (l : LineId) (h : Reception) : Part :=
  if (p.line l).listens then
    (p.modLine l (fun x => x.receive h p.now)).takeFound l ((p.line l).receiver.hear h).found
  else p

end Sys2Proof.Machine
end

