-- ==== Sys2Proof/Machine/WeatherUnit.lean ====
section
/-! DEFINITION. The Weather Unit: wind windows, storm, smoke wind, vane and rain (R69 to R83). -/

namespace Sys2Proof.Machine

/-- ANEMOMETER_PULSE (R71). -/
def Part.countPulse (p : Part) : Part :=
  p.setWeather { p.weather with pulses := saturate wordCeiling (p.weather.pulses + 1) }

/-- R71: the window's count and the vane sample are stored and the next window begins. -/
def Weather.nextWindow (w : Weather) (now : Nat) (sample : Fin 8) : Weather :=
  { w with lastCount := some w.pulses, lastSample := some sample, pulses := 0, windowStart := now }

/-- R73, R74: the runs and storm after a window with a count. -/
def Weather.judgeStorm (w : Weather) (g : GlobalConfig) (count : Nat) : Nat × Nat × Bool :=
  if w.storm then
    if count < g.stormClearLimit then
      if g.stormClearCount ≤ w.clearRun + 1 then (0, 0, false) else (w.setRun, w.clearRun + 1, true)
    else (w.setRun, 0, true)
  else if g.stormSetLimit ≤ count then
    if g.stormSetCount ≤ w.setRun + 1 then (0, 0, true) else (w.setRun + 1, w.clearRun, false)
  else (0, w.clearRun, false)

/-- R75: smoke wind after a window with a count. -/
def smokeWindOf (g : GlobalConfig) (count : Nat) : Bool := decide (g.smokeWindLimit ≤ count)

/-- R77: the settled sector after a sample, given the last one. -/
def settledOf (w : Weather) (sample : Fin 8) : Option (Fin 8) :=
  if w.lastSample = some sample then some sample else w.settled

/-- The orders of publication (R72). -/
def publications : PublicationOrder → List Condition
  | .stormSmokeSector => [.storm, .smokeWind, .sector]
  | .stormSectorSmoke => [.storm, .sector, .smokeWind]
  | .smokeStormSector => [.smokeWind, .storm, .sector]
  | .smokeSectorStorm => [.smokeWind, .sector, .storm]
  | .sectorStormSmoke => [.sector, .storm, .smokeWind]
  | .sectorSmokeStorm => [.sector, .smokeWind, .storm]

/-- The conditions a window end arrives at. -/
structure Judged where
  storm : Bool
  smokeWind : Bool
  settled : Option (Fin 8)
deriving DecidableEq, Repr

/-- A condition takes its judged value. -/
def Weather.apply (w : Weather) (j : Judged) : Condition → Weather
  | .storm => { w with storm := j.storm }
  | .smokeWind => { w with smokeWind := j.smokeWind }
  | .sector => { w with settled := j.settled }

/-- R82: one publication; it recomputes every channel. A condition that has not changed is not published. -/
def Part.publish (p : Part) (j : Judged) (c : Condition) : Part :=
  if p.weather.apply j c = p.weather then p else (p.setWeather (p.weather.apply j c)).recomputeAll

/-- WINDOW_END (R71 to R77), its publications in the order of the operand (R72). A rain publication that falls together with
them is RAIN_TIMER_EXPIRY before or after the whole of this command: R79 also allows it between two of them, and that it is
never taken there is the model's choice (log 47). -/
def Part.endWindWindow (p : Part) (vane : BitVec 3) (order : PublicationOrder) : Part :=
  let p1 := p.advanceTo (p.weather.windowStart + p.globals.windWindow * second)
  let w := p1.weather
  let sample := sectorOfVane vane
  let runs := w.judgeStorm p1.globals w.pulses
  let j : Judged := ⟨runs.2.2, smokeWindOf p1.globals w.pulses, settledOf w sample⟩
  let p2 := p1.setWeather { w.nextWindow p1.now sample with setRun := runs.1, clearRun := runs.2.1 }
  (publications order).foldl (fun q c => q.publish j c) p2

/-- RAIN_CONTACT_CHANGE (R78). -/
def Part.changeRainContact (p : Part) (active : Bool) : Part :=
  let w := p.weather
  match w.rainState, active with
  | .dry, true => p.setWeather { w with rainState := .wetting, rainFrom := some p.now }
  | .wetting, false => p.setWeather { w with rainState := .dry, rainFrom := none }
  | .wet, false => p.setWeather { w with rainState := .drying, rainFrom := some p.now }
  | .drying, true => p.setWeather { w with rainState := .wet, rainFrom := none }
  | .dry, false | .wetting, true | .wet, true | .drying, false => p

/-- The delay the rain timer runs against (R78). -/
def rainDelay (g : GlobalConfig) : RainState → Nat
  | .drying => g.rainOffDelay
  | .dry | .wetting | .wet => g.rainOnDelay

/-- R78: the rain timer reaches its delay; rain changes and is published. -/
def Part.expireRain (p : Part) : Part :=
  match p.weather.rainState with
  | .wetting => (p.setWeather { p.weather with rainState := .wet, rainFrom := none }).recomputeAll
  | .drying => (p.setWeather { p.weather with rainState := .dry, rainFrom := none }).recomputeAll
  | .dry | .wet => p

/-- RAIN_TIMER_EXPIRY (R78). -/
def Part.rainTimerExpiry (p : Part) : Part :=
  match p.weather.rainFrom with
  | some t => (p.advanceTo (t + rainDelay p.globals p.weather.rainState * second)).expireRain
  | none => p

end Sys2Proof.Machine
end

