-- ==== Sys2Proof/Machine/Commands.lean ====
section
/-! DEFINITION. The Command Unit: the taking of a command, the eight commands, the commit and the release sequence
(R169 to R182, with R21 to R24, R35, R46, R80, R81 and R132 for the commit). -/

namespace Sys2Proof.Machine

/-! ## The verdict of a command (R170) -/

/-- What deciding a command gives: its effect on the part, the refusal if it is refused, the results, and the channel a
refused commit names. -/
structure Verdict where
  part : Part
  refusal : Option Reason
  resultA : Option Word
  resultB : Option Word
  subject : Option ChannelId

/-- A command that ends DONE without results. -/
def done (p : Part) : Verdict := ⟨p, none, none, none, none⟩

/-- A command refused without results. -/
def refused (p : Part) (r : Reason) : Verdict := ⟨p, some r, none, none, none⟩

/-- The eight command codes (R196). -/
inductive CommandCode where
  | configCommit | faultClear | lineState | testStart | testStop | releaseBegin | releaseZones | releaseEnd
deriving DecidableEq, Repr

/-- The command a code names; any other code names none (R170, R196). -/
def commandOfCode (w : Word) : Option CommandCode :=
  match w.toNat with
  | 1 => some .configCommit
  | 2 => some .faultClear
  | 3 => some .lineState
  | 4 => some .testStart
  | 5 => some .testStop
  | 6 => some .releaseBegin
  | 7 => some .releaseZones
  | 8 => some .releaseEnd
  | _ => none

/-- The code of a command (R196). -/
def codeOf : CommandCode → Word
  | .configCommit => 1
  | .faultClear => 2
  | .lineState => 3
  | .testStart => 4
  | .testStop => 5
  | .releaseBegin => 6
  | .releaseZones => 7
  | .releaseEnd => 8

/-- An argument word as captured (R169). -/
def Part.arg (p : Part) (i : Fin 3) : Word := p.cmd.args[i.val]

/-! ## The release sequence (R178 to R181) -/

/-- The release state with its timer and zone set. -/
def Part.setRelease (p : Part) (r : Release) : Part := p.setCmd { p.cmd with release := r }

/-- R181: the sequence is abandoned. -/
def Part.abandonRelease (p : Part) : Part := (p.setRelease .idle).record .gate (noticeOf .releaseAbandoned none none)

/-- R178: RELEASE_BEGIN, in every state. -/
def Part.beginRelease (p : Part) : Verdict := done (p.setRelease (.begun p.now))

/-- R179: RELEASE_ZONES tests the release state, then its argument. -/
def Part.nameReleaseZones (p : Part) : Verdict :=
  match p.cmd.release with
  | .idle => refused p .sequence
  | .begun t =>
    match zoneSetOfArgument (p.arg 0) with
    | some zs => done (p.setRelease (.zoned t zs))
    | none => refused p.abandonRelease .badArg
  | .zoned _ _ => refused p.abandonRelease .sequence

/-- A zone set as a word (R196). -/
def zoneSetWord (zs : BitVec 6) : Word := zs.setWidth 16

/-- R180: RELEASE_END, with the loop changes taken while its zones are released (R65). -/
def Part.endRelease (p : Part) (changes : List LoopReport) : Verdict :=
  match p.cmd.release with
  | .idle => refused p .sequence
  | .begun _ => refused p.abandonRelease .sequence
  | .zoned _ zs =>
    let r := (p.setRelease .idle).releaseZones zs changes
    ⟨r.part, none, some (zoneSetWord r.released), some (zoneSetWord r.refused), none⟩

/-- RELEASE_TIMER_EXPIRY: 10 s after the last RELEASE_BEGIN (R178, R181). -/
def Part.releaseTimerExpiry (p : Part) : Part :=
  match p.cmd.release with
  | .idle => p
  | .begun t => (p.advanceTo (t + releaseTime)).abandonRelease
  | .zoned t _ => (p.advanceTo (t + releaseTime)).abandonRelease

/-! ## FAULT_CLEAR and the line commands (R174 to R177) -/

/-- R19: a FAULTED channel named leaves FAULTED; any other is unaffected. -/
def Part.clearFault (p : Part) (n : ChannelId) : Part := if (p.chan n).motion = .faulted then p.leaveFaulted n else p

/-- R174. -/
def Part.faultClear (p : Part) : Verdict :=
  match channelsOfArgument (p.arg 0) with
  | some ns => done (p.forEach ns (fun n q => q.clearFault n))
  | none => refused p .badArg

/-- R133: LINE_STATE RUN at the controller. -/
def Part.lineToRun (p : Part) (l : LineId) : Verdict :=
  match (p.line l).state with
  | .run => done p
  | .quieting | .quiet => done (p.enterLine l .run)
  | .disabled => done (p.restartLine l)
  | .test | .failed => refused p .wrongState

/-- R133, R134: LINE_STATE QUIET at the controller; quieting complete is judged at the end of the event. -/
def Part.lineToQuiet (p : Part) (l : LineId) : Verdict :=
  match (p.line l).state with
  | .run => done (p.enterLine l .quieting)
  | .quieting | .quiet => done p
  | .test | .disabled | .failed => refused p .wrongState

/-- R175. -/
def Part.lineStateCommand (p : Part) : Verdict :=
  match lineOfArgument (p.arg 0), lineRequestOfArgument (p.arg 1) with
  | some l, some .run => p.lineToRun l
  | some l, some .quiet => if p.anyLatch then refused p .smokeActive else p.lineToQuiet l
  | some l, some .disabled => done (p.disableLine l)
  | _, _ => refused p .badArg

/-- R141: the test record is cleared and takes kind and target; the sequence restarts. -/
def LineTest.start (t : LineTest) (k : TestKind) (target : BitVec 4) : LineTest :=
  { t with kind := some k, target := some target, result := some .running, frames := 0, errors := 0, pair := none,
           seq := 0b1111111 }

/-- R141: a frame of an earlier test still completing is not counted in the new record. -/
def Line.discardOldTest (x : Line) : Line :=
  { x with exchange := x.exchange.map (fun e =>
      { e with kind := match e.kind with | .test bytes _ => .test bytes true | k => k }) }

/-- R141: TEST_START at the controller of a QUIET line. -/
def Part.startTest (p : Part) (l : LineId) (k : TestKind) (target : BitVec 4) : Part :=
  ((p.modLine l (fun x => x.discardOldTest)).modTest l (fun t => t.start k target)).enterLine l .test

/-- R176. -/
def Part.testStartCommand (p : Part) : Verdict :=
  match lineOfArgument (p.arg 0), testKindOfArgument (p.arg 1), targetOfArgument (p.arg 2) with
  | some l, some k, some target =>
    if p.anyLatch then refused p .smokeActive
    else if (p.line l).state = .quiet then done (p.startTest l k target)
    else refused p .wrongState
  | _, _, _ => refused p .badArg

/-- R148: the test ends STOPPED; an exchange in flight runs to its end. -/
def Part.stopTest (p : Part) (l : LineId) : Part :=
  (p.modTest l (fun t => { t with result := some .stopped })).enterLine l .quiet

/-- R177. -/
def Part.testStopCommand (p : Part) : Verdict :=
  match lineOfArgument (p.arg 0) with
  | some l => if (p.line l).state = .test then done (p.stopTest l) else refused p .wrongState
  | none => refused p .badArg

/-! ## The commit (R173) -/

/-- How a commit changes a channel: stays UNUSED, becomes UNUSED, kept, or OFFLINE by entering use or being rebound
(R21 to R23). -/
inductive CommitCase where
  | stillUnused
  | toUnused
  | kept
  | fromUnused
  | rebound
deriving DecidableEq, Repr

def commitCase (old new : ChannelConfig) : CommitCase :=
  if old.cls = .unused then (if new.cls = .unused then .stillUnused else .fromUnused)
  else if new.cls = .unused then .toUnused
  else if old.line = new.line ∧ old.node = new.node then .kept
  else .rebound

/-- R22, R23: the line a channel leaves: its order goes, an exchange in flight to its node is abandoned, and a retake
for it is dropped. -/
def Part.leaveLine (p : Part) (n : ChannelId) : Part :=
  ((p.abandonFor (p.lineOf n) n).removeOrder n).modLine (p.lineOf n) (fun x =>
    { x with retake := match x.retake with | some r => if r.channel = n then none else some r | none => none })

/-- R22, R23: the record of a channel that becomes UNUSED or OFFLINE at the commit. -/
def Channel.forget (c : Channel) : Channel :=
  { c with position := none, report := none, travel := none, accepted := none, miss := 0, shortMark := false,
           fault := none, lastFault := if c.fault.isSome then c.fault else c.lastFault }

/-- The channel takes its new configuration. -/
def Part.setConfig (p : Part) (n : ChannelId) (cfg : ChannelConfig) : Part := p.modChan n (fun c => { c with cfg := cfg })

/-- R23: entry into OFFLINE at a commit; supervision is due at once (R132). -/
def Part.commitOffline (p : Part) (n : ChannelId) (cfg : ChannelConfig) : Part :=
  (((p.modChan n (fun c => c.forget)).setConfig n cfg).setMotion n .offline).dueAtOnce n

/-- R21 to R24: the record changes of a commit for one channel. -/
def Part.commitChannel (p : Part) (n : ChannelId) (cfg : ChannelConfig) : Part :=
  let c := p.chan n
  match commitCase c.cfg cfg with
  | .stillUnused => p.setConfig n cfg
  | .kept => p.setConfig n cfg
  | .toUnused => (((p.leaveLine n).modChan n (fun c => c.forget)).setConfig n cfg).setMotion n .unused
  | .fromUnused => p.commitOffline n cfg
  | .rebound =>
    let p1 := (p.leaveLine n).commitOffline n cfg
    if c.motion = .offline then p1
    else p1.record .channel ⟨.fault, .channelOffline, some (.channel n), none⟩

/-- R21: the expiry a lowered travel limit brings at the commit. -/
def Part.commitExpiry (p : Part) (n : ChannelId) : Part :=
  match (p.chan n).travel with
  | some e => if (p.chan n).cfg.travelLimit ≤ e then p.expireTravel n e else p
  | none => p

/-- R21: the review of an IDLE or QUEUED channel against its tolerance. -/
def Part.commitReview (p : Part) (n : ChannelId) : Part :=
  let c := p.chan n
  match c.motion with
  | .idle => p.testIdle n
  | .queued =>
    if withinTolerance c c.granted then ((p.removeOrder n).stopTravel n).setMotion n .idle else p
  | _ => p

/-- R46, R48: a loop takes its new configuration. A running timer is cancelled and, with the alarm condition present,
started anew; with no timer running, an entry into the condition at the commit starts one (log 17). -/
def FireLoop.configure (g : FireLoop) (cfg : LoopConfig) (now : Nat) : FireLoop :=
  if g.cfg = cfg then g
  else
    { g with
      cfg := cfg
      timer := if alarmCondition cfg g.state ∧ (g.timer.isSome ∨ g.inAlarm = false) then some (cfg.mode, now) else none }

/-- R46: the loops and the smoke deadlines at a commit. -/
def Part.commitLoops (p : Part) (words : ConfigWords) : Part :=
  let p1 := allZones.foldl (fun q z =>
    q.modZone z (fun x =>
      { x with loop := x.loop.configure (pendingLoop words (.zone z)) q.now
               smokeDeadline := pendingSmokeDeadline words z })) p
  p1.setGa (p1.ga.configure (pendingLoop words .ga) p1.now)

/-- R80: a changed wind window starts a new window. -/
def Part.commitWind (p : Part) (old : GlobalConfig) : Part :=
  if old.windWindow = p.globals.windWindow then p
  else p.setWeather { p.weather with pulses := 0, windowStart := p.now }

/-- R81: a changed rain delay that the rain timer has already reached. -/
def Part.commitRain (p : Part) (old : GlobalConfig) : Part :=
  match p.weather.rainFrom with
  | some t =>
    let delay := rainDelay p.globals p.weather.rainState
    if delay ≠ rainDelay old p.weather.rainState ∧ t + delay * second ≤ p.now then p.expireRain else p
  | none => p

/-- R132: the supervision timers that have reached a changed interval are due. -/
def Part.commitSupervision (p : Part) (old : GlobalConfig) : Part :=
  if old.supervisionInterval = p.globals.supervisionInterval then p
  else
    p.forEach allChannels (fun n q =>
      match (q.chan n).supFrom with
      | some t => if t + q.globals.supervisionInterval * second ≤ q.now then q.dueAtOnce n else q
      | none => q)

/-- The commit of a pending copy that passed validation (R24, R173; the order of its last parts is log 16). R24 has the
re-evaluation of all channels before the reviews, and also has the orders of a commit join in ascending channel order; where a
re-evaluation and a review both queue one, the model keeps the sequence, and the re-evaluation's order of a higher channel
stands before the review's of a lower one (the model's choice, log 46). -/
def Part.commit (p : Part) : Part :=
  let words := p.cmd.pending
  let old := p.globals
  let kept := allChannels.filter (fun n => decide (commitCase (p.chan n).cfg (pendingChannel words n) = .kept))
  let p1 := p.forEach allChannels (fun n q => q.commitChannel n (pendingChannel words n))
  let p2 := { p1 with globals := pendingGlobals words }
  let p3 := ((p2.forEach kept (fun n q => q.commitExpiry n)).recomputeAll).forEach kept (fun n q => q.commitReview n)
  let p4 := (((p3.commitLoops words).commitWind old).commitRain old).commitSupervision old
  p4.setCmd { p4.cmd with generation := p4.cmd.generation + 1 }

/-- R172, R173: CONFIG_COMMIT. -/
def Part.configCommit (p : Part) : Verdict :=
  if p.anyLatch then refused p .smokeActive
  else
    match validate p.cmd.pending with
    | some f =>
      ⟨p, some .configInvalid, f.channel.map (fun n => BitVec.ofNat 16 n.val), some (BitVec.ofNat 16 f.offset), f.channel⟩
    | none => done p.commit

/-! ## The taking of a command (R170) -/

/-- The decision of a command; `changes` are the loop changes taken while a RELEASE_END releases its zones (R65, log 43). -/
def Part.decideCommand (p : Part) (changes : List LoopReport) : Option CommandCode → Verdict
  | some .configCommit => p.configCommit
  | some .faultClear => p.faultClear
  | some .lineState => p.lineStateCommand
  | some .testStart => p.testStartCommand
  | some .testStop => p.testStopCommand
  | some .releaseBegin => p.beginRelease
  | some .releaseZones => p.nameReleaseZones
  | some .releaseEnd => p.endRelease changes
  | none => refused p .badArg

/-- A command that is none of the three release commands. -/
def interrupts : Option CommandCode → Bool
  | some .releaseBegin | some .releaseZones | some .releaseEnd => false
  | _ => true

/-- R181: such a command abandons a sequence in RS_BEGUN or RS_ZONED before it is decided. -/
def Part.interrupt (p : Part) (c : Option CommandCode) : Part :=
  if interrupts c ∧ p.cmd.release ≠ .idle then p.abandonRelease else p

/-- R170: the error of a refusal. -/
def refusalRecord (c : Option CommandCode) (r : Reason) (subject : Option ChannelId) : ErrorRecord :=
  match c with
  | some .configCommit => ⟨.fault, .commitRefused, subject.map Subject.channel, some (.reason r)⟩
  | _ => noticeOf .commandRefused none (some (.reason r))

/-- R170: the command status after a verdict. -/
def CommandUnit.conclude (u : CommandUnit) (code : Word) (v : Verdict) : CommandUnit :=
  { u with
    last := some code
    outcome := if v.refusal.isSome then .refused else .done
    reason := v.refusal
    count := (u.count + 1) % 128
    resultA := v.resultA
    resultB := v.resultB }

/-- R170: the verdict is recorded. -/
def Verdict.conclude (v : Verdict) (code : Word) : Part :=
  let p := match v.refusal with
    | some r => v.part.record .gate (refusalRecord (commandOfCode code) r v.subject)
    | none => v.part
  p.setCmd (p.cmd.conclude code v)

/-- A whole word written to the command word is taken as a command (R157, R170). -/
def Part.takeCommand (p : Part) (code : Word) (changes : List LoopReport) : Part :=
  let c := commandOfCode code
  ((p.interrupt c).decideCommand changes c).conclude code

/-- R182: RSTN at the Command Unit. Nothing is recorded. -/
def Part.resetCommandUnit (p : Part) : Part :=
  p.setCmd { p.cmd with last := none, outcome := .ready, reason := none, count := 0, resultA := none, resultB := none,
                        release := .idle }

end Sys2Proof.Machine
end

