-- ==== Sys2Proof/Machine/Words.lean ====
section
/-! DEFINITION. The word layouts of the window: the part's value of each word it writes (R196, R197). -/

namespace Sys2Proof.Machine

/-- A field that fills a whole word reads 0xFFFF when absent (R196). -/
def wordOr (v : Option Nat) : Word := match v with | some k => BitVec.ofNat 16 k | none => 0xFFFF

def sourceCode : Source → Nat
  | .comfort => 0
  | .weather => 1
  | .smoke => 2
  | .manual => 3
  | .none => 0xFF

def motionCode : Motion → Nat
  | .idle => 0
  | .queued => 1
  | .ordering => 2
  | .moving => 3
  | .halting => 4
  | .faulted => 5
  | .offline => 6
  | .unused => 0xFF

def nodeMotionCode : NodeMotion → Nat
  | .stopped => 0
  | .opening => 1
  | .closing => 2

def loopCode : LoopState → Nat
  | .normal => 0
  | .alarm => 1
  | .openCircuit => 2
  | .shortCircuit => 3

def deadlineCode : Deadline → Nat
  | .idle => 0
  | .running => 1
  | .met => 2
  | .missed => 3

def overrideCode : Option KeyOverride → Nat
  | none => 0
  | some o => match o.value with | .opens => 1 | .closes => 2

def lineStateCode : LineState → Nat
  | .run => 0
  | .quieting => 1
  | .quiet => 2
  | .test => 3
  | .disabled => 4
  | .failed => 5

def outcomeCode : CommandOutcome → Nat
  | .ready => 0
  | .done => 1
  | .refused => 2

def reasonCode : Reason → Nat
  | .badArg => 1
  | .wrongState => 2
  | .smokeActive => 3
  | .sequence => 4
  | .configInvalid => 5

def severityCode : Severity → Nat
  | .notice => 0
  | .fault => 1
  | .safety => 2

def ackOutcomeCode : AckOutcome → Nat
  | .cleared => 0
  | .mismatch => 1
  | .empty => 2

def testKindCode : TestKind → Nat
  | .sequence => 1
  | .pattern => 2

def testResultCode : TestResult → Nat
  | .running => 0
  | .stopped => 1
  | .aborted => 2

/-- A fault code with its detail: bits 15 to 12 the code, bits 11 to 0 the detail (R197). -/
def faultWord : FaultCode → Word
  | .refused reason => BitVec.ofNat 16 (1 * 0x1000 + reason.toNat)
  | .nodeFault flags => BitVec.ofNat 16 (2 * 0x1000 + flags.toNat)
  | .noResponse retries => BitVec.ofNat 16 (3 * 0x1000 + retries)
  | .checkError retries => BitVec.ofNat 16 (4 * 0x1000 + retries)
  | .shortTravel position => BitVec.ofNat 16 (5 * 0x1000 + position.getD 0xFFF)
  | .travelTimeout seconds => BitVec.ofNat 16 (6 * 0x1000 + seconds)
  | .haltUnconfirmed retries => BitVec.ofNat 16 (7 * 0x1000 + retries)

/-- A fault code word, 0xFFFF when absent. -/
def faultWordOr (f : Option FaultCode) : Word := match f with | some c => faultWord c | none => 0xFFFF

/-- The node report nibble, 0xF when absent (R197). -/
def reportNibble : Option NodeReport → Nat
  | none => 0xF
  | some r => r.endClosed.toNat * 8 + r.endOpen.toNat * 4 + nodeMotionCode r.motion

/-- Words +2 to +7 of a channel record (R197). -/
def channelWord (c : Channel) : Nat → Word
  | 2 => wordOr c.granted
  | 3 => BitVec.ofNat 16 (sourceCode c.governing * 0x100 + motionCode c.motion)
  | 4 => wordOr c.position
  | 5 => BitVec.ofNat 16 (reportNibble c.report * 0x1000 + c.travel.getD 0xFFF)
  | 6 => faultWordOr c.fault
  | 7 => faultWordOr c.lastFault
  | _ => 0

/-- Words +0 to +5 of a zone record (R197). -/
def zoneWord (z : Zone) : Nat → Word
  | 0 => BitVec.ofNat 16 (loopCode z.loop.state * 0x100 + z.indicator.toNat * 4 + z.complete.toNat * 2 + z.latch.toNat)
  | 1 => BitVec.ofNat 16 (deadlineCode z.deadline * 0x100 + z.overrunRunning.toNat)
  | 2 => wordOr z.remaining
  | 3 => BitVec.ofNat 16 z.overrun
  | 4 => BitVec.ofNat 16 (overrideCode z.override * 0x100 + (z.override.map (fun o => o.line.val)).getD 0xFF)
  | 5 => wordOr (z.override.map (fun o => o.station.toNat))
  | _ => 0

/-- Words +0 to +2 of a line record (R197). -/
def lineWord (l : Line) : Nat → Word
  | 0 => BitVec.ofNat 16 (lineStateCode l.state)
  | 1 => BitVec.ofNat 16 l.urgent.length
  | 2 => BitVec.ofNat 16 l.routine.length
  | _ => 0

/-- The four bits of the last command: a code that names no command shows as 0, absent as 15 (R196). -/
def lastCommandNibble : Option Word → Nat
  | none => 15
  | some w => if w.toNat ≤ 8 then w.toNat else 0

/-- The status word and the result words (R197). -/
def commandWord (c : CommandUnit) : Nat → Word
  | 4 => BitVec.ofNat 16 (lastCommandNibble c.last * 0x1000 + outcomeCode c.outcome * 0x400 +
      (match c.reason with | some r => reasonCode r | none => 7) * 0x80 + c.count)
  | 5 => c.resultA.getD 0xFFFF
  | 6 => c.resultB.getD 0xFFFF
  | _ => 0

/-- The global status words (R197). -/
def globalWord (p : Part) : Nat → Word
  | 0 => BitVec.ofNat 16 (loopCode p.ga.state)
  | 1 => p.cmd.generation
  | 2 => BitVec.ofNat 16 (releaseCode p.cmd.release)
  | 3 => BitVec.ofNat 16 (p.weather.smokeWind.toNat * 4 + p.weather.storm.toNat * 2 + p.weather.rain.toNat)
  | 4 => wordOr (p.weather.settled.map (fun k => k.val))
  | 5 => wordOr p.weather.lastCount
  | 6 => wordOr (p.weather.lastSample.map (fun k => k.val))
  | _ => 0

/-- The notice set words and the values of the notice acknowledge words (R197). -/
def noticeWord (p : Part) (k : Nat) : Word :=
  if k < 3 then setWord p.notices k else if h : k < 6 then p.noticeAcks[k - 3] else 0

/-- The subject word of a bank record: bits 15 to 12 the type, bits 11 to 0 the number (R197). -/
def subjectWord : Option Subject → Word
  | none => 0xFFFF
  | some (.channel n) => BitVec.ofNat 16 n.val
  | some (.zone z) => BitVec.ofNat 16 (1 * 0x1000 + z.val)
  | some .ga => BitVec.ofNat 16 (2 * 0x1000)
  | some (.line l) => BitVec.ofNat 16 (3 * 0x1000 + l.val)
  | some (.offset off) => BitVec.ofNat 16 (4 * 0x1000 + off)

/-- The detail word of a bank record: a fault code word or a reason code (R197). -/
def detailWord : Option Detail → Word
  | none => 0xFFFF
  | some (.fault f) => faultWord f
  | some (.reason r) => BitVec.ofNat 16 (reasonCode r)
  | some .malformed => 4

/-- The words of a bank record (R197). -/
def bankWord (b : Bank) : Nat → Word
  | 0 => BitVec.ofNat 16 (b.reached.toNat * 8 + b.safetyLost.toNat * 4 + b.overflow.toNat * 2 + b.record.isSome.toNat)
  | 1 => match b.record with
    | some e => BitVec.ofNat 16 (severityCode e.severity * 0x100 + errorKindCode e.kind)
    | none => 0xFFFF
  | 2 => subjectWord (b.record.bind (fun e => e.subject))
  | 3 => detailWord (b.record.bind (fun e => e.detail))
  | 4 => b.enable
  | 5 => BitVec.ofNat 16 b.counter
  | 6 => match b.lastAck with
    | some (code, o) => BitVec.ofNat 16 (ackOutcomeCode o * 0x4000 + code.toNat)
    | none => 0xFFFF
  | 7 => BitVec.ofNat 16 b.lastStart
  | _ => 0

/-- Words +4 to +7 of a line test record (R197). -/
def testWord (t : LineTest) : Nat → Word
  | 4 => BitVec.ofNat 16 ((t.kind.map testKindCode).getD 0xFF * 0x100 + (t.target.map (fun a => a.toNat)).getD 0xFF)
  | 5 => BitVec.ofNat 16 ((t.result.map testResultCode).getD 0xFF * 0x100 + t.errors)
  | 6 => BitVec.ofNat 16 t.frames
  | 7 => match t.pair with
    | some (expected, actual) => wordOfBytes expected actual
    | none => 0xFFFF
  | _ => 0

/-- The part's value of a word of a record (R197). -/
def Part.wordOf (p : Part) (r : RecordId) (k : Nat) : Word :=
  match r with
  | .channel n => channelWord (p.chan n) k
  | .zone z => zoneWord (p.zone z) k
  | .line l => lineWord (p.line l) k
  | .command => commandWord p.cmd k
  | .global => globalWord p k
  | .notice => noticeWord p k
  | .bank b => bankWord (p.bank b) k
  | .test l => testWord (p.line l).test k

end Sys2Proof.Machine
end

