-- ==== Sys2Proof/WellFormed.lean ====
section
/-! DEFINITION. Which commands are commands of their row: the checks on operands alone. The machine itself does not
depend on them: an access that is not of its row is decoded by the Bus Gate like any other (log 38). -/

namespace Sys2Proof

/-- At least one byte enable is active; an access with neither is forwarded unchanged (R151). -/
def ByteEnables.some (be : ByteEnables) : Bool := be.upper || be.lower

/-- The operand checks of each row. -/
def Instr.wellFormed : Instr → Bool
  | .requestedTargetWrite _ be _ => be.some
  | .notifyWrite _ be _ => be.some
  | .configurationWrite _ be _ => be.some
  | .argumentWrite _ be _ => be.some
  | .patternWrite _ _ be _ => be.some
  | .enableWordWrite _ be _ => be.some
  | .acknowledgeWordWrite _ be _ => be.some
  | .counterStartWrite _ be _ => be.some
  | .noticeAcknowledgeWrite _ be _ => be.some
  | .ownedWordWrite off be _ => be.some && decide ((Machine.windowWord off).cls = .partOwned)
  | .unknownCommand code => decide (code = 0 ∨ 8 < code.toNat)
  | .testEcho _ _ received crcGood => decide (received.length ≤ 8) && (!crcGood || decide (received.length = 8))
  | .damagedFrame _ heard => !(Machine.readReception heard).found.isFrame
  | .powerOnReset .. | .rstn _ | .commandByteWrite _ _ | .forwardedWrite .. | .writeBackCycle | .configCommit
  | .faultClear | .lineStateRun | .lineStateQuiet | .lineStateDisabled | .testStart | .testStop | .releaseBegin
  | .releaseZones | .releaseEnd _ | .releaseTimerExpiry | .loopChange .. | .levelTimerExpiry _ | .pulseTimerExpiry _
  | .completenessJudgement _ | .deadlineSecond _ | .deadlineExpiry _ | .overrunSecond _ | .anemometerPulse
  | .windowEnd .. | .rainContactChange _ | .rainTimerExpiry | .transactionStart _ | .send _ | .arbitrationLoss ..
  | .replyTimeout _ | .status .. | .accept .. | .busy .. | .refuse .. | .key .. | .stationAnswer _
  | .backoffEnd _ | .travelSecond _ | .travelExpiry _ | .pollDue _ | .supervisionDue _ | .stationWindowDue _
  | .stationWindowEnd _ | .lineStuck .. | .lineRecovery .. | .testFrameStart _ | .localEchoCheck .. | .missingEcho _
  | .hostRead .. | .rstnDeassertion => true

end Sys2Proof
end

