-- ==== Sys2Proof/Machine/BusGate.lean ====
section
/-! DEFINITION. The Bus Gate: the write-back list, the arbiter, host accesses, and the resets (R17, R51, R151 to R168,
R182, R194). -/

namespace Sys2Proof.Machine

/-! ## The end of an event -/

/-- The records first dirtied in an event, in the order of the record list (R161). -/
def newEntries (p : Part) (list : List RecordId) : List RecordId :=
  allRecords.filter (fun r => decide (p.dirtyOf r ≠ 0) && decide (r ∉ list))

/-- The head entry of a list is begun: its dirty set is taken as the snapshot (R162). -/
def beginHead (p : Part) (list : List RecordId) : Option (BitVec 8) := list.head?.map p.dirtyOf

/-- The end of every event: quieting complete (R134), then the entries of the records it dirtied (R161), the first of which is
begun at once where the list was empty (R162, log 8). -/
def State.settle (s : State) : State :=
  let p := s.part.completeQuieting
  let list := s.bus.list ++ newEntries p s.bus.list
  { s with part := p, bus := { s.bus with list := list, snapshot := s.bus.snapshot.or (beginHead p list) } }

/-- One event of the part. -/
def State.event (s : State) (act : Part → Part) : State := State.settle { s with part := act s.part }

/-! ## Write-back (R162, R165, R167) -/

/-- The lowest word of a set. -/
def lowestWord (m : BitVec 8) : Option (Fin 8) := (List.finRange 8).find? (fun k => m.getLsbD k.val)

/-- A set without one word. -/
def dropWord (m : BitVec 8) (k : Fin 8) : BitVec 8 := m &&& ~~~ BitVec.ofNat 8 (2 ^ k.val)

/-- The words of the head entry's snapshot not yet written. An entry that is not begun, which no step leaves at the head
(State.listCovers), would be begun by its first cycle. -/
def State.headSnapshot (s : State) (r : RecordId) : BitVec 8 := s.bus.snapshot.getD (s.part.dirtyOf r)

/-- The pass after the snapshot of a record (R165). -/
def passAfter (pass : Option (List RecordId)) (r : RecordId) : Option (List RecordId) :=
  match pass with
  | some rs => if (rs.filter (fun q => decide (q ≠ r))).isEmpty then none else some (rs.filter (fun q => decide (q ≠ r)))
  | none => none

/-- The memory cycle of one word: the part's value at this moment is written and the dirty mark cleared (R162). -/
def State.writeWordBack (s : State) (r : RecordId) (k : Fin 8) : State :=
  { s with
    part := { s.part with dirty := s.part.dirty.set (recordIndex r).val (dropWord (s.part.dirtyOf r) k) }
    bus := { s.bus with
      mem := s.bus.mem.writeWord (s.bus.addressOf (recordOffset r + k.val)) wholeWord (s.part.wordOf r k.val)
      lastCycle := .writeBack } }

/-- The end of a snapshot: the entry leaves the list or moves to its tail, the next entry at the head is begun, and the record
is reported (R162, R167). -/
def State.endSnapshot (s : State) (r : RecordId) (rest : List RecordId) : State :=
  let list := if s.part.dirtyOf r = 0 then rest else rest ++ [r]
  { s with
    part := s.part.showItems r
    bus := { s.bus with list := list, snapshot := beginHead s.part list, pass := passAfter s.bus.pass r } }

/-- One write-back cycle for the head entry (R162). -/
def State.writeBackCycle (s : State) : State :=
  match s.bus.list with
  | [] => s
  | r :: rest =>
    match lowestWord (s.headSnapshot r) with
    | some k =>
      let left := dropWord (s.headSnapshot r) k
      let s1 := s.writeWordBack r k
      if left = 0 then s1.endSnapshot r rest else { s1 with bus := { s1.bus with snapshot := some left } }
    | none => s.endSnapshot r rest

/-! ## Host accesses (R154, R155, R158 to R164) -/

/-- The host's access and the write-back both wait, and the arbiter gives the port to write-back first (R163). -/
def State.contested (s : State) : Bool :=
  decide (alternateAt ≤ s.bus.list.length) && decide (s.bus.lastCycle = .host)

/-- The state in which a host access is granted the port: at once, or after one write-back cycle for which HRDY is held
(R163, R164, log 6). -/
def State.grant (s : State) : State :=
  if s.contested then { s.writeBackCycle with bus := { s.writeBackCycle.bus with waited := true, lastCycle := .host } }
  else { s with bus := { s.bus with waited := false, lastCycle := .host } }

/-- A write cycle of a granted access. -/
def State.memoryWrite (s : State) (addr : Addr) (be : ByteEnables) (w : Word) : State :=
  { s with bus := { s.bus with mem := s.bus.mem.writeWord addr be w } }

/-- An access without a memory cycle is given HRDY as it is taken (R154, R164). -/
def State.noWait (s : State) : State := { s with bus := { s.bus with waited := false } }

/-- A write forwarded unchanged (R151). While RSTN is asserted no host access is taken (R166, log 7). -/
def State.forwardWrite (s : State) (addr : Addr) (be : ByteEnables) (data : Word) : State :=
  if s.bus.rstn then s else s.grant.memoryWrite addr be data

/-- A write to a HOST-WRITTEN word: merge, check, capture, forward (R155). -/
def State.hostWritten (s : State) (off : Nat) (be : ByteEnables) (data : Word) (captured : Part → Word)
    (check : Word → Word) (capture : Word → Part → Part) : State :=
  if s.bus.rstn then s
  else if be.some then
    let w := merge be data (captured s.part)
    (s.grant.memoryWrite (s.bus.addressOf off) wholeWord (check w)).event (capture w)
  else s.forwardWrite (s.bus.addressOf off) be data

/-- A write to a CAPTURED-ONLY word: merged with the part's value, handed on, not forwarded (R158). -/
def State.capturedOnly (s : State) (off : Nat) (be : ByteEnables) (data : Word) (r : RecordId) (k : Nat)
    (take : Word → Part → Part) : State :=
  if s.bus.rstn then s
  else if be.some then s.noWait.event (take (merge be data (s.part.wordOf r k)))
  else s.forwardWrite (s.bus.addressOf off) be data

/-- R167: one of the Bus Gate's own three kinds. It is a change of the GATE bank record whatever the bank makes of it, and
marks that record's words dirty (log 44), also where the write that is dropped was to one of those words, whose value and dirty
mark R159 leaves as they were: there R167 and the record's new fields stand, by the model's choice (log 51). -/
def Part.recordAtGate (p : Part) (kind : ErrorKind) (subject : Subject) : Part :=
  Part.mark (p.record .gate (noticeOf kind (some subject) none)) (.bank .gate) (ownedMask (.bank .gate))

/-- A write that is dropped and recorded in the GATE bank with its word offset (R157, R159; a PART-OWNED word of the GATE record
itself, log 51). -/
def State.droppedWrite (s : State) (off : Nat) (be : ByteEnables) (data : Word) (kind : ErrorKind) : State :=
  if s.bus.rstn then s
  else if be.some then s.noWait.event (fun p => p.recordAtGate kind (.offset off))
  else s.forwardWrite (s.bus.addressOf off) be data

/-! ### The words of each class -/

/-- R6, R34, R156: the capture of a requested target. -/
def Part.captureTarget (p : Part) (n : ChannelId) (w : Word) : Part :=
  let p1 := if fullOpen < w.toNat then p.recordAtGate .targetClamped (.channel n) else p
  (p1.modChan n (fun c => { c with requested := clampTarget w })).recompute n

def State.writeTarget (s : State) (n : ChannelId) (be : ByteEnables) (data : Word) : State :=
  s.hostWritten (requestedOffset n) be data (fun p => (p.chan n).requested) clampTarget (fun w p => p.captureTarget n w)

/-- R7. -/
def State.writeNotify (s : State) (n : ChannelId) (be : ByteEnables) (data : Word) : State :=
  s.hostWritten (notifyOffset n) be data (fun p => (p.chan n).notifyWord) id
    (fun w p => p.modChan n (fun c => { c with notifyWord := w }))

/-- R171: a capture changes the pending copy. -/
def State.writeConfiguration (s : State) (i : Fin 209) (be : ByteEnables) (data : Word) : State :=
  s.hostWritten (configurationOffset i) be data (fun p => p.cmd.pending[i.val]) id
    (fun w p => p.setCmd { p.cmd with pending := p.cmd.pending.set i.val w })

/-- R169. -/
def State.writeArgument (s : State) (i : Fin 3) (be : ByteEnables) (data : Word) : State :=
  s.hostWritten (argumentOffset i) be data (fun p => p.cmd.args[i.val]) id
    (fun w p => p.setCmd { p.cmd with args := p.cmd.args.set i.val w })

/-- R140. -/
def State.writePattern (s : State) (l : LineId) (i : Fin 4) (be : ByteEnables) (data : Word) : State :=
  s.hostWritten (patternOffset l i) be data (fun p => (p.line l).test.pattern[i.val]) id
    (fun w p => p.modTest l (fun t => { t with pattern := t.pattern.set i.val w }))

/-- R183. -/
def State.writeEnable (s : State) (b : BankId) (be : ByteEnables) (data : Word) : State :=
  s.hostWritten (enableOffset b) be data (fun p => (p.bank b).enable) id
    (fun w p => p.setBank b { p.bank b with enable := w })

/-- R189. -/
def State.writeAcknowledge (s : State) (b : BankId) (be : ByteEnables) (data : Word) : State :=
  s.capturedOnly (acknowledgeOffset b) be data (.bank b) 6 (fun w p => p.acknowledge b w)

/-- R188. -/
def State.writeCounterStart (s : State) (b : BankId) (be : ByteEnables) (data : Word) : State :=
  s.capturedOnly (acknowledgeOffset b + 1) be data (.bank b) 7 (fun w p => p.startCounter b w)

/-- R192. -/
def State.writeNoticeAcknowledge (s : State) (i : Fin 3) (be : ByteEnables) (data : Word) : State :=
  s.capturedOnly (0x1E3 + i.val) be data .notice (3 + i.val) (fun w p => p.acknowledgeNotices i w)

/-- A whole-word write to the command word (R157, R170), with the loop changes taken while it releases zones (R65). -/
def State.writeCommand (s : State) (code : Word) (changes : List LoopReport) : State :=
  if s.bus.rstn then s
  else (s.grant.memoryWrite (s.bus.addressOf commandOffset) wholeWord code).event (fun p => p.takeCommand code changes)

/-- A byte write to the command word (R157). -/
def State.writeCommandByte (s : State) (lane : Lane) (data : Word) : State :=
  s.droppedWrite commandOffset (laneEnables lane) data .commandByteWrite

/-- A write to the word at an offset of the window, by its class (R153). -/
def State.windowWrite (s : State) (off : BitVec 10) (be : ByteEnables) (data : Word) : State :=
  match windowWord off with
  | .requestedTarget n => s.writeTarget n be data
  | .notify n => s.writeNotify n be data
  | .command =>
    match be with
    | ⟨true, true⟩ => s.writeCommand data []
    | ⟨true, false⟩ => s.writeCommandByte .upper data
    | ⟨false, true⟩ => s.writeCommandByte .lower data
    | ⟨false, false⟩ => s.forwardWrite (s.bus.addressOf off.toNat) be data
  | .argument i => s.writeArgument i be data
  | .noticeAcknowledge i => s.writeNoticeAcknowledge i be data
  | .configuration i => s.writeConfiguration i be data
  | .enable b => s.writeEnable b be data
  | .acknowledge b => s.writeAcknowledge b be data
  | .counterStart b => s.writeCounterStart b be data
  | .pattern l i => s.writePattern l i be data
  | .owned _ _ => s.droppedWrite off.toNat be data .ownedWordWrite
  | .free => s.forwardWrite (s.bus.addressOf off.toNat) be data

/-- A write at an address: forwarded outside the window, by its word inside (R151, R152). -/
def State.hostWrite (s : State) (addr : Addr) (be : ByteEnables) (data : Word) : State :=
  match s.bus.offsetOf addr with
  | some off => s.windowWrite off be data
  | none => s.forwardWrite addr be data

/-- The word of the part's that a read of an address is answered with, if that word is dirty (R160). -/
def State.dirtyWordAt (s : State) (addr : Addr) : Option Word :=
  match s.bus.offsetOf addr with
  | some off =>
    match (windowWord off).dirtyPlace with
    | some (r, k) => if (s.part.dirtyOf r).getLsbD k.val then some (s.part.wordOf r k.val) else none
    | none => none
  | none => none

/-- HOST_READ (R160): the data returned on the enabled lanes (log 28). -/
def State.hostRead (s : State) (addr : Addr) (be : ByteEnables) : State :=
  if s.bus.rstn then s
  else
    let g := s.grant
    { g with bus := { g.bus with readData := lanesOf be ((g.dirtyWordAt addr).getD (g.bus.wordAt addr)) } }

/-! ## Resets (R17, R51, R163, R165, R166, R182, R194) -/

/-- An assertion of RSTN. -/
def State.assertRstn (s : State) (straps : BitVec 3) : State :=
  { s with
    part := { s.part.hideItems.resetCommandUnit with dirty := allDirty }
    bus := { s.bus with
      straps := straps, list := allRecords, snapshot := some (ownedMask (.channel 0)), lastCycle := .host,
      pass := some allRecords, rstn := true } }

/-- The loops' first samples at power-on, each a change from NORMAL (R51). Their order, which decides the record the INPUT bank
keeps where several loops start in fault (R186), is the model's choice: zones 0 to 5, then GA (log 45). -/
def Part.firstSamples (p : Part) (zoneLoops : Vector LoopState 6) (gaLoop : LoopState) : Part :=
  (allZones.foldl (fun q z => q.changeLoop (.zone z) zoneLoops[z.val]) p).changeLoop .ga gaLoop

/-- POWER_ON_RESET: the RAM behind the part wakes with new contents (log 4). -/
def State.powerOn (s : State) (straps : BitVec 3) (zoneLoops : Vector LoopState 6) (gaLoop : LoopState)
    (rainActive : Bool) : State :=
  State.event { s with part := initialPart rainActive, bus := initialBus straps (s.bus.powerOns + 1) }
    (fun p => p.firstSamples zoneLoops gaLoop)

end Sys2Proof.Machine
end

