-- ==== Sys2Proof/Machine/BusAccess.lean ====
section
/-! DEFINITION. The meanings of the resets and of the bus accesses (R6, R7, R17, R140, R151 to R169, R171, R183, R188, R189, R192). -/

namespace Sys2Proof.Machine

/-- POWER_ON_RESET (R17, R51, R165). -/
def execPowerOnReset (straps : BitVec 3) (zoneLoops : Vector LoopState 6) (gaLoop : LoopState) (rainActive : Bool)
    (s : State) : Host.Outcome State Fault Refusal :=
  .next (s.powerOn straps zoneLoops gaLoop rainActive)

/-- RSTN (R166, R182, R194). -/
def execRstn (straps : BitVec 3) (s : State) : Host.Outcome State Fault Refusal :=
  .next (s.assertRstn straps)

/-- RSTN_DEASSERTION (R166): host accesses are taken again. -/
def execRstnDeassertion (s : State) : Host.Outcome State Fault Refusal :=
  .next { s with bus := { s.bus with rstn := false } }

/-- REQUESTED_TARGET_WRITE (R6, R156). -/
def execRequestedTargetWrite (n : ChannelId) (be : ByteEnables) (data : Word) (s : State) : Host.Outcome State Fault Refusal :=
  .next (s.writeTarget n be data)

/-- NOTIFY_WRITE (R7). -/
def execNotifyWrite (n : ChannelId) (be : ByteEnables) (data : Word) (s : State) : Host.Outcome State Fault Refusal :=
  .next (s.writeNotify n be data)

/-- CONFIGURATION_WRITE (R171). -/
def execConfigurationWrite (index : Fin 209) (be : ByteEnables) (data : Word) (s : State) : Host.Outcome State Fault Refusal :=
  .next (s.writeConfiguration index be data)

/-- ARGUMENT_WRITE (R169). -/
def execArgumentWrite (index : Fin 3) (be : ByteEnables) (data : Word) (s : State) : Host.Outcome State Fault Refusal :=
  .next (s.writeArgument index be data)

/-- PATTERN_WRITE (R140). -/
def execPatternWrite (l : LineId) (index : Fin 4) (be : ByteEnables) (data : Word) (s : State) : Host.Outcome State Fault Refusal :=
  .next (s.writePattern l index be data)

/-- ENABLE_WORD_WRITE (R183). -/
def execEnableWordWrite (b : BankId) (be : ByteEnables) (data : Word) (s : State) : Host.Outcome State Fault Refusal :=
  .next (s.writeEnable b be data)

/-- ACKNOWLEDGE_WORD_WRITE (R158, R189). -/
def execAcknowledgeWordWrite (b : BankId) (be : ByteEnables) (data : Word) (s : State) : Host.Outcome State Fault Refusal :=
  .next (s.writeAcknowledge b be data)

/-- COUNTER_START_WRITE (R158, R188). -/
def execCounterStartWrite (b : BankId) (be : ByteEnables) (data : Word) (s : State) : Host.Outcome State Fault Refusal :=
  .next (s.writeCounterStart b be data)

/-- NOTICE_ACKNOWLEDGE_WRITE (R158, R192). -/
def execNoticeAcknowledgeWrite (index : Fin 3) (be : ByteEnables) (data : Word) (s : State) : Host.Outcome State Fault Refusal :=
  .next (s.writeNoticeAcknowledge index be data)

/-- OWNED_WORD_WRITE (R159). An offset of another class is taken by its class (log 38). -/
def execOwnedWordWrite (offset : BitVec 10) (be : ByteEnables) (data : Word) (s : State) : Host.Outcome State Fault Refusal :=
  .next (s.windowWrite offset be data)

/-- COMMAND_BYTE_WRITE (R157). -/
def execCommandByteWrite (lane : Lane) (data : Word) (s : State) : Host.Outcome State Fault Refusal :=
  .next (s.writeCommandByte lane data)

/-- FORWARDED_WRITE (R151). An address of another word of the window is taken by its class (log 38). -/
def execForwardedWrite (addr : Addr) (be : ByteEnables) (data : Word) (s : State) : Host.Outcome State Fault Refusal :=
  .next (s.hostWrite addr be data)

/-- HOST_READ (R160). -/
def execHostRead (addr : Addr) (be : ByteEnables) (s : State) : Host.Outcome State Fault Refusal :=
  .next (s.hostRead addr be)

/-- WRITE_BACK_CYCLE (R162). -/
def execWriteBackCycle (s : State) : Host.Outcome State Fault Refusal :=
  .next s.writeBackCycle

end Sys2Proof.Machine
end

