-- ==== Sys2Proof/Machine/CommandWord.lean ====
section
/-! DEFINITION. The meanings of the commands of the command word (R133 to R135, R141, R148, R170 to R181). Each is the whole-word write of
its code; the arguments are those captured (R170, log 12). -/

namespace Sys2Proof.Machine

/-- CONFIG_COMMIT (R173). -/
def execConfigCommit (s : State) : Host.Outcome State Fault Refusal :=
  .next (s.writeCommand (codeOf .configCommit) [])

/-- FAULT_CLEAR (R174). -/
def execFaultClear (s : State) : Host.Outcome State Fault Refusal :=
  .next (s.writeCommand (codeOf .faultClear) [])

/-- LINE_STATE_RUN (R133, R137, R175). -/
def execLineStateRun (s : State) : Host.Outcome State Fault Refusal :=
  .next (s.writeCommand (codeOf .lineState) [])

/-- LINE_STATE_QUIET (R134, R175). -/
def execLineStateQuiet (s : State) : Host.Outcome State Fault Refusal :=
  .next (s.writeCommand (codeOf .lineState) [])

/-- LINE_STATE_DISABLED (R135, R175). -/
def execLineStateDisabled (s : State) : Host.Outcome State Fault Refusal :=
  .next (s.writeCommand (codeOf .lineState) [])

/-- TEST_START (R141, R176). -/
def execTestStart (s : State) : Host.Outcome State Fault Refusal :=
  .next (s.writeCommand (codeOf .testStart) [])

/-- TEST_STOP (R148, R177). -/
def execTestStop (s : State) : Host.Outcome State Fault Refusal :=
  .next (s.writeCommand (codeOf .testStop) [])

/-- RELEASE_BEGIN (R178). -/
def execReleaseBegin (s : State) : Host.Outcome State Fault Refusal :=
  .next (s.writeCommand (codeOf .releaseBegin) [])

/-- RELEASE_ZONES (R179). -/
def execReleaseZones (s : State) : Host.Outcome State Fault Refusal :=
  .next (s.writeCommand (codeOf .releaseZones) [])

/-- RELEASE_END (R65, R66, R180). -/
def execReleaseEnd (s : State) (changes : List LoopReport := []) : Host.Outcome State Fault Refusal :=
  .next (s.writeCommand (codeOf .releaseEnd) changes)

/-- UNKNOWN_COMMAND (R170). -/
def execUnknownCommand (code : Word) (s : State) : Host.Outcome State Fault Refusal :=
  .next (s.writeCommand code [])

/-- RELEASE_TIMER_EXPIRY (R181). -/
def execReleaseTimerExpiry (s : State) : Host.Outcome State Fault Refusal :=
  .next (s.event (fun p => p.releaseTimerExpiry))

end Sys2Proof.Machine
end

