-- ==== Sys2Proof/Machine/FireEvents.lean ====
section
/-! DEFINITION. The meanings of the events of the fire loops and zones (R47 to R64). -/

namespace Sys2Proof.Machine

/-- LOOP_CHANGE (R47). -/
def execLoopChange (loop : LoopId) (state : LoopState) (s : State) : Host.Outcome State Fault Refusal :=
  .next (s.event (fun p => p.changeLoop loop state))

/-- LEVEL_TIMER_EXPIRY (R49, R52 to R57). -/
def execLevelTimerExpiry (loop : LoopId) (s : State) : Host.Outcome State Fault Refusal :=
  .next (s.event (fun p => p.loopTimerExpiry loop .level))

/-- PULSE_TIMER_EXPIRY (R50, R52 to R57). -/
def execPulseTimerExpiry (loop : LoopId) (s : State) : Host.Outcome State Fault Refusal :=
  .next (s.event (fun p => p.loopTimerExpiry loop .pulse))

/-- COMPLETENESS_JUDGEMENT (R59, R60, R62, R64). -/
def execCompletenessJudgement (z : ZoneId) (s : State) : Host.Outcome State Fault Refusal :=
  .next (s.event (fun p => p.judgeZone z))

/-- DEADLINE_SECOND (R57, R61). -/
def execDeadlineSecond (z : ZoneId) (s : State) : Host.Outcome State Fault Refusal :=
  .next (s.event (fun p => p.deadlineSecond z))

/-- DEADLINE_EXPIRY (R61). -/
def execDeadlineExpiry (z : ZoneId) (s : State) : Host.Outcome State Fault Refusal :=
  .next (s.event (fun p => p.deadlineExpiry z))

/-- OVERRUN_SECOND (R62). -/
def execOverrunSecond (z : ZoneId) (s : State) : Host.Outcome State Fault Refusal :=
  .next (s.event (fun p => p.overrunSecond z))

end Sys2Proof.Machine
end

