-- ==== Sys2Proof/Machine/LineEvents.lean ====
section
/-! DEFINITION. The meanings of the events of the field lines, of their channels and of the line tests (R13, R86, R102 to R137, R143 to
R145). -/

namespace Sys2Proof.Machine

/-- TRANSACTION_START (R129, R130). -/
def execTransactionStart (l : LineId) (s : State) : Host.Outcome State Fault Refusal :=
  .next (s.event (fun p => p.startTransaction l))

/-- SEND (R102, R122). -/
def execSend (l : LineId) (s : State) : Host.Outcome State Fault Refusal :=
  .next (s.event (fun p => p.sendFrame l))

/-- ARBITRATION_LOSS (R127, R143). -/
def execArbitrationLoss (l : LineId) (place : LossPlace) (readBack : Pattern) (s : State) : Host.Outcome State Fault Refusal :=
  .next (s.event (fun p => p.loseArbitration l place readBack))

/-- REPLY_TIMEOUT (R123). -/
def execReplyTimeout (l : LineId) (s : State) : Host.Outcome State Fault Refusal :=
  .next (s.event (fun p => p.timeOut l))

/-- DAMAGED_FRAME (R120, R123, R124, R145). -/
def execDamagedFrame (l : LineId) (s : State) (heard : Reception := badCrcReception) : Host.Outcome State Fault Refusal :=
  .next (s.event (fun p => p.hearReception l heard))

/-- STATUS (R108, R123, R124). -/
def execStatus (l : LineId) (addr : BitVec 4) (position : Word) (motion faults : Byte) (s : State) : Host.Outcome State Fault Refusal :=
  .next (s.event (fun p => (p.frameSeen l).hearStatus l addr position motion faults))

/-- ACCEPT (R104, R114, R123, R124). -/
def execAccept (l : LineId) (addr : BitVec 4) (s : State) : Host.Outcome State Fault Refusal :=
  .next (s.event (fun p => (p.frameSeen l).hearAccept l addr))

/-- BUSY (R105, R114, R123, R124). -/
def execBusy (l : LineId) (addr : BitVec 4) (s : State) : Host.Outcome State Fault Refusal :=
  .next (s.event (fun p => (p.frameSeen l).hearBusy l addr))

/-- REFUSE (R106, R114, R123, R124). -/
def execRefuse (l : LineId) (addr : BitVec 4) (reason : Byte) (s : State) : Host.Outcome State Fault Refusal :=
  .next (s.event (fun p => (p.frameSeen l).hearRefuse l addr reason))

/-- KEY (R86 to R88, R123, R124, R145). -/
def execKey (l : LineId) (addr : BitVec 4) (zones command : Byte) (resultFirst : Bool) (s : State) : Host.Outcome State Fault Refusal :=
  .next (s.event (fun p => (p.frameSeen l).hearKey l addr zones command resultFirst))

/-- STATION_ANSWER (R128). -/
def execStationAnswer (l : LineId) (s : State) : Host.Outcome State Fault Refusal :=
  .next (s.event (fun p => p.sendAnswer l))

/-- BACKOFF_END (R105). -/
def execBackoffEnd (n : ChannelId) (s : State) : Host.Outcome State Fault Refusal :=
  .next (s.event (fun p => p.endBackoff n))

/-- TRAVEL_SECOND (R13, R113). -/
def execTravelSecond (n : ChannelId) (s : State) : Host.Outcome State Fault Refusal :=
  .next (s.event (fun p => p.travelSecond n))

/-- TRAVEL_EXPIRY (R113). -/
def execTravelExpiry (n : ChannelId) (s : State) : Host.Outcome State Fault Refusal :=
  .next (s.event (fun p => p.travelExpiry n))

/-- POLL_DUE (R131). -/
def execPollDue (n : ChannelId) (s : State) : Host.Outcome State Fault Refusal :=
  .next (s.event (fun p => p.pollFallsDue n))

/-- SUPERVISION_DUE (R132). -/
def execSupervisionDue (n : ChannelId) (s : State) : Host.Outcome State Fault Refusal :=
  .next (s.event (fun p => p.supervisionFallsDue n))

/-- STATION_WINDOW_DUE (R126). -/
def execStationWindowDue (l : LineId) (s : State) : Host.Outcome State Fault Refusal :=
  .next (s.event (fun p => p.windowFallsDue l))

/-- STATION_WINDOW_END (R126). -/
def execStationWindowEnd (l : LineId) (s : State) : Host.Outcome State Fault Refusal :=
  .next (s.event (fun p => p.endWindow l))

/-- LINE_STUCK (R136). -/
def execLineStuck (l : LineId) (s : State) (dominantFrom : Nat := 0) : Host.Outcome State Fault Refusal :=
  .next (s.event (fun p => p.lineStuck l dominantFrom))

/-- LINE_RECOVERY (R137). -/
def execLineRecovery (l : LineId) (s : State) (recessiveFrom : Nat := 0) : Host.Outcome State Fault Refusal :=
  .next (s.event (fun p => p.lineRecovery l recessiveFrom))

/-- TEST_FRAME_START (R142, R143). -/
def execTestFrameStart (l : LineId) (s : State) : Host.Outcome State Fault Refusal :=
  .next (s.event (fun p => p.startTestFrame l))

/-- LOCAL_ECHO_CHECK (R144). -/
def execLocalEchoCheck (l : LineId) (readBack : Pattern) (s : State) : Host.Outcome State Fault Refusal :=
  .next (s.event (fun p => p.checkLocalEcho l readBack))

/-- TEST_ECHO (R145). -/
def execTestEcho (l : LineId) (addr : BitVec 4) (received : List Byte) (crcGood : Bool) (s : State) : Host.Outcome State Fault Refusal :=
  .next (s.event (fun p => (p.frameSeen l).hearEcho l addr received crcGood))

/-- MISSING_ECHO (R145). -/
def execMissingEcho (l : LineId) (s : State) : Host.Outcome State Fault Refusal :=
  .next (s.event (fun p => p.missEcho l))

end Sys2Proof.Machine
end

