-- ==== Sys2Proof/Machine/WeatherEvents.lean ====
section
/-! DEFINITION. The meanings of the weather events (R71 to R79). -/

namespace Sys2Proof.Machine

/-- ANEMOMETER_PULSE (R71). -/
def execAnemometerPulse (s : State) : Host.Outcome State Fault Refusal :=
  .next (s.event (fun p => p.countPulse))

/-- WINDOW_END (R71 to R77). -/
def execWindowEnd (vane : BitVec 3) (order : PublicationOrder) (s : State) : Host.Outcome State Fault Refusal :=
  .next (s.event (fun p => p.endWindWindow vane order))

/-- RAIN_CONTACT_CHANGE (R78). -/
def execRainContactChange (active : Bool) (s : State) : Host.Outcome State Fault Refusal :=
  .next (s.event (fun p => p.changeRainContact active))

/-- RAIN_TIMER_EXPIRY (R78). -/
def execRainTimerExpiry (s : State) : Host.Outcome State Fault Refusal :=
  .next (s.event (fun p => p.rainTimerExpiry))

end Sys2Proof.Machine
end

