-- ==== Sys2Proof/Machine/Dispatch.lean ====
section
/-! DEFINITION. One arm per command: its meaning. -/

namespace Sys2Proof.Machine

def exec (i : Instr) (s : State) : Host.Outcome State Fault Refusal :=
  match i with
  | .powerOnReset straps zoneLoops gaLoop rainActive => Sys2Proof.Machine.execPowerOnReset straps zoneLoops gaLoop rainActive s
  | .rstn straps => Sys2Proof.Machine.execRstn straps s
  | .requestedTargetWrite n be data => Sys2Proof.Machine.execRequestedTargetWrite n be data s
  | .notifyWrite n be data => Sys2Proof.Machine.execNotifyWrite n be data s
  | .configurationWrite index be data => Sys2Proof.Machine.execConfigurationWrite index be data s
  | .argumentWrite index be data => Sys2Proof.Machine.execArgumentWrite index be data s
  | .patternWrite l index be data => Sys2Proof.Machine.execPatternWrite l index be data s
  | .enableWordWrite b be data => Sys2Proof.Machine.execEnableWordWrite b be data s
  | .acknowledgeWordWrite b be data => Sys2Proof.Machine.execAcknowledgeWordWrite b be data s
  | .counterStartWrite b be data => Sys2Proof.Machine.execCounterStartWrite b be data s
  | .noticeAcknowledgeWrite index be data => Sys2Proof.Machine.execNoticeAcknowledgeWrite index be data s
  | .ownedWordWrite offset be data => Sys2Proof.Machine.execOwnedWordWrite offset be data s
  | .commandByteWrite lane data => Sys2Proof.Machine.execCommandByteWrite lane data s
  | .forwardedWrite addr be data => Sys2Proof.Machine.execForwardedWrite addr be data s
  | .writeBackCycle => Sys2Proof.Machine.execWriteBackCycle s
  | .configCommit => Sys2Proof.Machine.execConfigCommit s
  | .faultClear => Sys2Proof.Machine.execFaultClear s
  | .lineStateRun => Sys2Proof.Machine.execLineStateRun s
  | .lineStateQuiet => Sys2Proof.Machine.execLineStateQuiet s
  | .lineStateDisabled => Sys2Proof.Machine.execLineStateDisabled s
  | .testStart => Sys2Proof.Machine.execTestStart s
  | .testStop => Sys2Proof.Machine.execTestStop s
  | .releaseBegin => Sys2Proof.Machine.execReleaseBegin s
  | .releaseZones => Sys2Proof.Machine.execReleaseZones s
  | .releaseEnd changes => Sys2Proof.Machine.execReleaseEnd s changes
  | .unknownCommand code => Sys2Proof.Machine.execUnknownCommand code s
  | .releaseTimerExpiry => Sys2Proof.Machine.execReleaseTimerExpiry s
  | .loopChange loop state => Sys2Proof.Machine.execLoopChange loop state s
  | .levelTimerExpiry loop => Sys2Proof.Machine.execLevelTimerExpiry loop s
  | .pulseTimerExpiry loop => Sys2Proof.Machine.execPulseTimerExpiry loop s
  | .completenessJudgement z => Sys2Proof.Machine.execCompletenessJudgement z s
  | .deadlineSecond z => Sys2Proof.Machine.execDeadlineSecond z s
  | .deadlineExpiry z => Sys2Proof.Machine.execDeadlineExpiry z s
  | .overrunSecond z => Sys2Proof.Machine.execOverrunSecond z s
  | .anemometerPulse => Sys2Proof.Machine.execAnemometerPulse s
  | .windowEnd vane order => Sys2Proof.Machine.execWindowEnd vane order s
  | .rainContactChange active => Sys2Proof.Machine.execRainContactChange active s
  | .rainTimerExpiry => Sys2Proof.Machine.execRainTimerExpiry s
  | .transactionStart l => Sys2Proof.Machine.execTransactionStart l s
  | .send l => Sys2Proof.Machine.execSend l s
  | .arbitrationLoss l place readBack => Sys2Proof.Machine.execArbitrationLoss l place readBack s
  | .replyTimeout l => Sys2Proof.Machine.execReplyTimeout l s
  | .damagedFrame l heard => Sys2Proof.Machine.execDamagedFrame l s heard
  | .status l addr position motion faults => Sys2Proof.Machine.execStatus l addr position motion faults s
  | .accept l addr => Sys2Proof.Machine.execAccept l addr s
  | .busy l addr => Sys2Proof.Machine.execBusy l addr s
  | .refuse l addr reason => Sys2Proof.Machine.execRefuse l addr reason s
  | .key l addr zones command resultFirst => Sys2Proof.Machine.execKey l addr zones command resultFirst s
  | .stationAnswer l => Sys2Proof.Machine.execStationAnswer l s
  | .backoffEnd n => Sys2Proof.Machine.execBackoffEnd n s
  | .travelSecond n => Sys2Proof.Machine.execTravelSecond n s
  | .travelExpiry n => Sys2Proof.Machine.execTravelExpiry n s
  | .pollDue n => Sys2Proof.Machine.execPollDue n s
  | .supervisionDue n => Sys2Proof.Machine.execSupervisionDue n s
  | .stationWindowDue l => Sys2Proof.Machine.execStationWindowDue l s
  | .stationWindowEnd l => Sys2Proof.Machine.execStationWindowEnd l s
  | .lineStuck l dominantFrom => Sys2Proof.Machine.execLineStuck l s dominantFrom
  | .lineRecovery l recessiveFrom => Sys2Proof.Machine.execLineRecovery l s recessiveFrom
  | .testFrameStart l => Sys2Proof.Machine.execTestFrameStart l s
  | .localEchoCheck l readBack => Sys2Proof.Machine.execLocalEchoCheck l readBack s
  | .testEcho l addr received crcGood => Sys2Proof.Machine.execTestEcho l addr received crcGood s
  | .missingEcho l => Sys2Proof.Machine.execMissingEcho l s
  | .hostRead addr be => Sys2Proof.Machine.execHostRead addr be s
  | .rstnDeassertion => Sys2Proof.Machine.execRstnDeassertion s

end Sys2Proof.Machine
end

