-- ==== Sys2Proof/Safety.lean ====
section
/-! DEFINITION. Safety properties of the machine: the invariants its steps keep, and what whole classes of events leave as
it was. -/

namespace Sys2Proof.Machine

/-! ## Invariants -/

/-- R161, R162: the write-back list holds no record twice, every record with a dirty word stands on it, and its head, where
there is one, is begun. -/
structure State.listCovers (s : State) : Prop where
  nodup : s.bus.list.Nodup
  covers : ∀ r : RecordId, s.part.dirtyOf r ≠ 0 → r ∈ s.bus.list
  begun : s.bus.snapshot = none ↔ s.bus.list = []

/-- R183, R187: a bank's counter stays within its range, and a bank without a record has neither overflow nor safety
lost. -/
structure Bank.inRange (b : Bank) : Prop where
  counter : b.counter ≤ thresholdCeiling
  lastStart : b.lastStart ≤ thresholdCeiling
  empty : b.record = none → b.overflow = false ∧ b.safetyLost = false

/-- R6, R169, R183: the captured requested targets, the command count and the banks stay within their ranges; and no line
that is at rest stays in QUIETING (R134). -/
structure Part.inRange (p : Part) : Prop where
  requested : ∀ n : ChannelId, (p.chan n).requested.toNat ≤ fullOpen
  count : p.cmd.count < 128
  bank : ∀ b : BankId, (p.bank b).inRange
  restless : ∀ l : LineId, (p.line l).state = .quieting → p.atRest l = false

/-- R16, R160, R162: an owned word without a dirty mark reads in memory as the part's value. -/
def State.coherent (s : State) : Prop :=
  ∀ (r : RecordId) (k : Fin 8), (ownedMask r).getLsbD k.val = true → (s.part.dirtyOf r).getLsbD k.val = false →
    s.bus.wordAt (s.bus.addressOf (recordOffset r + k.val)) = s.part.wordOf r k.val

/-- R16, R161: an owned word whose value changed is dirty. -/
def State.ChangesMarked (s t : State) : Prop :=
  ∀ (r : RecordId) (k : Fin 8), (ownedMask r).getLsbD k.val = true → t.part.wordOf r k.val ≠ s.part.wordOf r k.val →
    (t.part.dirtyOf r).getLsbD k.val = true

/-- R14, R15, R20, R96: what a channel's motion state fixes of its record. -/
structure Channel.fits (c : Channel) : Prop where
  unused : c.motion = .unused ↔ c.cfg.cls = .unused
  fault : c.fault.isSome = true ↔ c.motion = .faulted
  timed : c.travel ≠ none → c.motion = .queued ∨ c.motion = .ordering ∨ c.motion = .moving
  moving : c.motion = .moving → c.accepted ≠ none
  accepted : c.accepted ≠ none → (c.motion = .ordering ∨ c.motion = .moving) ∧ c.travel ≠ none
  unknown : c.motion = .unused ∨ c.motion = .offline → c.position = none ∧ c.report = none

/-- R14, R15, R97: an order on a line's queue is one of a channel bound to the line: an ORDER's channel is QUEUED, ORDERING or
MOVING, and where it has been sent before, QUEUED with the travel timer running; a HALT's channel is HALTING. -/
structure Order.fitsQueue (o : Order) (c : Channel) (l : LineId) : Prop where
  bound : c.boundTo l = true
  move : o.isHalt = false → c.motion = .queued ∨ c.motion = .ordering ∨ c.motion = .moving
  sent : o.isHalt = false → o.sent = true → c.motion = .queued ∧ c.travel ≠ none
  halt : o.isHalt = true → c.motion = .halting

/-- R14, R15, R122: an order in flight on a line is one of a channel bound to the line: an ORDER's channel is ORDERING, with the
travel timer running and no accepted target where it has been sent; a HALT's channel is HALTING and has no other order. -/
structure Order.fitsFlight (o : Order) (c : Channel) (l : LineId) (x : Line) : Prop where
  bound : c.boundTo l = true
  move : o.isHalt = false → c.motion = .ordering
  sent : o.isHalt = false → o.sent = true → c.travel ≠ none ∧ c.accepted = none
  halt : o.isHalt = true → c.motion = .halting ∧ x.queued o.channel = none

/-- R14, R15, R97, R122: the queue, the exchange and the channels of a line agree. -/
structure Part.lineFits (p : Part) (l : LineId) : Prop where
  single : ((p.line l).urgent ++ (p.line l).routine).Pairwise (fun a b => a.channel ≠ b.channel)
  queued : ∀ o ∈ (p.line l).urgent ++ (p.line l).routine, o.fitsQueue (p.chan o.channel) l
  inFlight : ∀ e o, (p.line l).exchange = some e → e.kind = .order o → o.fitsFlight (p.chan o.channel) l (p.line l)
  sent : ∀ e o, (p.line l).exchange = some e → e.kind = .order o → e.sentAt ≠ none → o.sent = true
  query : ∀ e n poll, (p.line l).exchange = some e → e.kind = .query n poll → (p.chan n).boundTo l = true
  retake : ∀ r, (p.line l).retake = some r → (p.chan r.channel).boundTo l = true
  idle : (p.line l).state = .quiet ∨ (p.line l).state = .test → ∀ e, (p.line l).exchange = some e → e.kind.channel = none
  out : (p.line l).state = .disabled ∨ (p.line l).state = .failed → (p.line l).exchange = none ∧
    ∀ n : ChannelId, (p.chan n).boundTo l = true → (p.chan n).motion = .offline ∨ (p.chan n).motion = .faulted

/-- R14, R96: a QUEUED channel has its order on its line's queue, and its travel timer runs only where that has been sent before;
an ORDERING one has its ORDER in flight there, and its travel timer runs only where that has been sent, or an earlier accepted
order is under way; a HALTING one has its HALT queued or in flight there. -/
structure Part.workFits (p : Part) (n : ChannelId) : Prop where
  queued : (p.chan n).motion = .queued → ∃ o, p.queuedOf n = some o ∧ ((p.chan n).travel ≠ none → o.sent = true)
  ordering : (p.chan n).motion = .ordering → ∃ o, (p.line (p.lineOf n)).inFlight n = some o ∧ o.isHalt = false ∧
    ((p.chan n).travel ≠ none → o.sent = true ∨ (p.chan n).accepted ≠ none)
  halting : (p.chan n).motion = .halting →
    p.queuedOf n ≠ none ∨ ∃ o, (p.line (p.lineOf n)).inFlight n = some o ∧ o.isHalt = true

/-- R14, R15, R97, R122: channels, queues and exchanges agree. -/
structure Part.motionFits (p : Part) : Prop where
  channel : ∀ n : ChannelId, (p.chan n).fits
  line : ∀ l : LineId, p.lineFits l
  work : ∀ n : ChannelId, p.workFits n

/-! ## What events leave as it was -/

/-- A bank after any number of errors taken (R185, R187). -/
inductive Bank.Grown (b : Bank) : Bank → Prop where
  | refl : Bank.Grown b b
  | take {c : Bank} (e : ErrorRecord) (h : Bank.Grown b c) : Bank.Grown b (c.take e).count

/-- A bank after the errors of a list, taken in its order (R185, R187). -/
def Bank.takeAll (b : Bank) (es : List ErrorRecord) : Bank := es.foldl (fun x e => (x.take e).count) b

/-- No captured value changed, nothing was acknowledged, the banks only took errors, the notice set only grew, the clock
did not go back, and the command count stayed in its range. -/
structure Part.KeepsCaptures (p q : Part) : Prop where
  now : p.now ≤ q.now
  requested : ∀ n : ChannelId, (q.chan n).requested = (p.chan n).requested
  notifyWord : ∀ n : ChannelId, (q.chan n).notifyWord = (p.chan n).notifyWord
  args : q.cmd.args = p.cmd.args
  pending : q.cmd.pending = p.cmd.pending
  pattern : ∀ l : LineId, (q.line l).test.pattern = (p.line l).test.pattern
  bank : ∀ b : BankId, (p.bank b).Grown (q.bank b)
  notices : p.notices ||| q.notices = q.notices
  noticeAcks : q.noticeAcks = p.noticeAcks
  count : p.cmd.count < 128 → q.cmd.count < 128

/-- Besides, no configuration, grant, zone, general alarm, weather or Command Unit field changed: what the Motion Unit and
the Field Line Controllers do. -/
structure Part.KeepsGrants (p q : Part) : Prop where
  captures : p.KeepsCaptures q
  zones : q.zones = p.zones
  ga : q.ga = p.ga
  weather : q.weather = p.weather
  globals : q.globals = p.globals
  cmd : q.cmd = p.cmd
  cfg : ∀ n : ChannelId, (q.chan n).cfg = (p.chan n).cfg
  granted : ∀ n : ChannelId, (q.chan n).granted = (p.chan n).granted
  governing : ∀ n : ChannelId, (q.chan n).governing = (p.chan n).governing
  freeze : ∀ n : ChannelId, (q.chan n).freeze = (p.chan n).freeze

/-- The Bus Gate as an event of the part leaves it: only the list grows at its tail, and a snapshot taken stands. -/
structure Bus.OnlyListGrows (a b : Bus) : Prop where
  straps : b.straps = a.straps
  mem : b.mem = a.mem
  powerOns : b.powerOns = a.powerOns
  list : a.list <+: b.list
  snapshot : ∀ m, a.snapshot = some m → b.snapshot = some m
  lastCycle : b.lastCycle = a.lastCycle
  pass : b.pass = a.pass
  rstn : b.rstn = a.rstn
  readData : b.readData = a.readData
  waited : b.waited = a.waited

/-- No byte of the RAM changed. -/
def Bus.SameBytes (a b : Bus) : Prop := ∀ k : Nat, b.byteAt k = a.byteAt k

/-- No byte of the RAM changed outside one word. -/
def Bus.SameBytesOutside (a b : Bus) (addr : Addr) : Prop :=
  ∀ k : Nat, k ≠ byteKey addr .upper → k ≠ byteKey addr .lower → b.byteAt k = a.byteAt k

/-- An event of the part: of the Bus Gate only the list grew, its head begun at once where it was empty (R162, log 8), and
the queue of commands stands. -/
structure State.EventOnly (s t : State) : Prop where
  bus : s.bus.OnlyListGrows t.bus
  begun : s.bus.snapshot = none → t.bus.snapshot = t.bus.list.head?.map t.part.dirtyOf
  queue : t.pending = s.pending

/-- A host write of one word, after its grant: only that word's bytes changed in the RAM, the list only grew, and the
queue of commands stands. -/
structure State.WritesOnly (s t : State) (addr : Addr) : Prop where
  bus : s.grant.bus.OnlyListGrows { t.bus with mem := s.grant.bus.mem }
  bytes : s.grant.bus.SameBytesOutside t.bus addr
  queue : t.pending = s.pending

/-- No record of a channel changed. -/
def Part.SameChans (p q : Part) : Prop := ∀ n : ChannelId, q.chan n = p.chan n
/-- No line changed, but one in QUIETING, which may have come to rest. -/
def Part.SameLines (p q : Part) : Prop := ∀ l : LineId, (p.line l).state ≠ .quieting → q.line l = p.line l
/-- No zone, nor the general alarm loop, changed. -/
def Part.SameZones (p q : Part) : Prop := q.zones = p.zones ∧ q.ga = p.ga
/-- No bank changed. -/
def Part.SameBanks (p q : Part) : Prop := ∀ b : BankId, q.bank b = p.bank b
/-- No bank but one changed. -/
def Part.SameBanksBut (p q : Part) (c : BankId) : Prop := ∀ b : BankId, b ≠ c → q.bank b = p.bank b
/-- The notice set and its acknowledge words stand. -/
def Part.SameNotices (p q : Part) : Prop := q.notices = p.notices ∧ q.noticeAcks = p.noticeAcks

/-! ## What a rule does to a queue or chooses from it -/

/-- R98: the class of an order by its channel's governing source. -/
def ruledClass (g : Source) : OrderClass := if g = .smoke ∨ g = .manual then .urgent else .routine

/-- R116: the severity of a channel's error by its governing source. -/
def ruledSeverity (c : Channel) : Severity := if c.governing = .smoke then .safety else .fault

/-- R20: the motion states that a line leaving service takes OFFLINE. -/
def working (m : Motion) : Bool :=
  match m with
  | .idle | .queued | .ordering | .moving | .halting => true
  | .faulted | .offline | .unused => false

/-- R18, R20, R116: the CHANNEL_OFFLINE errors of the channels that meet a condition, in ascending order. -/
def offlineErrors (p : Part) (due : ChannelId → Bool) : List ErrorRecord :=
  (allChannels.filter due).map (fun n => ⟨ruledSeverity (p.chan n), .channelOffline, some (.channel n), none⟩)

/-- R181: the GATE bank after an abandonment of the release sequence, where it was begun. -/
def gateAfterAbandonment (p : Part) : Bank :=
  if p.cmd.release = .idle then p.bank .gate
  else ((p.bank .gate).take ⟨.notice, .releaseAbandoned, none, none⟩).count

/-- Neither group of the queue changed. -/
structure Line.SameQueue (x y : Line) : Prop where
  urgent : y.urgent = x.urgent
  routine : y.routine = x.routine

/-- R97: the order joined the tail of its group. -/
structure Line.Joined (x y : Line) (o : Order) : Prop where
  urgent : y.urgent = (if o.cls = .urgent then x.urgent ++ [o] else x.urgent)
  routine : y.routine = (if o.cls = .routine then x.routine ++ [o] else x.routine)

/-- R97: the channel's order left the queue. -/
structure Line.Removed (x y : Line) (n : ChannelId) : Prop where
  urgent : y.urgent = x.urgent.filter (fun q => decide (q.channel ≠ n))
  routine : y.routine = x.routine.filter (fun q => decide (q.channel ≠ n))

/-- R98, R100: the target of the channel's queued order `o` became `g`: in its place where its class stands, at the tail of
the other group where it does not; a HALT stands as it is. -/
structure Line.Retargeted (x y : Line) (o : Order) (g : Nat) (cls : OrderClass) : Prop where
  halt : o.isHalt = true → x.SameQueue y
  inPlace : o.isHalt = false → o.cls = cls →
    y.urgent = x.urgent.map (fun q => if q.channel = o.channel then { q with work := .move g } else q) ∧
    y.routine = x.routine.map (fun q => if q.channel = o.channel then { q with work := .move g } else q)
  moved : o.isHalt = false → o.cls ≠ cls →
    y.urgent = x.urgent.filter (fun q => decide (q.channel ≠ o.channel)) ++
      (if cls = .urgent then [{ o with work := .move g, cls := cls }] else []) ∧
    y.routine = x.routine.filter (fun q => decide (q.channel ≠ o.channel)) ++
      (if cls = .routine then [{ o with work := .move g, cls := cls }] else [])

/-- The target under way at the node of a channel in ORDERING or MOVING: the in-flight ORDER's, or else the accepted one
(R101). -/
def currentTarget (x : Line) (c : Channel) (n : ChannelId) : Option Nat :=
  match x.exchange with
  | some ⟨.order o, _, _⟩ =>
    if o.channel = n then (match o.work with | .move g => some g | .halt _ => none) else c.accepted
  | _ => c.accepted

/-- R98 to R101: a grant notice for channel `n` with a new target takes its record from `c` to `d` and its line from `x` to
`y`, `limit` being the retry limit in force. -/
structure NoticeTaken (n : ChannelId) (limit : Nat) (c d : Channel) (x y : Line) : Prop where
  idle : ∀ g, d.granted = some g → c.motion = .idle →
    (withinTolerance c (some g) = true → d.motion = .idle ∧ x.SameQueue y) ∧
    (withinTolerance c (some g) = false → d.motion = .queued ∧
      x.Joined y ⟨.move g, n, ruledClass d.governing, limit, limit, false, none⟩)
  queued : ∀ g, d.granted = some g → c.motion = .queued →
    (withinTolerance c (some g) = true →
      d.motion = .idle ∧ d.travel = none ∧ d.shortMark = false ∧ x.Removed y n) ∧
    (withinTolerance c (some g) = false → d.motion = .queued ∧ d.travel = c.travel ∧ d.shortMark = c.shortMark ∧
      ∀ o, x.queued n = some o → x.Retargeted y o g (ruledClass d.governing))
  underWay : ∀ g, d.granted = some g → c.motion = .ordering ∨ c.motion = .moving →
    d.motion = c.motion ∧ d.travel = c.travel ∧ d.shortMark = c.shortMark ∧
    (currentTarget x c n = some g → x.Removed y n) ∧
    (currentTarget x c n ≠ some g →
      (∀ o, x.queued n = some o → x.Retargeted y o g (ruledClass d.governing)) ∧
      (x.queued n = none → x.Joined y ⟨.move g, n, ruledClass d.governing, limit, limit, false, none⟩)) ∧
    (∀ e o, x.exchange = some e → e.kind = .order o → o.channel = n → o.isHalt = false →
      y.exchange = some { e with kind := .order { o with cls := ruledClass d.governing } })
  waits : c.motion = .halting ∨ c.motion = .faulted ∨ c.motion = .offline ∨ c.motion = .unused →
    d.motion = c.motion ∧ d.travel = c.travel ∧ x.SameQueue y
  ungranted : d.granted = none → d.motion = c.motion ∧ d.travel = c.travel ∧ x.SameQueue y

/-- The first order of a group, in queue order, that has no backoff (R130). -/
def FirstReady (os : List Order) (o : Order) : Prop :=
  ∃ before after, os = before ++ o :: after ∧ o.backoff = none ∧ ∀ q ∈ before, q.backoff ≠ none

/-- The place of a channel in a round-robin that stands at a position: the channels after it, then from the lowest
(R131, R132). -/
def turnAfter (pos : Option ChannelId) (n : ChannelId) : Nat :=
  match pos with
  | none => n.val
  | some k => if k.val < n.val then n.val else n.val + 48

/-- The due channel whose turn is next (R131, R132). -/
def NextDue (pos : Option ChannelId) (due : ChannelId → Prop) (n : ChannelId) : Prop :=
  due n ∧ ∀ m : ChannelId, due m → turnAfter pos n ≤ turnAfter pos m

/-- R120: a reception that a receiver finds to be a damaged frame, one of kind TEST included. -/
def Damaged (r : Receiver) (h : Reception) : Prop :=
  (r.hear h).found = .damaged ∨ ∃ addr received, (r.hear h).found = .damagedEcho addr received

/-- The row of a valid frame that the part may receive as a reply, an echo or a station's command (R118); an ORDER, QUERY or HALT
has none. -/
def rowOf (l : LineId) : Frame → Option Instr
  | .key addr zones command => some (.key l addr zones command true)
  | .status addr position motion faults => some (.status l addr position motion faults)
  | .accept addr => some (.accept l addr)
  | .busy addr => some (.busy l addr)
  | .refuse addr reason => some (.refuse l addr reason)
  | .test addr bytes => some (.testEcho l addr bytes.toList true)
  | .order _ _ | .query _ | .halt _ => none

/-- A command whose accesses may reach a HOST-WRITTEN word, and power-on reset. -/
def writesCaptures : Instr → Bool
  | .powerOnReset .. | .requestedTargetWrite .. | .notifyWrite .. | .configurationWrite .. | .argumentWrite ..
  | .patternWrite .. | .enableWordWrite .. | .ownedWordWrite .. | .forwardedWrite .. => true
  | _ => false

/-- A command of the host's bus: an access, or a write of the command word. -/
def hostAccess : Instr → Bool
  | .requestedTargetWrite .. | .notifyWrite .. | .configurationWrite .. | .argumentWrite .. | .patternWrite ..
  | .enableWordWrite .. | .acknowledgeWordWrite .. | .counterStartWrite .. | .noticeAcknowledgeWrite ..
  | .ownedWordWrite .. | .commandByteWrite .. | .forwardedWrite .. | .configCommit | .faultClear | .lineStateRun
  | .lineStateQuiet | .lineStateDisabled | .testStart | .testStop | .releaseBegin | .releaseZones | .releaseEnd _
  | .unknownCommand _ | .hostRead .. => true
  | _ => false

/-- A command that is an event of the field lines, of their channels or of a line test, other than a KEY frame. -/
def lineEvent : Instr → Bool
  | .transactionStart _ | .send _ | .arbitrationLoss .. | .replyTimeout _ | .status .. | .accept ..
  | .busy .. | .refuse .. | .stationAnswer _ | .backoffEnd _ | .travelSecond _ | .travelExpiry _ | .pollDue _
  | .supervisionDue _ | .stationWindowDue _ | .stationWindowEnd _ | .lineStuck .. | .lineRecovery .. | .testFrameStart _
  | .localEchoCheck .. | .testEcho .. | .missingEcho _ => true
  | .damagedFrame _ heard => !isKeyReception heard
  | _ => false

/-- The write of the command word that a command stands for: its code (R169, R196). -/
def commandCodeOf : Instr → Option Word
  | .configCommit => some 1
  | .faultClear => some 2
  | .lineStateRun | .lineStateQuiet | .lineStateDisabled => some 3
  | .testStart => some 4
  | .testStop => some 5
  | .releaseBegin => some 6
  | .releaseZones => some 7
  | .releaseEnd _ => some 8
  | .unknownCommand code => some code
  | _ => none

end Sys2Proof.Machine
end

