-- ==== Sys2Proof/Certificates/Slice0/Obligations.lean ====
section
/-! DEFINITION. The statements for the provers. A model's choice named in a docstring is a row of notes/assumptions. -/

open Sys2Proof Sys2Proof.Machine

/-! ## The machine -/

/-- A step runs the command at the front of the queue on the state with the queue's rest. -/
def Obligations.StepRunsTheFrontCommand : Prop :=
  ∀ (c : Instr) (rest : List Instr) (s : State), s.pending = c :: rest →
    step s = Sys2Proof.Machine.exec c { s with pending := rest }

/-- On the empty queue one millisecond passes and nothing else changes (the model's choice, log 1). -/
def Obligations.IdleStepPassesOneMillisecond : Prop :=
  ∀ s : State, s.pending = [] → step s = .next { s with part := { s.part with now := s.part.now + 1 } }

/-- State.reset holds the values power-on reset gives: R2, R17 for the channels, R45, R46, R84 for the zones, R69, R78 for
the weather, R97, R121, R140 for the lines, whose window clocks and stuck watches start at the reset, R155, R169, R171, R173,
R178 for the commands, R183, R191, R192 for the banks and notices, R163, R165 for the Bus Gate. The straps, the first loop
samples and the rain contact are the model's (log 5), as are a first entry already begun (log 8), the clock's origin, from
which 250 and the stuck watch's 0 are instants, and that no frame of another sender is being received (log 33), that the
receivers look for a frame (log 50), and a RAM in which nothing is listed (log 4). -/
def Obligations.ResetHoldsThePowerOnValues : Prop :=
  let s := State.reset
  (∀ n : ChannelId,
    let c := s.part.chan n
    c.cfg = ⟨.dual, ⟨n.val / 8, by omega⟩, ⟨n.val / 12, by omega⟩, BitVec.ofNat 4 (n.val % 12 + 1), .opens, 0, true, true, 0,
      10, 120⟩ ∧
    c.requested = 0 ∧ c.notify = false ∧ c.granted = some 0 ∧ c.governing = .comfort ∧ c.freeze = none ∧
    c.motion = .offline ∧ c.position = none ∧ c.fault = none ∧ c.lastFault = none ∧ c.report = none ∧ c.travel = none ∧
    c.accepted = none ∧ c.miss = 0 ∧ c.shortMark = false ∧ c.supDue = true) ∧
  (∀ z : ZoneId,
    let x := s.part.zone z
    x.loop.cfg = ⟨.level, false⟩ ∧ x.smokeDeadline = 60 ∧ x.latch = false ∧ x.deadline = .idle ∧ x.remaining = none ∧
    x.overrun = 0 ∧ x.overrunRunning = false ∧ x.complete = true ∧ x.indicator = false ∧ x.override = none) ∧
  (s.part.weather.pulses = 0 ∧ s.part.weather.lastCount = none ∧ s.part.weather.storm = false ∧
    s.part.weather.setRun = 0 ∧ s.part.weather.clearRun = 0 ∧ s.part.weather.smokeWind = false ∧
    s.part.weather.lastSample = none ∧ s.part.weather.settled = none ∧ s.part.weather.rain = false ∧
    s.part.weather.rainState = .dry ∧ s.part.weather.rainFrom = none) ∧
  (∀ l : LineId,
    let x := s.part.line l
    x.state = .run ∧ x.urgent = [] ∧ x.routine = [] ∧ x.exchange = none ∧ x.pollPos = none ∧ x.supPos = none ∧
    x.retake = none ∧ x.receiving = false ∧ x.clock = some 250 ∧ x.window = .none ∧ x.answer = none ∧
    x.watch = .stuck 0 ∧ x.receiver = .looking ∧ x.test.pattern = Vector.replicate 4 0 ∧ x.test.kind = none ∧ x.test.target = none ∧
    x.test.result = none ∧ x.test.frames = 0 ∧ x.test.errors = 0 ∧ x.test.pair = none) ∧
  s.part.globals = ⟨2, 100, 60, 3, 30, 50, 5, 300, 3, 10⟩ ∧
  (s.part.cmd.args = Vector.replicate 3 0 ∧ s.part.cmd.generation = 0 ∧ s.part.cmd.last = none ∧
    s.part.cmd.outcome = .ready ∧ s.part.cmd.reason = none ∧ s.part.cmd.count = 0 ∧ s.part.cmd.resultA = none ∧
    s.part.cmd.resultB = none ∧ s.part.cmd.release = .idle) ∧
  (∀ n : ChannelId, pendingChannel s.part.cmd.pending n = (s.part.chan n).cfg) ∧
  pendingGlobals s.part.cmd.pending = s.part.globals ∧
  (∀ b : BankId,
    let x := s.part.bank b
    x.record = none ∧ x.overflow = false ∧ x.safetyLost = false ∧ x.reports = false ∧ x.counts = false ∧
    x.counter = 0 ∧ x.reached = false ∧ x.lastAck = none ∧ x.lastStart = 0) ∧
  (s.part.notices = 0 ∧ s.part.noticeAcks = Vector.replicate 3 0) ∧
  (s.bus.list = allRecords ∧ (∀ r : RecordId, s.part.dirtyOf r = ownedMask r) ∧ s.bus.lastCycle = .host ∧
    s.bus.pass = some allRecords ∧ s.bus.snapshot = some (ownedMask (.channel 0)) ∧ s.bus.mem.cells = [] ∧ s.attn = false) ∧
  s.pending = []

/-! ## Invariants -/

/-- Every step keeps the memory in its canonical form: the bytes written since power-on, in rising order of a byte key. The form
is the model's own representation of the host's RAM (log 4). -/
def Obligations.StepKeepsTheMemoryCanonical : Prop :=
  ∀ s t : State, s.bus.mem.wf → step s = .next t → t.bus.mem.wf

/-- R16, R160 to R162: every step keeps the write-back list free of repetition, covering every dirty record, and at most 73
long, with its head entry begun (at the moment it becomes the head, log 8). Every step marks dirty each part-owned word whose
value it changes (also the condition that changes at a window end of the same count and sample, log 49), and keeps every
part-owned word that is not dirty reading in memory as the part's value: outside a resynchronisation pass and, of the words
already rewritten, in one. -/
def Obligations.StepKeepsTheWriteBackListCovering : Prop :=
  ∀ s t : State, step s = .next t →
    (s.listCovers → t.listCovers ∧ t.bus.list.length ≤ 73) ∧ s.ChangesMarked t ∧ (s.coherent → t.coherent)

/-- R6, R134, R169, R183, R187: every step keeps captured requested targets, the command count and the banks in range, and
leaves no line that is at rest in QUIETING. R14, R15, R97, R122: every step keeps channels, queues and exchanges agreeing: a
queue holds at most one order for a channel, and only orders of channels bound to its line that are QUEUED, ORDERING or
MOVING, or HALTING for a HALT, so none of an UNUSED, OFFLINE or FAULTED one; an ORDERING channel has its ORDER in flight, a
QUEUED one an order queued, a HALTING one its HALT queued or in flight; a fault code is present in FAULTED alone, travel
elapsed in QUEUED, ORDERING and MOVING alone, and always in MOVING; an UNUSED or OFFLINE channel has no position and no
report; a line in QUIET or TEST has no transaction in flight, and one in DISABLED or FAILED nothing, with every channel of it
OFFLINE or FAULTED. -/
def Obligations.StepKeepsTheRanges : Prop :=
  ∀ s t : State, step s = .next t →
    (s.part.inRange → t.part.inRange) ∧ (s.part.motionFits → t.part.motionFits)

/-- The invariants of the steps hold at reset. -/
def Obligations.ResetSatisfiesTheInvariants : Prop :=
  State.reset.bus.mem.wf ∧ State.reset.listCovers ∧ State.reset.coherent ∧ State.reset.part.inRange ∧
    State.reset.part.motionFits

/-- R155, R171, R182: a captured value changes only by a host write that reaches a HOST-WRITTEN word, or by power-on reset;
every other command answers a next state in which every captured value is as it was. -/
def Obligations.CapturedValuesChangeOnlyByTheirWrites : Prop :=
  ∀ (c : Instr) (s : State), writesCaptures c = false →
    ∃ t, Sys2Proof.Machine.exec c s = .next t ∧
      (∀ n : ChannelId, (t.part.chan n).requested = (s.part.chan n).requested ∧
        (t.part.chan n).notifyWord = (s.part.chan n).notifyWord) ∧
      t.part.cmd.args = s.part.cmd.args ∧ t.part.cmd.pending = s.part.cmd.pending ∧
      (∀ l : LineId, (t.part.line l).test.pattern = (s.part.line l).test.pattern) ∧
      (∀ b : BankId, (t.part.bank b).enable = (s.part.bank b).enable)

/-- R152: the window base is the strap value times 131,072; it is read at power-on reset and at RSTN and kept by every other
command. -/
def Obligations.WindowBaseFollowsTheStrapsOfTheLastReset : Prop :=
  (∀ s : State, s.bus.base.toNat = s.bus.straps.toNat * 131072) ∧
  (∀ (s t : State) (straps : BitVec 3), Sys2Proof.Machine.exec (.rstn straps) s = .next t → t.bus.straps = straps) ∧
  (∀ (s t : State) (straps : BitVec 3) (zs : Vector LoopState 6) (ga : LoopState) (rain : Bool),
    Sys2Proof.Machine.exec (.powerOnReset straps zs ga rain) s = .next t → t.bus.straps = straps) ∧
  (∀ (c : Instr) (s t : State), (∀ straps, c ≠ .rstn straps) → (∀ straps zs ga rain, c ≠ .powerOnReset straps zs ga rain) →
    Sys2Proof.Machine.exec c s = .next t → t.bus.straps = s.bus.straps)

/-! ## Host writes -/

/-- R26 to R29, R32: the governing order. An UNUSED channel has no source and no target; an override reaches VENT and DUAL
channels, 1,000 or 0; else a set latch gives the smoke target, 0 for OPEN when windward and 1,000 when not, 0 for CLOSE, its
freeze for HOLD (that a HOLD channel always has one there is log 27); else rain or storm, where the channel closes on it,
gives 0; else COMFORT, 0 for VENT and the lower of requested target and comfort limit. R6, R34, R155, R156: a write of a
requested target captures the merged word, at most 1,000; forwards it whole; records TARGET_CLAMPED when the merged word was
above 1,000; and gives the channel the result of the governing order. A result other than the one it had is a grant notice
(R33), taken by the channel's motion state (R98 to R101, NoticeTaken): IDLE out of tolerance becomes QUEUED with a new ORDER
at the tail of its group; a QUEUED order is retargeted in its place, moved to the tail of the other group where its class
changes, or removed within tolerance; a channel in ORDERING or MOVING gets, keeps retargeted or loses its superseding order;
in the other states nothing more happens. Every other channel, the other units, the other banks and every other byte of the
RAM stand. That TARGET_CLAMPED marks every word the part writes in the GATE record is log 44. -/
def Obligations.RequestedTargetWriteCapturesAndRecomputes : Prop :=
  (∀ (w : Weather) (z : Zone) (c : Channel),
    let overridden : Prop := z.override ≠ none ∧ (c.cfg.cls = .vent ∨ c.cfg.cls = .dual)
    let weather : Prop := (w.rain = true ∧ c.cfg.rainClose = true) ∨ (w.storm = true ∧ c.cfg.stormClose = true)
    let windward : Prop := w.smokeWind = true ∧ ∃ k, w.settled = some k ∧ c.cfg.facing.getLsbD k.val = true
    (c.cfg.cls = .unused → governs w z c = (.none, none)) ∧
    (c.cfg.cls ≠ .unused →
      (overridden → ∀ o, z.override = some o →
        (o.value = .opens → governs w z c = (.manual, some 1000)) ∧ (o.value = .closes → governs w z c = (.manual, some 0))) ∧
      (¬ overridden → z.latch = true →
        (c.cfg.smokeAction = .opens → windward → governs w z c = (.smoke, some 0)) ∧
        (c.cfg.smokeAction = .opens → ¬ windward → governs w z c = (.smoke, some 1000)) ∧
        (c.cfg.smokeAction = .closes → governs w z c = (.smoke, some 0)) ∧
        (∀ f, c.cfg.smokeAction = .holds → c.freeze = some f → governs w z c = (.smoke, some f))) ∧
      (¬ overridden → z.latch = false → weather → governs w z c = (.weather, some 0)) ∧
      (¬ overridden → z.latch = false → ¬ weather →
        (c.cfg.cls = .vent → governs w z c = (.comfort, some 0)) ∧
        (c.cfg.cls ≠ .vent → governs w z c = (.comfort, some (min c.requested.toNat c.cfg.comfortLimit)))))) ∧
  ∀ (s : State) (n : ChannelId) (be : ByteEnables) (data : Word), s.bus.rstn = false → be.some = true →
    let merged := merge be data (s.part.chan n).requested
    let w : Word := if 1000 < merged.toNat then 1000 else merged
    let addr := s.bus.addressOf (8 * n.val)
    ∃ t, Sys2Proof.Machine.exec (.requestedTargetWrite n be data) s = .next t ∧
      (t.part.chan n).requested = w ∧ t.bus.wordAt addr = w ∧
      ((t.part.chan n).governing, (t.part.chan n).granted) =
        governs s.part.weather (s.part.zone (s.part.chan n).cfg.zone) { s.part.chan n with requested := w } ∧
      t.part.bank .gate =
        (if 1000 < merged.toNat then
          ((s.grant.part.bank .gate).take ⟨.notice, .targetClamped, some (.channel n), none⟩).count
        else s.grant.part.bank .gate) ∧
      (1000 < merged.toNat → RecordId.bank .gate ∈ t.bus.list ∧
        t.part.dirtyOf (.bank .gate) &&& ownedMask (.bank .gate) = ownedMask (.bank .gate)) ∧
      (let c := s.part.chan n;
        let x := s.part.line c.cfg.line
        let y := t.part.line c.cfg.line
        let result := governs s.part.weather (s.part.zone c.cfg.zone) { c with requested := w }
        ((c.governing, c.granted) = result → t.part.chan n = { c with requested := w } ∧ x.SameQueue y) ∧
        ((c.governing, c.granted) ≠ result → NoticeTaken n s.part.globals.retryLimit c (t.part.chan n) x y) ∧
        (x.state ≠ .quieting →
          { y with urgent := x.urgent, routine := x.routine, exchange := x.exchange, retake := x.retake } = x)) ∧
      (t.part.chan n).cfg = (s.part.chan n).cfg ∧ (t.part.chan n).notifyWord = (s.part.chan n).notifyWord ∧
      (t.part.chan n).position = (s.part.chan n).position ∧ (t.part.chan n).report = (s.part.chan n).report ∧
      (t.part.chan n).fault = (s.part.chan n).fault ∧ (t.part.chan n).lastFault = (s.part.chan n).lastFault ∧
      (t.part.chan n).accepted = (s.part.chan n).accepted ∧ (t.part.chan n).freeze = (s.part.chan n).freeze ∧
      (t.part.chan n).miss = (s.part.chan n).miss ∧
      (∀ m : ChannelId, m ≠ n → t.part.chan m = s.part.chan m) ∧
      (∀ l : LineId, l ≠ (s.part.chan n).cfg.line → (s.part.line l).state ≠ .quieting → t.part.line l = s.part.line l) ∧
      s.part.SameZones t.part ∧ t.part.weather = s.part.weather ∧ t.part.globals = s.part.globals ∧
      t.part.cmd = s.part.cmd ∧ s.grant.part.SameBanksBut t.part .gate ∧ s.part.SameNotices t.part ∧
      s.WritesOnly t addr

/-- R7, R140, R155, R169, R171, R183, R197: a write of a notify, configuration, argument, pattern or enable word captures the
merged word and forwards it whole; nothing else of the part changes, and no other byte of the RAM. Notify is then on exactly
when the word is not 0; count enable is bit 1 of an enable word and report enable bit 0. R151: a write of any word of the
window with neither byte enable active is forwarded, writes no byte and captures nothing: the state is the one in which the
access has its grant. -/
def Obligations.CapturedWordWritesTakeTheMerge : Prop :=
  (∀ (s : State) (be : ByteEnables) (data : Word), s.bus.rstn = false → be.some = true →
    (∀ n : ChannelId,
      let w := merge be data (s.part.chan n).notifyWord
      let addr := s.bus.addressOf (8 * n.val + 1)
      ∃ t, Sys2Proof.Machine.exec (.notifyWrite n be data) s = .next t ∧
        t.part.chan n = { s.part.chan n with notifyWord := w } ∧ (t.part.chan n).notify = decide (w ≠ 0) ∧
        (∀ m : ChannelId, m ≠ n → t.part.chan m = s.part.chan m) ∧
        t.bus.wordAt addr = w ∧
        s.part.SameLines t.part ∧ s.part.SameZones t.part ∧ t.part.weather = s.part.weather ∧
        t.part.globals = s.part.globals ∧ t.part.cmd = s.part.cmd ∧ s.grant.part.SameBanks t.part ∧
        s.part.SameNotices t.part ∧ s.WritesOnly t addr) ∧
    (∀ i : Fin 209,
      let w := merge be data s.part.cmd.pending[i.val]
      let addr := s.bus.addressOf (0x200 + i.val)
      ∃ t, Sys2Proof.Machine.exec (.configurationWrite i be data) s = .next t ∧
        t.part.cmd = { s.part.cmd with pending := s.part.cmd.pending.set i.val w } ∧ t.bus.wordAt addr = w ∧
        s.part.SameChans t.part ∧ s.part.SameLines t.part ∧ s.part.SameZones t.part ∧ t.part.weather = s.part.weather ∧
        t.part.globals = s.part.globals ∧ s.grant.part.SameBanks t.part ∧ s.part.SameNotices t.part ∧
        s.WritesOnly t addr) ∧
    (∀ i : Fin 3,
      let w := merge be data s.part.cmd.args[i.val]
      let addr := s.bus.addressOf (0x1D1 + i.val)
      ∃ t, Sys2Proof.Machine.exec (.argumentWrite i be data) s = .next t ∧
        t.part.cmd = { s.part.cmd with args := s.part.cmd.args.set i.val w } ∧ t.bus.wordAt addr = w ∧
        s.part.SameChans t.part ∧ s.part.SameLines t.part ∧ s.part.SameZones t.part ∧ t.part.weather = s.part.weather ∧
        t.part.globals = s.part.globals ∧ s.grant.part.SameBanks t.part ∧ s.part.SameNotices t.part ∧
        s.WritesOnly t addr) ∧
    (∀ (l : LineId) (i : Fin 4),
      let w := merge be data (s.part.line l).test.pattern[i.val]
      let addr := s.bus.addressOf (0x340 + 8 * l.val + i.val)
      ∃ t, Sys2Proof.Machine.exec (.patternWrite l i be data) s = .next t ∧
        (t.part.line l).test = { (s.part.line l).test with pattern := (s.part.line l).test.pattern.set i.val w } ∧
        ((s.part.line l).state ≠ .quieting → t.part.line l = { s.part.line l with test := (t.part.line l).test }) ∧
        (∀ k : LineId, k ≠ l → (s.part.line k).state ≠ .quieting → t.part.line k = s.part.line k) ∧
        t.bus.wordAt addr = w ∧
        s.part.SameChans t.part ∧ s.part.SameZones t.part ∧ t.part.weather = s.part.weather ∧
        t.part.globals = s.part.globals ∧ t.part.cmd = s.part.cmd ∧ s.grant.part.SameBanks t.part ∧
        s.part.SameNotices t.part ∧ s.WritesOnly t addr) ∧
    (∀ b : BankId,
      let w := merge be data (s.part.bank b).enable
      let addr := s.bus.addressOf (0x300 + 8 * bankNumber b + 4)
      ∃ t, Sys2Proof.Machine.exec (.enableWordWrite b be data) s = .next t ∧
        t.part.bank b = { s.grant.part.bank b with enable := w } ∧ (t.part.bank b).counts = w.getLsbD 1 ∧
        (t.part.bank b).reports = w.getLsbD 0 ∧ s.grant.part.SameBanksBut t.part b ∧
        t.bus.wordAt addr = w ∧
        s.part.SameChans t.part ∧ s.part.SameLines t.part ∧ s.part.SameZones t.part ∧ t.part.weather = s.part.weather ∧
        t.part.globals = s.part.globals ∧ t.part.cmd = s.part.cmd ∧ s.part.SameNotices t.part ∧ s.WritesOnly t addr)) ∧
  ∀ (s : State) (data : Word), s.bus.rstn = false →
    let nothing (c : Instr) : Prop := Sys2Proof.Machine.exec c s = .next s.grant
    (∀ n : ChannelId, nothing (.requestedTargetWrite n ⟨false, false⟩ data) ∧ nothing (.notifyWrite n ⟨false, false⟩ data)) ∧
    (∀ i : Fin 209, nothing (.configurationWrite i ⟨false, false⟩ data)) ∧
    (∀ i : Fin 3, nothing (.argumentWrite i ⟨false, false⟩ data) ∧
      nothing (.noticeAcknowledgeWrite i ⟨false, false⟩ data)) ∧
    (∀ (l : LineId) (i : Fin 4), nothing (.patternWrite l i ⟨false, false⟩ data)) ∧
    (∀ b : BankId, nothing (.enableWordWrite b ⟨false, false⟩ data) ∧
      nothing (.acknowledgeWordWrite b ⟨false, false⟩ data) ∧ nothing (.counterStartWrite b ⟨false, false⟩ data)) ∧
    (∀ off : BitVec 10, nothing (.ownedWordWrite off ⟨false, false⟩ data))

/-- R158, R189: a write to an acknowledge word is read as a kind code. A record of that kind is cleared, with overflow and
safety lost; another record stands and ACK_MISMATCH is recorded in GATE, after the comparison; with no record nothing is
recorded. The last acknowledgement is the low 8 bits of the code with the outcome; the counter, threshold reached and the
enables stand. No memory cycle is made, and the word is marked dirty. -/
def Obligations.AcknowledgeClearsTheNamedKind : Prop :=
  ∀ (s : State) (b : BankId) (be : ByteEnables) (data : Word), s.bus.rstn = false → be.some = true →
    let code := merge be data (s.part.wordOf (.bank b) 6)
    let x := s.part.bank b
    ∃ t, Sys2Proof.Machine.exec (.acknowledgeWordWrite b be data) s = .next t ∧
      (∀ r, x.record = some r → errorKindCode r.kind = code.toNat →
        t.part.bank b = { x with record := none, overflow := false, safetyLost := false, recordShown := false,
                                 lastAck := some (code.extractLsb' 0 8, .cleared) } ∧
        (b ≠ .gate → t.part.bank .gate = s.part.bank .gate)) ∧
      (∀ r, x.record = some r → errorKindCode r.kind ≠ code.toNat →
        (b ≠ .gate → t.part.bank b = { x with lastAck := some (code.extractLsb' 0 8, .mismatch) } ∧
          t.part.bank .gate = ((s.part.bank .gate).take
            ⟨.notice, .ackMismatch, some (.offset (0x300 + 8 * bankNumber b + 6)), none⟩).count) ∧
        (b = .gate → t.part.bank .gate = (({ x with lastAck := some (code.extractLsb' 0 8, .mismatch) } : Bank).take
            ⟨.notice, .ackMismatch, some (.offset 0x306), none⟩).count ∧ (t.part.bank .gate).overflow = true)) ∧
      (x.record = none → t.part.bank b = { x with lastAck := some (code.extractLsb' 0 8, .empty) } ∧
        (b ≠ .gate → t.part.bank .gate = s.part.bank .gate)) ∧
      (∀ c : BankId, c ≠ b → c ≠ .gate → t.part.bank c = s.part.bank c) ∧
      (t.part.dirtyOf (.bank b)).getLsbD 6 = true ∧
      s.part.SameChans t.part ∧ s.part.SameLines t.part ∧ s.part.SameZones t.part ∧ t.part.weather = s.part.weather ∧
      t.part.globals = s.part.globals ∧ t.part.cmd = s.part.cmd ∧ s.part.SameNotices t.part ∧
      t.bus.mem = s.bus.mem ∧ t.bus.waited = false

/-- R158, R188: a write to a counter-start word sets the counter and the last counter start to the merged word, at most
4,095, and threshold reached to no, whatever the enables; nothing else changes, and no memory cycle is made. -/
def Obligations.CounterStartSetsTheCounter : Prop :=
  ∀ (s : State) (b : BankId) (be : ByteEnables) (data : Word), s.bus.rstn = false → be.some = true →
    let start := min (merge be data (s.part.wordOf (.bank b) 7)).toNat 4095
    ∃ t, Sys2Proof.Machine.exec (.counterStartWrite b be data) s = .next t ∧
      t.part.bank b =
        { s.part.bank b with counter := start, lastStart := start, reached := false, thresholdShown := false } ∧
      s.part.SameBanksBut t.part b ∧ (t.part.dirtyOf (.bank b)).getLsbD 7 = true ∧
      s.part.SameChans t.part ∧ s.part.SameLines t.part ∧ s.part.SameZones t.part ∧ t.part.weather = s.part.weather ∧
      t.part.globals = s.part.globals ∧ t.part.cmd = s.part.cmd ∧ s.part.SameNotices t.part ∧
      t.bus.mem = s.bus.mem ∧ t.bus.waited = false

/-- R158, R192, R193: a write to notice acknowledge word i removes the named members, channels 16 i to 16 i + 15, from the
notice set; the word's value becomes the set removed; other channels stay members; the notices item keeps its shown mark, but
loses it when the set becomes empty. -/
def Obligations.NoticeAcknowledgeRemovesTheNamedMembers : Prop :=
  ∀ (s : State) (i : Fin 3) (be : ByteEnables) (data : Word), s.bus.rstn = false → be.some = true →
    let w := merge be data s.part.noticeAcks[i.val]
    ∃ t, Sys2Proof.Machine.exec (.noticeAcknowledgeWrite i be data) s = .next t ∧
      (∀ k : Nat, k < 48 → t.part.notices.getLsbD k =
        (s.part.notices.getLsbD k && !(decide (k / 16 = i.val) && w.getLsbD (k % 16)))) ∧
      (∀ k : Nat, k < 16 → (t.part.noticeAcks[i.val]).getLsbD k =
        (s.part.notices.getLsbD (16 * i.val + k) && w.getLsbD k)) ∧
      t.part.noticesShown = (s.part.noticesShown && decide (t.part.notices ≠ 0)) ∧
      (∀ j : Fin 3, j ≠ i → t.part.noticeAcks[j.val] = s.part.noticeAcks[j.val]) ∧
      (t.part.dirtyOf .notice).getLsbD (3 + i.val) = true ∧
      s.part.SameChans t.part ∧ s.part.SameLines t.part ∧ s.part.SameZones t.part ∧ t.part.weather = s.part.weather ∧
      t.part.globals = s.part.globals ∧ t.part.cmd = s.part.cmd ∧ s.part.SameBanks t.part ∧
      t.bus.mem = s.bus.mem ∧ t.bus.waited = false

/-- R157, R159, R167: a write to a PART-OWNED word, and a byte write to the command word, are dropped: the GATE bank takes a
notice with the word's offset, and nothing else of the part, and nothing of the RAM, changes; the release sequence stands.
Each is a change of the GATE bank record, also where the bank's fields stay as they were: its words are dirty, all that the
part writes (log 44), and it is on the write-back list. Every other record keeps its dirty marks, but for the line record of a
line in QUIETING (R134); that the words of the GATE record are marked also where the dropped write was to one of them, against
R159's last sentence, is log 51. -/
def Obligations.OwnedWordAndCommandByteWritesAreDropped : Prop :=
  ∀ (s : State) (data : Word), s.bus.rstn = false →
    let otherMarksStand (t : State) : Prop :=
      ∀ r : RecordId, r ≠ .bank .gate → (∀ k : LineId, r = .line k → (s.part.line k).state ≠ .quieting) →
        t.part.dirtyOf r = s.part.dirtyOf r
    (∀ (off : BitVec 10) (be : ByteEnables), be.some = true → (windowWord off).cls = .partOwned →
      ∃ t, Sys2Proof.Machine.exec (.ownedWordWrite off be data) s = .next t ∧
        t.part.bank .gate =
          ((s.part.bank .gate).take ⟨.notice, .ownedWordWrite, some (.offset off.toNat), none⟩).count ∧
        s.part.SameBanksBut t.part .gate ∧ s.part.SameChans t.part ∧ s.part.SameLines t.part ∧
        s.part.SameZones t.part ∧ t.part.weather = s.part.weather ∧ t.part.globals = s.part.globals ∧
        t.part.cmd = s.part.cmd ∧ s.part.SameNotices t.part ∧ t.bus.mem = s.bus.mem ∧ t.bus.waited = false ∧
        RecordId.bank .gate ∈ t.bus.list ∧
        t.part.dirtyOf (.bank .gate) &&& ownedMask (.bank .gate) = ownedMask (.bank .gate) ∧ otherMarksStand t) ∧
    (∀ lane : Lane,
      ∃ t, Sys2Proof.Machine.exec (.commandByteWrite lane data) s = .next t ∧
        t.part.bank .gate = ((s.part.bank .gate).take ⟨.notice, .commandByteWrite, some (.offset 0x1D0), none⟩).count ∧
        s.part.SameBanksBut t.part .gate ∧ s.part.SameChans t.part ∧ s.part.SameLines t.part ∧
        s.part.SameZones t.part ∧ t.part.weather = s.part.weather ∧ t.part.globals = s.part.globals ∧
        t.part.cmd = s.part.cmd ∧ s.part.SameNotices t.part ∧ t.bus.mem = s.bus.mem ∧ t.bus.waited = false ∧
        RecordId.bank .gate ∈ t.bus.list ∧
        t.part.dirtyOf (.bank .gate) &&& ownedMask (.bank .gate) = ownedMask (.bank .gate) ∧ otherMarksStand t)

/-- R151: a write outside the window, or to a FREE word, reaches the memory with the host's byte enables and data; the part
and every byte not enabled are as the grant left them. -/
def Obligations.ForwardedWriteReachesTheMemoryUnchanged : Prop :=
  ∀ (s : State) (addr : Addr) (be : ByteEnables) (data : Word), s.bus.rstn = false →
    (∀ off, s.bus.offsetOf addr = some off → windowWord off = .free) →
    ∃ t, Sys2Proof.Machine.exec (.forwardedWrite addr be data) s = .next t ∧
      (be.upper = true → t.bus.byteAt (byteKey addr .upper) = data.extractLsb' 8 8) ∧
      (be.lower = true → t.bus.byteAt (byteKey addr .lower) = data.extractLsb' 0 8) ∧
      (∀ k : Nat, (be.upper = true → k ≠ byteKey addr .upper) → (be.lower = true → k ≠ byteKey addr .lower) →
        t.bus.byteAt k = s.grant.bus.byteAt k) ∧
      t.part = s.grant.part ∧ { t.bus with mem := s.grant.bus.mem } = s.grant.bus ∧ t.pending = s.pending

/-- R160: a read returns, on the enabled lanes, the part's value where the word read is PART-OWNED or CAPTURED-ONLY and dirty
when the port is granted, and the memory's data otherwise; that a lane not enabled carries no value, and a read with no byte
enable none at all, is log 28; it changes neither the part, the list nor the RAM. R196, R197: the part's value of each word
it writes, field by field, with the codes of its items and ones where an item is absent: channel, zone, line, command status,
global status, notice, bank and line test records. The number of the general alarm loop in a subject word is 0 by the model's
choice (log 34). -/
def Obligations.HostReadReturnsTheCurrentValue : Prop :=
  (∀ (s : State) (addr : Addr) (be : ByteEnables), s.bus.rstn = false →
    let g := s.grant
    ∃ t, Sys2Proof.Machine.exec (.hostRead addr be) s = .next t ∧
      (∀ off r k, s.bus.offsetOf addr = some off → (windowWord off).dirtyPlace = some (r, k) →
        (g.part.dirtyOf r).getLsbD k.val = true → t.bus.readData = lanesOf be (g.part.wordOf r k.val)) ∧
      ((∀ off r k, s.bus.offsetOf addr = some off → (windowWord off).dirtyPlace = some (r, k) →
        (g.part.dirtyOf r).getLsbD k.val = false) → t.bus.readData = lanesOf be (g.bus.wordAt addr)) ∧
      t.part = g.part ∧ { t.bus with readData := g.bus.readData } = g.bus ∧ t.pending = s.pending) ∧
  ∀ p : Part,
    let orOnes (v : Option Nat) : Word := match v with | none => 0xFFFF | some k => BitVec.ofNat 16 k
    let detail12 (f : FaultCode) : Nat := match f with
      | .refused r => r.toNat | .nodeFault b => b.toNat | .noResponse k | .checkError k | .haltUnconfirmed k => k
      | .shortTravel v => v.getD 0xFFF | .travelTimeout k => k
    let faultBits (f : FaultCode) : Word :=
      (match f with
        | .refused _ => 1 | .nodeFault _ => 2 | .noResponse _ => 3 | .checkError _ => 4 | .shortTravel _ => 5
        | .travelTimeout _ => 6 | .haltUnconfirmed _ => 7 : BitVec 4) ++ BitVec.ofNat 12 (detail12 f)
    let loopBits (x : LoopState) : Byte := match x with
      | .normal => 0 | .alarm => 1 | .openCircuit => 2 | .shortCircuit => 3
    let reasonBits (r : Reason) : BitVec 3 := match r with
      | .badArg => 1 | .wrongState => 2 | .smokeActive => 3 | .sequence => 4 | .configInvalid => 5
    (∀ n : ChannelId,
      let c := p.chan n
      let word (k : Nat) : Word := p.wordOf (.channel n) k
      word 2 = orOnes c.granted ∧
      word 3 = (match c.governing with | .comfort => 0 | .weather => 1 | .smoke => 2 | .manual => 3 | .none => 0xFF : Byte) ++
        (match c.motion with
          | .idle => 0 | .queued => 1 | .ordering => 2 | .moving => 3 | .halting => 4 | .faulted => 5 | .offline => 6
          | .unused => 0xFF : Byte) ∧
      word 4 = orOnes c.position ∧
      ((∀ e, c.travel = some e → e < 4096) →
        word 5 = (match c.report with
            | none => 0xF
            | some r => BitVec.ofBool r.endClosed ++ (BitVec.ofBool r.endOpen ++
                (match r.motion with | .stopped => 0 | .opening => 1 | .closing => 2 : BitVec 2)) : BitVec 4) ++
          (match c.travel with | none => 0xFFF | some e => BitVec.ofNat 12 e : BitVec 12)) ∧
      (c.fault = none → word 6 = 0xFFFF) ∧ (∀ f, c.fault = some f → detail12 f < 4096 → word 6 = faultBits f) ∧
      (c.lastFault = none → word 7 = 0xFFFF) ∧ (∀ f, c.lastFault = some f → detail12 f < 4096 → word 7 = faultBits f)) ∧
    (∀ z : ZoneId,
      let x := p.zone z
      let word (k : Nat) : Word := p.wordOf (.zone z) k
      word 0 = loopBits x.loop.state ++ ((0 : BitVec 5) ++ (BitVec.ofBool x.indicator ++
        (BitVec.ofBool x.complete ++ BitVec.ofBool x.latch))) ∧
      word 1 = (match x.deadline with | .idle => 0 | .running => 1 | .met => 2 | .missed => 3 : Byte) ++
        ((0 : BitVec 7) ++ BitVec.ofBool x.overrunRunning) ∧
      word 2 = orOnes x.remaining ∧ word 3 = BitVec.ofNat 16 x.overrun ∧
      word 4 = (match x.override with
          | none => (0x00FF : Word)
          | some o => (match o.value with | .opens => 1 | .closes => 2 : Byte) ++ BitVec.ofNat 8 o.line.val) ∧
      word 5 = orOnes (x.override.map (fun o => o.station.toNat))) ∧
    (∀ l : LineId,
      let x := p.line l
      let r := x.test
      let word (k : Nat) : Word := p.wordOf (.test l) k
      p.wordOf (.line l) 0 = (match x.state with
        | .run => 0 | .quieting => 1 | .quiet => 2 | .test => 3 | .disabled => 4 | .failed => 5) ∧
      p.wordOf (.line l) 1 = BitVec.ofNat 16 x.urgent.length ∧ p.wordOf (.line l) 2 = BitVec.ofNat 16 x.routine.length ∧
      word 4 = (match r.kind with | some .sequence => 1 | some .pattern => 2 | none => 0xFF : Byte) ++
        (match r.target with | some a => a.setWidth 8 | none => 0xFF : Byte) ∧
      (r.errors < 256 → word 5 = (match r.result with
          | some .running => 0 | some .stopped => 1 | some .aborted => 2 | none => 0xFF : Byte) ++ BitVec.ofNat 8 r.errors) ∧
      word 6 = BitVec.ofNat 16 r.frames ∧
      word 7 = (match r.pair with | some (expected, actual) => expected ++ actual | none => (0xFFFF : Word))) ∧
    (let u := p.cmd;
      (u.count < 128 → p.wordOf .command 4 =
        (match u.last with | none => 15 | some w => if w.toNat ≤ 8 then w.setWidth 4 else 0 : BitVec 4) ++
          ((match u.outcome with | .ready => 0 | .done => 1 | .refused => 2 : BitVec 2) ++
            ((match u.reason with | none => 7 | some r => reasonBits r : BitVec 3) ++ BitVec.ofNat 7 u.count))) ∧
      p.wordOf .command 5 = u.resultA.getD 0xFFFF ∧ p.wordOf .command 6 = u.resultB.getD 0xFFFF) ∧
    (let w := p.weather;
      p.wordOf .global 0 = (loopBits p.ga.state).setWidth 16 ∧ p.wordOf .global 1 = p.cmd.generation ∧
      p.wordOf .global 2 = (match p.cmd.release with | .idle => 0 | .begun _ => 1 | .zoned _ _ => 2) ∧
      p.wordOf .global 3 = (0 : BitVec 13) ++ (BitVec.ofBool w.smokeWind ++ (BitVec.ofBool w.storm ++ BitVec.ofBool w.rain)) ∧
      p.wordOf .global 4 = orOnes (w.settled.map (fun k => k.val)) ∧ p.wordOf .global 5 = orOnes w.lastCount ∧
      p.wordOf .global 6 = orOnes (w.lastSample.map (fun k => k.val))) ∧
    (∀ i : Fin 3,
      (∀ k : Fin 16, (p.wordOf .notice i.val).getLsbD k.val = p.notices.getLsbD (16 * i.val + k.val)) ∧
      p.wordOf .notice (3 + i.val) = p.noticeAcks[i.val]) ∧
    (∀ b : BankId,
      let x := p.bank b
      let word (k : Nat) : Word := p.wordOf (.bank b) k
      word 0 = (0 : BitVec 12) ++ (BitVec.ofBool x.reached ++ (BitVec.ofBool x.safetyLost ++
        (BitVec.ofBool x.overflow ++ BitVec.ofBool x.record.isSome))) ∧
      (x.record = none → word 1 = 0xFFFF ∧ word 2 = 0xFFFF ∧ word 3 = 0xFFFF) ∧
      (∀ e, x.record = some e →
        word 1 = (match e.severity with | .notice => 0 | .fault => 1 | .safety => 2 : Byte) ++
          (match e.kind with
            | .ownedWordWrite => 1 | .targetClamped => 2 | .commandByteWrite => 3 | .commandRefused => 4
            | .releaseAbandoned => 5 | .commitRefused => 6 | .ackMismatch => 7 | .replyTimeout => 16 | .checkError => 17
            | .unexpectedFrame => 18 | .arbitrationLost => 19 | .keyRefused => 20 | .testAborted => 21 | .lineFailed => 22
            | .channelFaulted => 32 | .channelOffline => 33 | .deadlineMissed => 48 | .releaseRefused => 49
            | .loopOpen => 64 | .loopShort => 65 : Byte) ∧
        (e.subject = none → word 2 = 0xFFFF) ∧
        (∀ n, e.subject = some (.channel n) → word 2 = (0 : BitVec 4) ++ BitVec.ofNat 12 n.val) ∧
        (∀ z, e.subject = some (.zone z) → word 2 = (1 : BitVec 4) ++ BitVec.ofNat 12 z.val) ∧
        (e.subject = some .ga → word 2 = (2 : BitVec 4) ++ (0 : BitVec 12)) ∧
        (∀ l, e.subject = some (.line l) → word 2 = (3 : BitVec 4) ++ BitVec.ofNat 12 l.val) ∧
        (∀ off, e.subject = some (.offset off) → off < 4096 → word 2 = (4 : BitVec 4) ++ BitVec.ofNat 12 off) ∧
        (e.detail = none → word 3 = 0xFFFF) ∧
        (∀ f, e.detail = some (.fault f) → detail12 f < 4096 → word 3 = faultBits f) ∧
        (∀ r, e.detail = some (.reason r) → word 3 = (reasonBits r).setWidth 16) ∧
        (e.detail = some .malformed → word 3 = 4)) ∧
      word 5 = BitVec.ofNat 16 x.counter ∧
      word 6 = (match x.lastAck with
        | none => (0xFFFF : Word)
        | some (code, o) =>
          (match o with | .cleared => 0 | .mismatch => 1 | .empty => 2 : BitVec 2) ++ ((0 : BitVec 6) ++ code)) ∧
      word 7 = BitVec.ofNat 16 x.lastStart)

/-- R163, R164, R166: while RSTN is asserted no host access is taken: one that arrives then is abandoned and leaves
the whole state as it was (that it is not held until the deassertion is log 7). -/
def Obligations.NoHostAccessIsTakenWhileRstnIsAsserted : Prop :=
  ∀ (c : Instr) (s : State), hostAccess c = true → s.bus.rstn = true → Sys2Proof.Machine.exec c s = .next s

/-- R163, R164: a host access that makes a memory cycle is granted the port at once, without HRDY being held, below 48
entries or when write-back had the last cycle; with 48 or more and the last cycle the host's, one write-back cycle goes
first and HRDY is held. Either way the host then has had the last cycle. That the write-back cycle and
the access fall in one step is the model's (log 6). Shown on a forwarded write with no byte enabled, which changes nothing
else. -/
def Obligations.ArbiterAlternatesFromFortyEightEntries : Prop :=
  ∀ (s : State) (addr : Addr) (data : Word), s.bus.rstn = false → s.bus.offsetOf addr = none →
    ∃ t, Sys2Proof.Machine.exec (.forwardedWrite addr ⟨false, false⟩ data) s = .next t ∧ t.bus.lastCycle = .host ∧
      (s.bus.list.length < 48 ∨ s.bus.lastCycle = .writeBack →
        t.bus.waited = false ∧ t.part = s.part ∧ t.bus.list = s.bus.list ∧ t.bus.mem = s.bus.mem) ∧
      (48 ≤ s.bus.list.length → s.bus.lastCycle = .host →
        t.bus.waited = true ∧
        ∃ u, Sys2Proof.Machine.exec .writeBackCycle s = .next u ∧ t.part = u.part ∧ t.bus.list = u.bus.list ∧
          t.bus.snapshot = u.bus.snapshot ∧ t.bus.mem = u.bus.mem)

/-- R162, R165, R167: a write-back cycle writes the lowest word of the head entry's snapshot, with the part's value at this
moment, and clears its mark; the snapshot is the entry's dirty set when the entry was begun. After the last word the
entry leaves the list if its dirty set is empty and goes to the tail otherwise, the next entry at the head is begun in the same
event (log 8), and the pass no longer waits for the record. -/
def Obligations.WriteBackCycleWritesTheNextWord : Prop :=
  ∀ (s : State) (r : RecordId) (rest : List RecordId) (k : Fin 8), s.bus.list = r :: rest →
    let snap := s.bus.snapshot.getD (s.part.dirtyOf r)
    snap.getLsbD k.val = true → (∀ j : Fin 8, j < k → snap.getLsbD j.val = false) →
    let addr := s.bus.addressOf (recordOffset r + k.val)
    ∃ t, Sys2Proof.Machine.exec .writeBackCycle s = .next t ∧
      t.bus.wordAt addr = s.part.wordOf r k.val ∧ s.bus.SameBytesOutside t.bus addr ∧
      t.part.dirtyOf r = s.part.dirtyOf r &&& ~~~ BitVec.ofNat 8 (2 ^ k.val) ∧
      (∀ q : RecordId, q ≠ r → t.part.dirtyOf q = s.part.dirtyOf q) ∧
      t.bus.lastCycle = .writeBack ∧
      ((∃ j : Fin 8, k < j ∧ snap.getLsbD j.val = true) →
        t.bus.list = s.bus.list ∧ t.bus.snapshot = some (snap &&& ~~~ BitVec.ofNat 8 (2 ^ k.val)) ∧
        t.bus.pass = s.bus.pass) ∧
      ((∀ j : Fin 8, k < j → snap.getLsbD j.val = false) →
        t.bus.list = (if t.part.dirtyOf r = 0 then rest else rest ++ [r]) ∧
        t.bus.snapshot = t.bus.list.head?.map t.part.dirtyOf ∧
        (∀ rs, s.bus.pass = some rs → ∀ qs, t.bus.pass = some qs → ∀ q : RecordId, q ∈ qs ↔ q ∈ rs ∧ q ≠ r) ∧
        (∀ rs, s.bus.pass = some rs → (t.bus.pass = none ↔ ∀ q ∈ rs, q = r))) ∧
      s.part.SameChans t.part ∧ t.part.lines = s.part.lines ∧ s.part.SameZones t.part ∧
      t.part.weather = s.part.weather ∧ t.part.globals = s.part.globals ∧ t.part.cmd = s.part.cmd ∧
      s.part.SameNotices t.part ∧ t.pending = s.pending

/-! ## Resets -/

/-- R17, R45, R51, R69, R152, R163, R165, R183, R191, R192: power-on reset gives every channel, line and bank, the weather,
the notices and their acknowledge words their reset values, takes the straps, the RAIN contact and the first samples of the
loops, starts the level timer of each loop in ALARM, and starts the pass with every word the part writes dirty, its first
entry begun at once (log 8). That the clock and the model's instants start at 0 again and no frame of another sender is being
received is log 33, a RAM in which nothing is listed log 4. Which loop's record the INPUT bank keeps where several start in
fault is the model's (log 45) and is not stated. Commands still in the queue stay there (the model's choice, log 1). -/
def Obligations.PowerOnResetRestoresTheDefaults : Prop :=
  ∀ (s : State) (straps : BitVec 3) (zoneLoops : Vector LoopState 6) (gaLoop : LoopState) (rainActive : Bool),
    ∃ t, Sys2Proof.Machine.exec (.powerOnReset straps zoneLoops gaLoop rainActive) s = .next t ∧
      (∀ n : ChannelId, t.part.chan n = State.reset.part.chan n) ∧
      (∀ l : LineId, t.part.line l = State.reset.part.line l) ∧
      (∀ z : ZoneId, t.part.zone z = { State.reset.part.zone z with
        loop := ⟨⟨.level, false⟩, zoneLoops[z.val], if zoneLoops[z.val] = .alarm then some (.level, 0) else none⟩ }) ∧
      t.part.ga = ⟨⟨.level, false⟩, gaLoop, if gaLoop = .alarm then some (.level, 0) else none⟩ ∧
      t.part.weather = { State.reset.part.weather with
        rainState := if rainActive then .wetting else .dry, rainFrom := if rainActive then some 0 else none } ∧
      t.part.cmd = State.reset.part.cmd ∧ t.part.globals = State.reset.part.globals ∧ t.part.notices = 0 ∧
      t.part.noticeAcks = Vector.replicate 3 0 ∧ t.part.noticesShown = false ∧ t.part.now = 0 ∧
      (∀ b : BankId, b ≠ .input → t.part.bank b = State.reset.part.bank b) ∧
      ((t.part.bank .input).record.isSome ↔
        (∃ z : ZoneId, zoneLoops[z.val] = .openCircuit ∨ zoneLoops[z.val] = .shortCircuit) ∨
          gaLoop = .openCircuit ∨ gaLoop = .shortCircuit) ∧
      t.bus.straps = straps ∧ t.bus.list = allRecords ∧ t.bus.pass = some allRecords ∧
      (∀ r : RecordId, t.part.dirtyOf r = ownedMask r) ∧ t.bus.snapshot = some (ownedMask (.channel 0)) ∧
      t.bus.lastCycle = .host ∧ t.bus.mem.cells = [] ∧ t.attn = false ∧ t.part.faultOutput = true ∧ t.pending = s.pending

/-- R166, R182, R194: an assertion of RSTN takes the straps, starts a pass over all 73 records with every word the part
writes dirty and the first entry begun (log 8), loses every shown mark, deasserts ATTN, and sets the command status and the
release sequence; every other field of every unit, every captured value and the RAM stand. Its deassertion lets host accesses
be taken again and changes nothing else. -/
def Obligations.RstnReachesTheBusGateAndTheCommandUnitOnly : Prop :=
  ∀ s : State,
    (∀ straps : BitVec 3,
      ∃ t, Sys2Proof.Machine.exec (.rstn straps) s = .next t ∧
        t.bus.straps = straps ∧ t.bus.list = allRecords ∧ t.bus.pass = some allRecords ∧
        t.bus.snapshot = some (ownedMask (.channel 0)) ∧
        t.bus.lastCycle = .host ∧ t.bus.rstn = true ∧ t.attn = false ∧
        (∀ r : RecordId, t.part.dirtyOf r = ownedMask r) ∧
        t.part.cmd = { s.part.cmd with last := none, outcome := .ready, reason := none, count := 0, resultA := none,
                                       resultB := none, release := .idle } ∧
        (∀ b : BankId, t.part.bank b = { s.part.bank b with recordShown := false, thresholdShown := false }) ∧
        t.part.noticesShown = false ∧
        t.part.chans = s.part.chans ∧ t.part.lines = s.part.lines ∧ s.part.SameZones t.part ∧
        t.part.weather = s.part.weather ∧ t.part.globals = s.part.globals ∧ s.part.SameNotices t.part ∧
        t.bus.mem = s.bus.mem ∧ t.bus.powerOns = s.bus.powerOns ∧ t.pending = s.pending) ∧
    Sys2Proof.Machine.exec .rstnDeassertion s = .next { s with bus := { s.bus with rstn := false } }

/-! ## Banks and outputs -/

/-- R185: a bank takes an error whole, whatever its enables: it fills an empty bank; it replaces a record of lower severity,
with overflow set and safety lost kept; it leaves an equal or higher record with overflow set; and a SAFETY error that meets
a SAFETY record sets safety lost besides. The severities rise from NOTICE over FAULT to SAFETY. The bank's enables, last
acknowledgement, last counter start and shown marks stand. -/
def Obligations.BankKeepsTheMostSevereRecord : Prop :=
  (severityRank .notice < severityRank .fault ∧ severityRank .fault < severityRank .safety) ∧
  ∀ (p : Part) (b : BankId) (e : ErrorRecord),
    let x := p.bank b
    let y := (p.record b e).bank b
    (x.record = none → y.record = some e ∧ y.overflow = x.overflow ∧ y.safetyLost = x.safetyLost) ∧
    (∀ r, x.record = some r → severityRank r.severity < severityRank e.severity →
      y.record = some e ∧ y.overflow = true ∧ y.safetyLost = x.safetyLost) ∧
    (∀ r, x.record = some r → severityRank e.severity ≤ severityRank r.severity → e.severity ≠ .safety →
      y.record = some r ∧ y.overflow = true ∧ y.safetyLost = x.safetyLost) ∧
    (∀ r, x.record = some r → r.severity = .safety → e.severity = .safety →
      y.record = some r ∧ y.overflow = true ∧ y.safetyLost = true) ∧
    (y.enable = x.enable ∧ y.lastAck = x.lastAck ∧ y.lastStart = x.lastStart ∧ y.recordShown = x.recordShown ∧
      y.thresholdShown = x.thresholdShown) ∧
    (∀ c : BankId, c ≠ b → (p.record b e).bank c = p.bank c)

/-- R187: with count enable on, each error the bank takes adds 1 to its counter up to 4,095, and the step from 4,094 to 4,095
sets threshold reached; at 4,095 nothing more is set; with count enable off the counter and threshold reached stand. A write
of the enable word changes neither. -/
def Obligations.ThresholdCountsTheErrorsTaken : Prop :=
  (∀ (p : Part) (b : BankId) (e : ErrorRecord), (p.bank b).counts = true →
    let x := p.bank b
    let y := (p.record b e).bank b
    (x.counter < 4094 → y.counter = x.counter + 1 ∧ y.reached = x.reached) ∧
    (x.counter = 4094 → y.counter = 4095 ∧ y.reached = true) ∧
    (x.counter = 4095 → y.counter = 4095 ∧ y.reached = x.reached)) ∧
  (∀ (p : Part) (b : BankId) (e : ErrorRecord), (p.bank b).counts = false →
    ((p.record b e).bank b).counter = (p.bank b).counter ∧ ((p.record b e).bank b).reached = (p.bank b).reached) ∧
  (∀ (s t : State) (b : BankId) (be : ByteEnables) (data : Word),
    Sys2Proof.Machine.exec (.enableWordWrite b be data) s = .next t →
      (t.part.bank b).counter = (s.part.bank b).counter ∧ (t.part.bank b).reached = (s.part.bank b).reached)

/-- R193, R167: at the report of a bank's snapshot, taken when its last word is written, the record item and the threshold
item receive their shown marks if the valid word is clean, and an item already shown stays so; at the report of the notice
record the notices item of a set that is not empty receives its mark if none of the three set words is dirty (that all three
must be clean is log 30); ATTN is asserted exactly when no pass runs and an item of a reporting bank, or the notices item, is
shown. -/
def Obligations.AttnFollowsTheShownItems : Prop :=
  (∀ s : State, s.attn = true ↔
    s.bus.pass = none ∧
      ((∃ b : BankId, (s.part.bank b).reports = true ∧
        ((s.part.bank b).recordShown = true ∨ (s.part.bank b).thresholdShown = true)) ∨ s.part.noticesShown = true)) ∧
  (∀ (s t : State) (b : BankId) (rest : List RecordId) (k : Fin 8), s.bus.list = .bank b :: rest →
    s.bus.snapshot = some (BitVec.ofNat 8 (2 ^ k.val)) → Sys2Proof.Machine.exec .writeBackCycle s = .next t →
      (if (t.part.dirtyOf (.bank b)).getLsbD 0 then t.part.bank b = s.part.bank b
      else (t.part.bank b).recordShown = ((s.part.bank b).recordShown || (s.part.bank b).record.isSome) ∧
        (t.part.bank b).thresholdShown = ((s.part.bank b).thresholdShown || (s.part.bank b).reached)) ∧
      (∀ c : BankId, c ≠ b → t.part.bank c = s.part.bank c)) ∧
  (∀ (s t : State) (rest : List RecordId) (k : Fin 8), s.bus.list = .notice :: rest →
    s.bus.snapshot = some (BitVec.ofNat 8 (2 ^ k.val)) → Sys2Proof.Machine.exec .writeBackCycle s = .next t →
      let dirty := t.part.dirtyOf .notice
      t.part.noticesShown =
        (if dirty.getLsbD 0 = true ∨ dirty.getLsbD 1 = true ∨ dirty.getLsbD 2 = true then s.part.noticesShown
        else (s.part.noticesShown || decide (s.part.notices ≠ 0))) ∧
      s.part.SameBanks t.part)

/-- R195: FAULT is on exactly while a channel is FAULTED or OFFLINE or a line is FAILED or DISABLED. -/
def Obligations.FaultOutputFollowsChannelsAndLines : Prop :=
  ∀ p : Part, p.faultOutput = true ↔
    (∃ n : ChannelId, (p.chan n).motion = .faulted ∨ (p.chan n).motion = .offline) ∨
      (∃ l : LineId, (p.line l).state = .failed ∨ (p.line l).state = .disabled)

/-! ## Commands -/

/-- R157, R170, R181: every whole-word write of the command word forwards its code, is the last command, raises the count by
1 modulo 128, and ends DONE without a reason or REFUSED with one. Where the release sequence was begun, a code outside 6 to
8, and a refused RELEASE_ZONES or RELEASE_END, abandons it: the GATE bank takes RELEASE_ABANDONED (NOTICE) first, and a code
outside 6 to 8 leaves RS_IDLE. A refusal is then recorded in GATE: COMMIT_REFUSED (FAULT) with the reason and the channel of
a failed validation for CONFIG_COMMIT, COMMAND_REFUSED (NOTICE) with the reason for every other code. Nothing else is
recorded there, and no other byte of the RAM changes. -/
def Obligations.CommandWordWriteIsTakenAtOnce : Prop :=
  ∀ (c : Instr) (code : Word) (s : State), commandCodeOf c = some code → s.bus.rstn = false →
    ∃ t, Sys2Proof.Machine.exec c s = .next t ∧
      t.part.cmd.last = some code ∧ t.part.cmd.count = (s.part.cmd.count + 1) % 128 ∧
      (t.part.cmd.outcome = .done ∧ t.part.cmd.reason = none ∨
        t.part.cmd.outcome = .refused ∧ t.part.cmd.reason.isSome = true) ∧
      (code.toNat < 6 ∨ 8 < code.toNat → t.part.cmd.release = .idle) ∧
      (let before : Bank :=
          if code.toNat < 6 ∨ 8 < code.toNat ∨ t.part.cmd.outcome = .refused then gateAfterAbandonment s.grant.part
          else s.grant.part.bank .gate;
        (t.part.cmd.outcome = .done → t.part.bank .gate = before) ∧
        (∀ r, t.part.cmd.reason = some r → t.part.bank .gate = (before.take
          (if code = 1 then ⟨.fault, .commitRefused, (if r = .configInvalid then
              (validate s.part.cmd.pending).bind (fun f => f.channel.map Subject.channel) else none), some (.reason r)⟩
            else ⟨.notice, .commandRefused, none, some (.reason r)⟩)).count)) ∧
      t.part.cmd.args = s.part.cmd.args ∧ t.part.cmd.pending = s.part.cmd.pending ∧
      t.bus.wordAt (s.bus.addressOf 0x1D0) = code ∧ s.WritesOnly t (s.bus.addressOf 0x1D0)

/-- R170, R178: RELEASE_BEGIN ends DONE in every state: RS_BEGUN, the timer started anew; it records nothing, and every other
unit stands. -/
def Obligations.ReleaseBeginStartsTheSequence : Prop :=
  ∀ s : State, s.bus.rstn = false →
    ∃ t, Sys2Proof.Machine.exec .releaseBegin s = .next t ∧
      t.part.cmd = { s.part.cmd with
        last := some 6, outcome := .done, reason := none, count := (s.part.cmd.count + 1) % 128, resultA := none,
        resultB := none, release := .begun s.part.now } ∧
      s.grant.part.SameBanks t.part ∧ s.part.SameChans t.part ∧ s.part.SameLines t.part ∧ s.part.SameZones t.part ∧
      t.part.weather = s.part.weather ∧ t.part.globals = s.part.globals ∧ s.part.SameNotices t.part ∧
      s.WritesOnly t (s.bus.addressOf 0x1D0)

/-- R179, R181: RELEASE_ZONES is refused with SEQUENCE in RS_IDLE; in RS_BEGUN a set naming at least one zone and none outside
0 to 5 is held in RS_ZONED with the timer running on, and any other set abandons the sequence and is refused with BAD_ARG; in
RS_ZONED the sequence is abandoned and the command refused with SEQUENCE. An abandonment is recorded before the refusal. -/
def Obligations.ReleaseZonesHoldsTheZoneSet : Prop :=
  ∀ s : State, s.bus.rstn = false →
    let w := s.part.cmd.args[0]
    let status (o : CommandOutcome) (r : Option Reason) (rel : Release) : CommandUnit :=
      { s.part.cmd with
        last := some 7, outcome := o, reason := r, count := (s.part.cmd.count + 1) % 128, resultA := none,
        resultB := none, release := rel }
    let abandoned := ((s.grant.part.bank .gate).take ⟨.notice, .releaseAbandoned, none, none⟩).count
    let refusal (b : Bank) (r : Reason) := (b.take ⟨.notice, .commandRefused, none, some (.reason r)⟩).count
    ∃ t, Sys2Proof.Machine.exec .releaseZones s = .next t ∧
      (s.part.cmd.release = .idle →
        t.part.cmd = status .refused (some .sequence) .idle ∧
        t.part.bank .gate = refusal (s.grant.part.bank .gate) .sequence) ∧
      (∀ since, s.part.cmd.release = .begun since → w ≠ 0 → w.toNat < 64 →
        t.part.cmd = status .done none (.zoned since (w.extractLsb' 0 6)) ∧
        t.part.bank .gate = s.grant.part.bank .gate) ∧
      (∀ since, s.part.cmd.release = .begun since → (w = 0 ∨ 64 ≤ w.toNat) →
        t.part.cmd = status .refused (some .badArg) .idle ∧ t.part.bank .gate = refusal abandoned .badArg) ∧
      (∀ since zs, s.part.cmd.release = .zoned since zs →
        t.part.cmd = status .refused (some .sequence) .idle ∧ t.part.bank .gate = refusal abandoned .sequence) ∧
      s.grant.part.SameBanksBut t.part .gate ∧ s.part.SameChans t.part ∧ s.part.SameLines t.part ∧
      s.part.SameZones t.part ∧ t.part.weather = s.part.weather ∧ t.part.globals = s.part.globals ∧
      s.part.SameNotices t.part ∧ s.WritesOnly t (s.bus.addressOf 0x1D0)

/-- R65, R66, R180: in RS_ZONED, RELEASE_END ends DONE in RS_IDLE. The held zones are decided one at a time, in ascending
order. The operand lists the loop changes that fall between two of them (log 43; none for a write by address): those that
stand before a held zone are taken, as LOOP_CHANGE takes them, when that zone's turn comes. A held zone whose latch is set is
refused while it, or the general alarm loop, is in LEVEL mode with its loop in the alarm condition at its turn; otherwise its
latch, deadline, remaining, overrun running and indicator end, and complete is yes. Result A names the zones not refused and
result B the refused ones, each recorded in the ZONE bank, RELEASE_REFUSED (NOTICE), in ascending order. Every other zone
stands but for its loop. The channels of a released zone lose their freeze and hold the result of the governing order. -/
def Obligations.ReleaseEndReleasesTheHeldZones : Prop :=
  ∀ (s : State) (changes : List LoopReport) (since : Nat) (zs : BitVec 6), s.bus.rstn = false →
    s.part.cmd.release = .zoned since zs →
    let held (z : ZoneId) : Prop := zs.getLsbD z.val = true
    let takenBy (z : ZoneId) : List LoopReport :=
      (allZones.filter (fun y => zs.getLsbD y.val && decide (y ≤ z))).flatMap
        (fun y => changes.filter (fun c => decide (c.before = y)))
    let loopsAt (z : ZoneId) : Part := (takenBy z).foldl (fun q c => q.changeLoop c.loop c.state) s.grant.part
    let bars (g : FireLoop) : Prop := g.cfg.mode = .level ∧ g.inAlarm = true
    let barred (z : ZoneId) : Prop :=
      (s.part.zone z).latch = true ∧ (bars ((loopsAt z).loop (.zone z)) ∨ bars ((loopsAt z).loop .ga))
    let released (z : ZoneId) : Prop := held z ∧ (s.part.zone z).latch = true ∧ ¬ barred z
    ∃ t, Sys2Proof.Machine.exec (.releaseEnd changes) s = .next t ∧
      t.part.cmd.outcome = .done ∧ t.part.cmd.release = .idle ∧
      (∃ a b : BitVec 6, t.part.cmd.resultA = some (a.setWidth 16) ∧ t.part.cmd.resultB = some (b.setWidth 16) ∧
        (∀ z : ZoneId, (a.getLsbD z.val = true ↔ held z ∧ ¬ barred z) ∧ (b.getLsbD z.val = true ↔ held z ∧ barred z)) ∧
        t.part.bank .zone = (s.grant.part.bank .zone).takeAll ((allZones.filter (fun z => b.getLsbD z.val)).map
          (fun z => ⟨.notice, .releaseRefused, some (.zone z), none⟩))) ∧
      (∀ z : ZoneId, released z →
        t.part.zone z = { s.part.zone z with
          loop := (loopsAt 5).loop (.zone z), latch := false, deadline := .idle, remaining := none,
          overrunRunning := false, complete := true, indicator := false } ∧
        ∀ n : ChannelId, (s.part.chan n).cfg.zone = z → (t.part.chan n).freeze = none ∧
          ((t.part.chan n).governing, (t.part.chan n).granted) =
            governs t.part.weather (t.part.zone z) (t.part.chan n)) ∧
      (∀ z : ZoneId, ¬ released z →
        t.part.zone z = { s.part.zone z with loop := (loopsAt 5).loop (.zone z) } ∧
        ∀ n : ChannelId, (s.part.chan n).cfg.zone = z → t.part.chan n = s.part.chan n) ∧
      t.part.ga = (loopsAt 5).loop .ga ∧ t.part.bank .input = (loopsAt 5).bank .input ∧
      (∀ b : BankId, b ≠ .zone → b ≠ .input → t.part.bank b = s.grant.part.bank b) ∧ t.part.weather = s.part.weather ∧
      t.part.globals = s.part.globals ∧ s.part.SameNotices t.part ∧ s.WritesOnly t (s.bus.addressOf 0x1D0)

/-- R180, R181: RELEASE_END out of turn is refused with SEQUENCE, in RS_BEGUN after the sequence is abandoned. It
releases no zone, and so takes none of the loop changes of its operand (log 43). -/
def Obligations.ReleaseEndOutOfTurnIsRefused : Prop :=
  ∀ (s : State) (changes : List LoopReport), s.bus.rstn = false →
    (s.part.cmd.release = .idle ∨ ∃ since, s.part.cmd.release = .begun since) →
    let refusal (b : Bank) := (b.take ⟨.notice, .commandRefused, none, some (.reason .sequence)⟩).count
    ∃ t, Sys2Proof.Machine.exec (.releaseEnd changes) s = .next t ∧
      t.part.cmd.outcome = .refused ∧ t.part.cmd.reason = some .sequence ∧ t.part.cmd.release = .idle ∧
      t.part.bank .gate = refusal (if s.part.cmd.release = .idle then s.grant.part.bank .gate
        else ((s.grant.part.bank .gate).take ⟨.notice, .releaseAbandoned, none, none⟩).count) ∧
      s.grant.part.SameBanksBut t.part .gate ∧ s.part.SameChans t.part ∧ s.part.SameLines t.part ∧
      s.part.SameZones t.part ∧ t.part.weather = s.part.weather ∧ s.WritesOnly t (s.bus.addressOf 0x1D0)

/-- R178, R181: the release timer reaches 10 s after the last RELEASE_BEGIN: RS_IDLE, RELEASE_ABANDONED recorded; an expiry
taken early moves the clock forward to its instant (log 2); the command status and every other unit stand. -/
def Obligations.ReleaseTimerExpiryAbandonsTheSequence : Prop :=
  ∀ (s : State) (since : Nat),
    (s.part.cmd.release = .begun since ∨ ∃ zs, s.part.cmd.release = .zoned since zs) →
    ∃ t, Sys2Proof.Machine.exec .releaseTimerExpiry s = .next t ∧
      t.part.cmd = { s.part.cmd with release := .idle } ∧
      t.part.bank .gate = ((s.part.bank .gate).take ⟨.notice, .releaseAbandoned, none, none⟩).count ∧
      t.part.now = max s.part.now (since + 10000) ∧
      s.part.SameBanksBut t.part .gate ∧ s.part.SameChans t.part ∧ s.part.SameLines t.part ∧ s.part.SameZones t.part ∧
      t.part.weather = s.part.weather ∧ t.part.globals = s.part.globals ∧ s.part.SameNotices t.part ∧ s.EventOnly t

/-- R170: a code that names none of the eight commands is refused with BAD_ARG and recorded, after an abandonment where the
release sequence was begun (R181); the rest of the part stands. -/
def Obligations.UnknownCommandIsRefused : Prop :=
  ∀ (s : State) (code : Word), s.bus.rstn = false → (code = 0 ∨ 8 < code.toNat) →
    ∃ t, Sys2Proof.Machine.exec (.unknownCommand code) s = .next t ∧
      t.part.cmd = { s.part.cmd with
        last := some code, outcome := .refused, reason := some .badArg, count := (s.part.cmd.count + 1) % 128,
        resultA := none, resultB := none, release := .idle } ∧
      t.part.bank .gate =
        ((if s.part.cmd.release = .idle then s.grant.part.bank .gate
          else ((s.grant.part.bank .gate).take ⟨.notice, .releaseAbandoned, none, none⟩).count).take
            ⟨.notice, .commandRefused, none, some (.reason .badArg)⟩).count ∧
      s.grant.part.SameBanksBut t.part .gate ∧ s.part.SameChans t.part ∧ s.part.SameLines t.part ∧
      s.part.SameZones t.part ∧ t.part.weather = s.part.weather ∧ t.part.globals = s.part.globals ∧
      s.part.SameNotices t.part ∧ s.WritesOnly t (s.bus.addressOf 0x1D0)

/-- R18, R19, R174: FAULT_CLEAR with argument 0 to 47 or 255 ends DONE. Each FAULTED channel named loses its fault to its
last fault, its miss count and short-travel mark; on a line out of service it becomes OFFLINE without position or report, and
CHANNEL_OFFLINE is recorded in the CHANNEL bank (SAFETY under SMOKE and else FAULT, in ascending order); otherwise it becomes
IDLE within tolerance of its granted target, or QUEUED. Every other channel stands. Any other argument is refused with
BAD_ARG, recorded in GATE after an abandonment of a release sequence begun, and changes no channel and no line. -/
def Obligations.FaultClearFreesTheNamedFaultedChannels : Prop :=
  ∀ s : State, s.bus.rstn = false →
    let w := s.part.cmd.args[0]
    ∃ t, Sys2Proof.Machine.exec .faultClear s = .next t ∧
      (w.toNat < 48 ∨ w.toNat = 255 → t.part.cmd.outcome = .done) ∧
      (48 ≤ w.toNat → w.toNat ≠ 255 → t.part.cmd.reason = some .badArg ∧ s.part.SameChans t.part) ∧
      (∀ n : ChannelId, (s.part.chan n).motion = .faulted → (w.toNat = n.val ∨ w.toNat = 255) →
        let c := s.part.chan n
        let d := t.part.chan n
        d.fault = none ∧ d.lastFault = c.fault ∧ d.miss = 0 ∧ d.shortMark = false ∧ d.granted = c.granted ∧
        d.governing = c.governing ∧ d.cfg = c.cfg ∧
        ((s.part.line c.cfg.line).state = .disabled ∨ (s.part.line c.cfg.line).state = .failed →
          d.motion = .offline ∧ d.position = none ∧ d.report = none) ∧
        ((s.part.line c.cfg.line).state ≠ .disabled → (s.part.line c.cfg.line).state ≠ .failed →
          d.position = c.position ∧ d.report = c.report ∧
          (withinTolerance c c.granted = true → d.motion = .idle) ∧
          (withinTolerance c c.granted = false → c.granted ≠ none → d.motion = .queued))) ∧
      (∀ n : ChannelId, (s.part.chan n).motion ≠ .faulted ∨ (w.toNat ≠ n.val ∧ w.toNat ≠ 255) →
        t.part.chan n = s.part.chan n) ∧
      t.part.bank .channel = (s.grant.part.bank .channel).takeAll (offlineErrors s.part (fun n =>
        decide ((s.part.chan n).motion = .faulted ∧ (w.toNat = n.val ∨ w.toNat = 255) ∧
          ((s.part.line (s.part.chan n).cfg.line).state = .disabled ∨
            (s.part.line (s.part.chan n).cfg.line).state = .failed)))) ∧
      (48 ≤ w.toNat → w.toNat ≠ 255 →
        t.part.bank .gate = ((gateAfterAbandonment s.grant.part).take
          ⟨.notice, .commandRefused, none, some (.reason .badArg)⟩).count ∧ s.part.SameLines t.part) ∧
      (∀ b : BankId, b ≠ .gate → b ≠ .channel → t.part.bank b = s.grant.part.bank b) ∧
      s.part.SameZones t.part ∧ t.part.weather = s.part.weather ∧ t.part.globals = s.part.globals ∧
      s.part.SameNotices t.part ∧ s.WritesOnly t (s.bus.addressOf 0x1D0)

/-- R126, R133 to R135, R137, R149, R175: the three LINE_STATE rows on the line argument 1 names, with argument 2 captured as
the row says; an argument that names no line or no state makes each of them a refusal with BAD_ARG, whichever row it is (log
12), recorded in GATE after an abandonment of a release sequence begun. RUN returns a QUIETING or QUIET line to RUN with its
queue and positions, and a DISABLED line afresh, every supervised channel due; at each of these entries the window clock
starts from 0 (R126), and from DISABLED the stuck watch starts (R137); QUIET takes a RUN line to QUIET when it is at rest and
to QUIETING otherwise, and a QUIETING line stays until it is at rest; DISABLED empties the line and takes its working
channels OFFLINE, recording CHANNEL_OFFLINE of each in ascending order (R20; SAFETY under SMOKE and else FAULT) and of a line
in TEST also TEST_ABORTED (NOTICE) in the line's bank; each ends DONE. In the other states, and QUIET while a latch is set,
the row is refused and the line stands. -/
def Obligations.LineStateMovesTheNamedLine : Prop :=
  (∀ s : State, s.bus.rstn = false → (4 ≤ s.part.cmd.args[0].toNat ∨ 3 ≤ s.part.cmd.args[1].toNat) →
    ∀ c : Instr, c = .lineStateRun ∨ c = .lineStateQuiet ∨ c = .lineStateDisabled →
    ∃ t, Sys2Proof.Machine.exec c s = .next t ∧
      t.part.cmd.outcome = .refused ∧ t.part.cmd.reason = some .badArg ∧
      t.part.bank .gate = ((gateAfterAbandonment s.grant.part).take
        ⟨.notice, .commandRefused, none, some (.reason .badArg)⟩).count ∧
      s.grant.part.SameBanksBut t.part .gate ∧ s.part.SameChans t.part ∧ s.part.SameLines t.part ∧ s.part.SameZones t.part ∧
      t.part.weather = s.part.weather ∧ t.part.globals = s.part.globals ∧ s.part.SameNotices t.part ∧
      s.WritesOnly t (s.bus.addressOf 0x1D0)) ∧
  ∀ (s : State) (l : LineId), s.bus.rstn = false → s.part.cmd.args[0] = BitVec.ofNat 16 l.val →
    let x := s.part.line l
    (s.part.cmd.args[1] = 0 →
      ∃ t, Sys2Proof.Machine.exec .lineStateRun s = .next t ∧
        (x.state ≠ .test → x.state ≠ .failed → t.part.cmd.outcome = .done ∧ (t.part.line l).state = .run) ∧
        (x.state = .run → t.part.line l = x) ∧
        (x.state = .quieting ∨ x.state = .quiet →
          (t.part.line l).urgent = x.urgent ∧ (t.part.line l).routine = x.routine ∧
          (t.part.line l).exchange = x.exchange ∧ (t.part.line l).pollPos = x.pollPos ∧
          (t.part.line l).supPos = x.supPos ∧ (t.part.line l).clock = some (s.part.now + 250) ∧
          (t.part.line l).watch = x.watch) ∧
        (x.state = .disabled →
          (t.part.line l).exchange = none ∧ (t.part.line l).retake = none ∧ (t.part.line l).pollPos = none ∧
          (t.part.line l).supPos = none ∧ (t.part.line l).clock = some (s.part.now + 250) ∧
          (t.part.line l).watch = .stuck s.part.now ∧
          ∀ n : ChannelId, (s.part.chan n).boundTo l = true → supervised (s.part.chan n).motion = true →
            (t.part.chan n).supDue = true) ∧
        (x.state = .test ∨ x.state = .failed →
          t.part.cmd.outcome = .refused ∧ t.part.cmd.reason = some .wrongState ∧ t.part.line l = x) ∧
        (x.state ≠ .disabled → s.part.SameChans t.part) ∧
        (∀ k : LineId, k ≠ l → (s.part.line k).state ≠ .quieting → t.part.line k = s.part.line k) ∧
        s.part.SameZones t.part ∧ t.part.weather = s.part.weather ∧ s.WritesOnly t (s.bus.addressOf 0x1D0)) ∧
    (s.part.cmd.args[1] = 1 →
      ∃ t, Sys2Proof.Machine.exec .lineStateQuiet s = .next t ∧
        ((∃ z : ZoneId, (s.part.zone z).latch = true) →
          t.part.cmd.outcome = .refused ∧ t.part.cmd.reason = some .smokeActive ∧
          (x.state ≠ .quieting → t.part.line l = x)) ∧
        ((∀ z : ZoneId, (s.part.zone z).latch = false) → x.state = .run →
          t.part.cmd.outcome = .done ∧
          (t.part.line l).state =
            (if x.exchange = none ∧ ∀ n : ChannelId, (s.part.chan n).boundTo l = true →
              (s.part.chan n).motion ≠ .moving ∧ (s.part.chan n).motion ≠ .halting then .quiet else .quieting) ∧
          (t.part.line l).urgent = x.urgent ∧ (t.part.line l).routine = x.routine) ∧
        ((∀ z : ZoneId, (s.part.zone z).latch = false) → x.state = .quieting →
          t.part.cmd.outcome = .done ∧ (s.part.atRest l = false → t.part.line l = x) ∧
          (s.part.atRest l = true → (t.part.line l).state = .quiet)) ∧
        ((∀ z : ZoneId, (s.part.zone z).latch = false) → x.state = .quiet →
          t.part.cmd.outcome = .done ∧ t.part.line l = x) ∧
        ((∀ z : ZoneId, (s.part.zone z).latch = false) → x.state = .test ∨ x.state = .disabled ∨ x.state = .failed →
          t.part.cmd.outcome = .refused ∧ t.part.cmd.reason = some .wrongState ∧ t.part.line l = x) ∧
        s.part.SameChans t.part ∧
        (∀ k : LineId, k ≠ l → (s.part.line k).state ≠ .quieting → t.part.line k = s.part.line k) ∧
        s.part.SameZones t.part ∧ t.part.weather = s.part.weather ∧ s.WritesOnly t (s.bus.addressOf 0x1D0)) ∧
    (s.part.cmd.args[1] = 2 →
      ∃ t, Sys2Proof.Machine.exec .lineStateDisabled s = .next t ∧
        t.part.cmd.outcome = .done ∧ (t.part.line l).state = .disabled ∧
        (x.state ≠ .disabled → x.state ≠ .failed →
          (t.part.line l).urgent = [] ∧ (t.part.line l).routine = [] ∧ (t.part.line l).exchange = none ∧
          (t.part.line l).retake = none ∧ (t.part.line l).clock = none ∧ (t.part.line l).watch = .off ∧
          (x.state = .test → (t.part.line l).test.result = some .aborted) ∧
          t.part.bank (.line l) =
            (if x.state = .test then
              ((s.grant.part.bank (.line l)).take ⟨.notice, .testAborted, some (.line l), none⟩).count
            else s.grant.part.bank (.line l)) ∧
          t.part.bank .channel = (s.grant.part.bank .channel).takeAll
            (offlineErrors s.part (fun n => (s.part.chan n).boundTo l && working (s.part.chan n).motion)) ∧
          ∀ n : ChannelId, (s.part.chan n).boundTo l = true →
            ((s.part.chan n).motion = .faulted ∨ (s.part.chan n).motion = .offline → t.part.chan n = s.part.chan n) ∧
            ((s.part.chan n).motion = .idle ∨ (s.part.chan n).motion = .queued ∨ (s.part.chan n).motion = .ordering ∨
              (s.part.chan n).motion = .moving ∨ (s.part.chan n).motion = .halting →
              (t.part.chan n).motion = .offline ∧ (t.part.chan n).position = none ∧ (t.part.chan n).report = none ∧
              (t.part.chan n).travel = none ∧ (t.part.chan n).miss = 0 ∧ (t.part.chan n).shortMark = false)) ∧
        (x.state = .disabled ∨ x.state = .failed → s.part.SameChans t.part ∧ s.grant.part.SameBanksBut t.part .gate) ∧
        (∀ b : BankId, b ≠ .gate → b ≠ .channel → b ≠ .line l → t.part.bank b = s.grant.part.bank b) ∧
        (∀ n : ChannelId, (s.part.chan n).boundTo l = false → t.part.chan n = s.part.chan n) ∧
        (∀ k : LineId, k ≠ l → (s.part.line k).state ≠ .quieting →
          (t.part.line k).state = (s.part.line k).state ∧ (t.part.line k).exchange = (s.part.line k).exchange) ∧
        s.part.SameZones t.part ∧ t.part.weather = s.part.weather ∧ s.WritesOnly t (s.bus.addressOf 0x1D0))

/-- R141, R176: TEST_START on a QUIET line with no latch set, a kind of 1 or 2 and a target of 0 to 12 ends DONE with the
line in TEST and the record cleared, an exchange of an older test still in flight marked not to be counted; a QUIET line is
required, and a set latch refuses it first. An argument that names no line, no kind or no target is refused with BAD_ARG
before either, recorded in GATE after an abandonment of a release sequence begun. The pattern, the queue, the channels and
the other lines stand. -/
def Obligations.TestStartClearsTheRecord : Prop :=
  (∀ s : State, s.bus.rstn = false →
    (4 ≤ s.part.cmd.args[0].toNat ∨ (s.part.cmd.args[1].toNat ≠ 1 ∧ s.part.cmd.args[1].toNat ≠ 2) ∨
      12 < s.part.cmd.args[2].toNat) →
    ∃ t, Sys2Proof.Machine.exec .testStart s = .next t ∧
      t.part.cmd.outcome = .refused ∧ t.part.cmd.reason = some .badArg ∧
      t.part.bank .gate = ((gateAfterAbandonment s.grant.part).take
        ⟨.notice, .commandRefused, none, some (.reason .badArg)⟩).count ∧
      s.grant.part.SameBanksBut t.part .gate ∧ s.part.SameChans t.part ∧ s.part.SameLines t.part ∧ s.part.SameZones t.part ∧
      t.part.weather = s.part.weather ∧ t.part.globals = s.part.globals ∧ s.part.SameNotices t.part ∧
      s.WritesOnly t (s.bus.addressOf 0x1D0)) ∧
  ∀ (s : State) (l : LineId) (k : TestKind) (target : BitVec 4), s.bus.rstn = false →
    s.part.cmd.args[0] = BitVec.ofNat 16 l.val →
    s.part.cmd.args[1] = (match k with | .sequence => 1 | .pattern => 2) →
    target.toNat ≤ 12 → s.part.cmd.args[2] = target.setWidth 16 →
    ∃ t, Sys2Proof.Machine.exec .testStart s = .next t ∧
      ((∀ z : ZoneId, (s.part.zone z).latch = false) → (s.part.line l).state = .quiet →
        t.part.cmd.outcome = .done ∧ (t.part.line l).state = .test ∧
        (t.part.line l).clock = some (s.part.now + 250) ∧
        (t.part.line l).test = { (s.part.line l).test with
          kind := some k, target := some target, result := some .running, frames := 0, errors := 0, pair := none,
          seq := 0b1111111 } ∧
        (t.part.line l).exchange = (s.part.line l).exchange.map (fun e =>
          { e with kind := match e.kind with | .test bytes _ => .test bytes true | .order o => .order o
                                             | .query n poll => .query n poll }) ∧
        (t.part.line l).urgent = (s.part.line l).urgent ∧ (t.part.line l).routine = (s.part.line l).routine) ∧
      ((∀ z : ZoneId, (s.part.zone z).latch = false) → (s.part.line l).state ≠ .quiet →
        t.part.cmd.outcome = .refused ∧ t.part.cmd.reason = some .wrongState ∧
        ((s.part.line l).state ≠ .quieting → t.part.line l = s.part.line l)) ∧
      ((∃ z : ZoneId, (s.part.zone z).latch = true) →
        t.part.cmd.outcome = .refused ∧ t.part.cmd.reason = some .smokeActive) ∧
      (∀ m : LineId, m ≠ l → (s.part.line m).state ≠ .quieting → t.part.line m = s.part.line m) ∧
      s.part.SameChans t.part ∧ s.part.SameZones t.part ∧ t.part.weather = s.part.weather ∧
      t.part.globals = s.part.globals ∧ s.grant.part.SameBanksBut t.part .gate ∧ s.part.SameNotices t.part ∧
      s.WritesOnly t (s.bus.addressOf 0x1D0)

/-- R148, R177: TEST_STOP on a line in TEST ends DONE with the line in QUIET, the result STOPPED, and the rest of the record,
the queue and an exchange in flight as they were; on a line in another state it is refused with WRONG_STATE. An argument
above 3 is refused with BAD_ARG, recorded in GATE after an abandonment of a release sequence begun, and changes no line. -/
def Obligations.TestStopKeepsTheRecord : Prop :=
  (∀ s : State, s.bus.rstn = false → 4 ≤ s.part.cmd.args[0].toNat →
    ∃ t, Sys2Proof.Machine.exec .testStop s = .next t ∧
      t.part.cmd.outcome = .refused ∧ t.part.cmd.reason = some .badArg ∧
      t.part.bank .gate = ((gateAfterAbandonment s.grant.part).take
        ⟨.notice, .commandRefused, none, some (.reason .badArg)⟩).count ∧
      s.grant.part.SameBanksBut t.part .gate ∧ s.part.SameChans t.part ∧ s.part.SameLines t.part ∧ s.part.SameZones t.part ∧
      t.part.weather = s.part.weather ∧ t.part.globals = s.part.globals ∧ s.part.SameNotices t.part ∧
      s.WritesOnly t (s.bus.addressOf 0x1D0)) ∧
  ∀ (s : State) (l : LineId), s.bus.rstn = false → s.part.cmd.args[0] = BitVec.ofNat 16 l.val →
    ∃ t, Sys2Proof.Machine.exec .testStop s = .next t ∧
      ((s.part.line l).state = .test →
        t.part.cmd.outcome = .done ∧ (t.part.line l).state = .quiet ∧ (t.part.line l).clock = none ∧
        (t.part.line l).test = { (s.part.line l).test with result := some .stopped } ∧
        (t.part.line l).exchange = (s.part.line l).exchange ∧ (t.part.line l).urgent = (s.part.line l).urgent ∧
        (t.part.line l).routine = (s.part.line l).routine) ∧
      ((s.part.line l).state ≠ .test →
        t.part.cmd.outcome = .refused ∧ t.part.cmd.reason = some .wrongState ∧
        (t.part.line l).test = (s.part.line l).test) ∧
      (∀ m : LineId, m ≠ l → (s.part.line m).state ≠ .quieting → t.part.line m = s.part.line m) ∧
      s.part.SameChans t.part ∧ s.part.SameZones t.part ∧ t.part.weather = s.part.weather ∧
      t.part.globals = s.part.globals ∧ s.grant.part.SameBanksBut t.part .gate ∧ s.part.SameNotices t.part ∧
      s.WritesOnly t (s.bus.addressOf 0x1D0)

/-- R21 to R24, R35, R46, R80, R81, R125, R132, R173: with no latch set and a pending copy that passes validation,
CONFIG_COMMIT ends DONE: the active configuration of every channel, loop and zone and the global items become the pending
ones, the generation rises by 1, every channel holds the result of the governing order, a channel become UNUSED is in UNUSED
and one entering use or rebound is OFFLINE, due for supervision at once, CHANNEL_OFFLINE (FAULT) recorded for a rebound one
not already OFFLINE; the pending copy stands. A channel become UNUSED or rebound takes its fault code, if it has one, as its
last fault, its mark is clear, its order and a retake for it leave its old line, and an exchange in flight to it is
abandoned: that line is free 10 ms after the end of the frame, or after now where it is still being sent (R125). A channel in
use that keeps its line and node keeps position and report. One whose travel elapsed has reached the new limit expires:
QUEUED or ORDERING becomes FAULTED with TRAVEL_TIMEOUT, recorded after the rebound ones, MOVING becomes HALTING. Any other
that was IDLE or QUEUED is IDLE exactly within its tolerance of its granted target, and else QUEUED; in the other states it
stays. Its supervision timer runs on and is due where it has reached a changed interval; one due stays due (log 18). A loop
whose configuration changed has its timer cancelled and, with the alarm condition then present, started anew in its new mode;
one qualified before, its timer stopped and the condition present all along, starts none (log 17). A changed wind window
starts a new one at the commit; storm, smoke wind, the runs, the last count, the last sample and the settled sector stand. A
rain timer that has reached a changed delay expires; otherwise the rain items stand. -/
def Obligations.ConfigCommitMakesThePendingCopyActive : Prop :=
  ∀ s : State, s.bus.rstn = false → (∀ z : ZoneId, (s.part.zone z).latch = false) → validate s.part.cmd.pending = none →
    let words := s.part.cmd.pending
    ∃ t, Sys2Proof.Machine.exec .configCommit s = .next t ∧
      t.part.cmd.outcome = .done ∧ t.part.cmd.generation = s.part.cmd.generation + 1 ∧ t.part.cmd.pending = words ∧
      t.part.globals = pendingGlobals words ∧
      (∀ z : ZoneId, (t.part.zone z).loop.cfg = pendingLoop words (.zone z) ∧
        (t.part.zone z).smokeDeadline = pendingSmokeDeadline words z ∧
        (t.part.zone z).latch = false ∧
        (t.part.zone z).override = (s.part.zone z).override) ∧
      (∀ k : LoopId,
        let g := s.part.loop k
        let h := t.part.loop k
        let alarm (cfg : LoopConfig) : Prop :=
          g.state = .alarm ∨ ((g.state = .openCircuit ∨ g.state = .shortCircuit) ∧ cfg.faultAsAlarm = true)
        h.cfg = pendingLoop words k ∧ h.state = g.state ∧
        (g.cfg = h.cfg → h.timer = g.timer) ∧
        (g.cfg ≠ h.cfg → alarm h.cfg → g.timer ≠ none ∨ ¬ alarm g.cfg → h.timer = some (h.cfg.mode, s.part.now)) ∧
        (g.cfg ≠ h.cfg → ¬ alarm h.cfg ∨ (g.timer = none ∧ alarm g.cfg) → h.timer = none)) ∧
      (let inUse (m : ChannelId) : Bool :=
          decide ((s.part.chan m).cfg.cls ≠ .unused) && decide ((t.part.chan m).cfg.cls ≠ .unused);
        let same (m : ChannelId) : Bool :=
          decide ((s.part.chan m).cfg.line = (t.part.chan m).cfg.line) &&
            decide ((s.part.chan m).cfg.node = (t.part.chan m).cfg.node);
        t.part.bank .channel = ((s.grant.part.bank .channel).takeAll
          ((allChannels.filter (fun m => inUse m && !same m && decide ((s.part.chan m).motion ≠ .offline))).map
            (fun m => ⟨.fault, .channelOffline, some (.channel m), none⟩))).takeAll
          ((allChannels.filter (fun m => inUse m && same m &&
              ((s.part.chan m).motion == .queued || (s.part.chan m).motion == .ordering))).filterMap (fun m =>
            (s.part.chan m).travel.bind (fun e =>
              if (t.part.chan m).cfg.travelLimit ≤ e then
                some ⟨ruledSeverity (s.part.chan m), .channelFaulted, some (.channel m), some (.fault (.travelTimeout e))⟩
              else none)))) ∧
      t.part.bank .gate = gateAfterAbandonment s.grant.part ∧
      (∀ b : BankId, b ≠ .gate → b ≠ .channel → t.part.bank b = s.grant.part.bank b) ∧
      (∀ n : ChannelId,
        let c := s.part.chan n
        let d := t.part.chan n
        d.cfg = pendingChannel words n ∧
        (d.governing, d.granted) = governs t.part.weather (t.part.zone d.cfg.zone) d ∧
        d.requested = c.requested ∧ d.notifyWord = c.notifyWord ∧
        (c.cfg.cls ≠ .unused → d.cfg.cls = .unused →
          d.motion = .unused ∧ d.position = none ∧ d.report = none ∧ d.travel = none ∧ d.fault = none ∧ d.miss = 0 ∧
          d.governing = .none ∧ d.granted = none) ∧
        (d.cfg.cls ≠ .unused → c.cfg.cls = .unused ∨ c.cfg.line ≠ d.cfg.line ∨ c.cfg.node ≠ d.cfg.node →
          d.motion = .offline ∧ d.position = none ∧ d.report = none ∧ d.travel = none ∧ d.fault = none ∧ d.miss = 0 ∧
          d.supDue = true) ∧
        (c.cfg.cls ≠ .unused → d.cfg.cls = .unused ∨ c.cfg.line ≠ d.cfg.line ∨ c.cfg.node ≠ d.cfg.node →
          d.lastFault = (if c.fault = none then c.lastFault else c.fault) ∧ d.shortMark = false ∧ d.accepted = none ∧
          (t.part.line c.cfg.line).queued n = none ∧
          (∀ r, (t.part.line c.cfg.line).retake = some r → r.channel ≠ n) ∧
          ∀ e, (s.part.line c.cfg.line).exchange = some e → e.kind.channel = some n →
            (t.part.line c.cfg.line).exchange = none ∧
            (t.part.line c.cfg.line).freeAt = e.sentAt.getD s.part.now + 10) ∧
        (c.cfg.cls ≠ .unused → d.cfg.cls ≠ .unused → c.cfg.line = d.cfg.line → c.cfg.node = d.cfg.node →
          d.position = c.position ∧ d.report = c.report ∧
          (supervised c.motion = true → d.supFrom = c.supFrom ∧
            (d.supDue = true ↔ c.supDue = true ∨ (s.part.globals.supervisionInterval ≠ t.part.globals.supervisionInterval ∧
              ∃ since, c.supFrom = some since ∧ since + t.part.globals.supervisionInterval * 1000 ≤ s.part.now))) ∧
          (∀ e, c.travel = some e → d.cfg.travelLimit ≤ e →
            (c.motion = .queued ∨ c.motion = .ordering →
              d.motion = .faulted ∧ d.fault = some (.travelTimeout e) ∧ d.travel = none ∧ d.accepted = none ∧
              d.shortMark = false) ∧
            (c.motion = .moving → d.motion = .halting ∧ d.travel = none ∧ d.accepted = none)) ∧
          ((∀ e, c.travel = some e → e < d.cfg.travelLimit) → c.motion = .idle ∨ c.motion = .queued →
            d.motion = (if withinTolerance d d.granted = true then .idle else .queued) ∧ d.fault = c.fault) ∧
          ((∀ e, c.travel = some e → e < d.cfg.travelLimit) → c.motion = .ordering ∨ c.motion = .moving →
            d.motion = c.motion ∧ d.fault = c.fault ∧ d.travel = c.travel ∧ d.accepted = c.accepted) ∧
          (c.motion = .halting ∨ c.motion = .faulted ∨ c.motion = .offline →
            d.motion = c.motion ∧ d.fault = c.fault ∧ d.lastFault = c.lastFault))) ∧
      (let w := s.part.weather;
        let g := s.part.globals
        let g' := t.part.globals
        let reached (old new : Nat) : Prop :=
          old ≠ new ∧ ∀ since, w.rainFrom = some since → since + new * 1000 ≤ s.part.now
        let expires : Prop := w.rainFrom ≠ none ∧
          (w.rainState = .wetting ∧ reached g.rainOnDelay g'.rainOnDelay ∨
            w.rainState = .drying ∧ reached g.rainOffDelay g'.rainOffDelay)
        (t.part.weather.pulses, t.part.weather.windowStart) =
          (if g.windWindow = g'.windWindow then (w.pulses, w.windowStart) else (0, s.part.now)) ∧
        t.part.weather.lastCount = w.lastCount ∧ t.part.weather.lastSample = w.lastSample ∧
        t.part.weather.settled = w.settled ∧ t.part.weather.storm = w.storm ∧
        t.part.weather.smokeWind = w.smokeWind ∧ t.part.weather.setRun = w.setRun ∧
        t.part.weather.clearRun = w.clearRun ∧
        (expires → t.part.weather.rainFrom = none ∧
          t.part.weather.rainState = (if w.rainState = .wetting then .wet else .dry)) ∧
        (¬ expires → t.part.weather.rainFrom = w.rainFrom ∧ t.part.weather.rainState = w.rainState)) ∧
      t.bus.wordAt (s.bus.addressOf 0x1D0) = 1 ∧ s.WritesOnly t (s.bus.addressOf 0x1D0)

/-- R170, R172, R173, R181: CONFIG_COMMIT is refused with SMOKE_ACTIVE while a latch is set, and with CONFIG_INVALID when the
pending copy fails validation, the results naming the channel, where there is one, and the offset of the failing word;
COMMIT_REFUSED (FAULT) is recorded and no configuration changes. A release sequence begun is abandoned, RELEASE_ABANDONED
recorded before the refusal. -/
def Obligations.ConfigCommitRefusedChangesNoConfiguration : Prop :=
  ∀ s : State, s.bus.rstn = false →
    ((∃ z : ZoneId, (s.part.zone z).latch = true) ∨ validate s.part.cmd.pending ≠ none) →
    ∃ t, Sys2Proof.Machine.exec .configCommit s = .next t ∧
      t.part.cmd.outcome = .refused ∧ t.part.cmd.generation = s.part.cmd.generation ∧
      t.part.cmd.pending = s.part.cmd.pending ∧ t.part.cmd.release = .idle ∧
      ((∃ z : ZoneId, (s.part.zone z).latch = true) →
        t.part.cmd.reason = some .smokeActive ∧ t.part.cmd.resultA = none ∧ t.part.cmd.resultB = none ∧
        t.part.bank .gate =
          ((gateAfterAbandonment s.grant.part).take ⟨.fault, .commitRefused, none, some (.reason .smokeActive)⟩).count) ∧
      ((∀ z : ZoneId, (s.part.zone z).latch = false) → ∀ f, validate s.part.cmd.pending = some f →
        t.part.cmd.reason = some .configInvalid ∧
        t.part.cmd.resultA = f.channel.map (fun n => BitVec.ofNat 16 n.val) ∧
        t.part.cmd.resultB = some (BitVec.ofNat 16 f.offset) ∧
        t.part.bank .gate = ((gateAfterAbandonment s.grant.part).take
          ⟨.fault, .commitRefused, f.channel.map Subject.channel, some (.reason .configInvalid)⟩).count) ∧
      s.part.SameChans t.part ∧ s.part.SameLines t.part ∧ s.part.SameZones t.part ∧ t.part.weather = s.part.weather ∧
      t.part.globals = s.part.globals ∧ s.grant.part.SameBanksBut t.part .gate ∧ s.part.SameNotices t.part ∧
      s.WritesOnly t (s.bus.addressOf 0x1D0)

/-- R172: a pending copy passes validation exactly when every field is in its range, no two channels in use share a line and
node, and the storm clear limit is at most the storm set limit. Of the failures the first is named: the first word in
ascending offset order with a field out of its range, with its channel where it is a channel's word and its offset; with all
in range, the first channel in use that shares line and node with a lower-numbered one in use, with the offset of its word
that holds them; with no clash, the storm limits, with the offset of the storm clear limit word and no channel. -/
def Obligations.ValidationChecksRangesBindingsAndStormLimits : Prop :=
  ∀ p : ConfigWords,
    let good (i : Fin 209) : Prop :=
      let w := configWord p i.val
      let within (lo hi : Nat) : Prop := lo ≤ w.toNat ∧ w.toNat ≤ hi
      (i.val < 0xC0 →
        (i.val % 4 = 0 → field w 12 2 ≤ 2 ∧ field w 0 10 ≤ 1000) ∧
        (i.val % 4 = 1 → field w 11 3 ≤ 5 ∧ 1 ≤ field w 0 4 ∧ field w 0 4 ≤ 12) ∧
        (i.val % 4 = 2 → field w 0 6 ≤ 50) ∧ (i.val % 4 = 3 → within 5 600)) ∧
      (0xC0 ≤ i.val → i.val ≤ 0xC5 → 10 ≤ field w 0 8 ∧ field w 0 8 ≤ 240) ∧
      (i = 0xC7 → within 1 8) ∧ (i = 0xC8 ∨ i = 0xC9 ∨ i = 0xCC → within 1 65535) ∧ (i = 0xCA → within 1 15) ∧
      (i = 0xCB → within 1 255) ∧ (i = 0xCD → within 1 60) ∧ (i = 0xCE → within 10 3600) ∧ (i = 0xCF → within 1 7) ∧
      (i = 0xD0 → within 2 60)
    let clashes (n : ChannelId) : Prop := (pendingChannel p n).cls ≠ .unused ∧ ∃ m : ChannelId, m < n ∧
      (pendingChannel p m).cls ≠ .unused ∧ (pendingChannel p m).line = (pendingChannel p n).line ∧
      (pendingChannel p m).node = (pendingChannel p n).node
    (∀ i : Fin 209, ¬ good i → (∀ j : Fin 209, j < i → good j) →
      validate p = some ⟨if h : i.val < 192 then some ⟨i.val / 4, by omega⟩ else none, 0x200 + i.val⟩) ∧
    ((∀ i : Fin 209, good i) → ∀ n : ChannelId, clashes n → (∀ m : ChannelId, m < n → ¬ clashes m) →
      validate p = some ⟨some n, 0x201 + 4 * n.val⟩) ∧
    ((∀ i : Fin 209, good i) → (∀ n : ChannelId, ¬ clashes n) →
      (pendingGlobals p).stormSetLimit < (pendingGlobals p).stormClearLimit → validate p = some ⟨none, 0x2C9⟩) ∧
    (validate p = none ↔
    (∀ n : ChannelId, field (configWord p (4 * n.val)) 12 2 ≤ 2 ∧ field (configWord p (4 * n.val)) 0 10 ≤ 1000 ∧
      field (configWord p (4 * n.val + 1)) 11 3 ≤ 5 ∧ 1 ≤ (pendingChannel p n).node.toNat ∧
      (pendingChannel p n).node.toNat ≤ 12 ∧ (pendingChannel p n).tolerance ≤ 50 ∧
      5 ≤ (pendingChannel p n).travelLimit ∧ (pendingChannel p n).travelLimit ≤ 600) ∧
    (∀ z : ZoneId, 10 ≤ pendingSmokeDeadline p z ∧ pendingSmokeDeadline p z ≤ 240) ∧
    (let g := pendingGlobals p;
      1 ≤ g.windWindow ∧ g.windWindow ≤ 8 ∧ 1 ≤ g.stormSetLimit ∧ 1 ≤ g.stormClearLimit ∧ 1 ≤ g.stormSetCount ∧
      g.stormSetCount ≤ 15 ∧ 1 ≤ g.stormClearCount ∧ g.stormClearCount ≤ 255 ∧ 1 ≤ g.smokeWindLimit ∧
      1 ≤ g.rainOnDelay ∧ g.rainOnDelay ≤ 60 ∧ 10 ≤ g.rainOffDelay ∧ g.rainOffDelay ≤ 3600 ∧ 1 ≤ g.retryLimit ∧
      g.retryLimit ≤ 7 ∧ 2 ≤ g.supervisionInterval ∧ g.supervisionInterval ≤ 60 ∧
      g.stormClearLimit ≤ g.stormSetLimit) ∧
    (∀ m n : ChannelId, m < n → (pendingChannel p m).cls ≠ .unused → (pendingChannel p n).cls ≠ .unused →
      ¬ ((pendingChannel p m).line = (pendingChannel p n).line ∧ (pendingChannel p m).node = (pendingChannel p n).node)))

/-! ## Fire -/

/-- R47, R48: a loop takes a new classification: entering the alarm condition starts the timer of its mode, leaving it stops
the timer, and otherwise the timer stands; an entry into a loop fault is recorded in the INPUT bank. A report of the state
the loop is in is no change of it, and changes nothing (log 3). -/
def Obligations.LoopChangeStartsOrStopsTheTimer : Prop :=
  ∀ (s : State) (loop : LoopId) (x : LoopState),
    let g := s.part.loop loop
    let alarm (y : LoopState) : Prop := y = .alarm ∨ ((y = .openCircuit ∨ y = .shortCircuit) ∧ g.cfg.faultAsAlarm = true)
    ∃ t, Sys2Proof.Machine.exec (.loopChange loop x) s = .next t ∧
      (t.part.loop loop).state = x ∧ (t.part.loop loop).cfg = g.cfg ∧
      (g.state ≠ x → ¬ alarm x → (t.part.loop loop).timer = none) ∧
      (alarm x → ¬ alarm g.state → (t.part.loop loop).timer = some (g.cfg.mode, s.part.now)) ∧
      (alarm x → alarm g.state → (t.part.loop loop).timer = g.timer) ∧
      (g.state = x → t.part.loop loop = g ∧ t.part.bank .input = s.part.bank .input) ∧
      (g.state ≠ x → (x = .normal ∨ x = .alarm) → t.part.bank .input = s.part.bank .input) ∧
      (g.state ≠ x → x = .openCircuit → t.part.bank .input = ((s.part.bank .input).take
        ⟨.fault, .loopOpen, some (match loop with | .zone z => .zone z | .ga => .ga), none⟩).count) ∧
      (g.state ≠ x → x = .shortCircuit → t.part.bank .input = ((s.part.bank .input).take
        ⟨.fault, .loopShort, some (match loop with | .zone z => .zone z | .ga => .ga), none⟩).count) ∧
      (∀ z : ZoneId, (t.part.zone z).latch = (s.part.zone z).latch ∧ (t.part.zone z).deadline = (s.part.zone z).deadline) ∧
      (∀ k : LoopId, k ≠ loop → t.part.loop k = s.part.loop k) ∧
      s.part.SameBanksBut t.part .input ∧ s.part.SameChans t.part ∧ s.part.SameLines t.part ∧
      t.part.weather = s.part.weather ∧ t.part.globals = s.part.globals ∧ t.part.cmd = s.part.cmd ∧
      s.part.SameNotices t.part ∧ s.EventOnly t

/-- R30, R36, R49, R50, R52 to R57: the running timer of a loop in its alarm condition reaches its length (an expiry taken
early moves the clock forward to its instant, log 2): the timer stops, and each zone the loop serves whose latch is clear is
set, its deadline RUNNING with its smoke deadline remaining and the overrun count 0; a zone whose latch is set stands. In a
zone newly set every HOLD channel in use freezes its granted target, every channel holds the result of the governing order,
and every FAULTED channel with action OPEN or CLOSE loses its fault. If a latch was set, every line in QUIETING, QUIET or
TEST is in RUN. -/
def Obligations.LoopQualificationSetsTheLatches : Prop :=
  ∀ (s : State) (loop : LoopId) (mode : FireMode) (since : Nat),
    (s.part.loop loop).timer = some (mode, since) → (s.part.loop loop).inAlarm = true →
    let serves (z : ZoneId) : Prop := loop = .zone z ∨ loop = .ga
    let newly (z : ZoneId) : Prop := serves z ∧ (s.part.zone z).latch = false
    ∃ t, Sys2Proof.Machine.exec (match mode with | .level => .levelTimerExpiry loop | .pulse => .pulseTimerExpiry loop) s =
        .next t ∧
      (t.part.loop loop).timer = none ∧
      t.part.now = max s.part.now (since + (match mode with | .level => 200 | .pulse => 50)) ∧
      (∀ z : ZoneId, newly z →
        (t.part.zone z).latch = true ∧ (t.part.zone z).deadline = .running ∧
        (t.part.zone z).remaining = some (s.part.zone z).smokeDeadline ∧ (t.part.zone z).overrun = 0 ∧
        (t.part.zone z).overrunRunning = false ∧ (t.part.zone z).override = (s.part.zone z).override ∧
        ∀ n : ChannelId, (s.part.chan n).cfg.zone = z →
          ((t.part.chan n).governing, (t.part.chan n).granted) = governs t.part.weather (t.part.zone z) (t.part.chan n) ∧
          ((s.part.chan n).cfg.cls ≠ .unused → (s.part.chan n).cfg.smokeAction = .holds →
            (t.part.chan n).freeze = (s.part.chan n).granted) ∧
          ((s.part.chan n).motion = .faulted → (s.part.chan n).cfg.smokeAction ≠ .holds →
            (t.part.chan n).fault = none ∧ (t.part.chan n).lastFault = (s.part.chan n).fault ∧
            (t.part.chan n).motion ≠ .faulted)) ∧
      (∀ z : ZoneId, ¬ newly z → (t.part.zone z).latch = (s.part.zone z).latch ∧
        (t.part.zone z).deadline = (s.part.zone z).deadline ∧ (t.part.zone z).remaining = (s.part.zone z).remaining ∧
        ∀ n : ChannelId, (s.part.chan n).cfg.zone = z → t.part.chan n = s.part.chan n) ∧
      ((∃ z, newly z) → ∀ l : LineId,
        ((s.part.line l).state = .quieting ∨ (s.part.line l).state = .quiet ∨ (s.part.line l).state = .test →
          (t.part.line l).state = .run) ∧
        ((s.part.line l).state = .test → (t.part.line l).test.result = some .aborted) ∧
        ((s.part.line l).state = .run ∨ (s.part.line l).state = .disabled ∨ (s.part.line l).state = .failed →
          (t.part.line l).state = (s.part.line l).state)) ∧
      t.part.weather = s.part.weather ∧ t.part.globals = s.part.globals ∧ t.part.cmd = s.part.cmd ∧
      s.part.SameNotices t.part ∧ s.EventOnly t

/-- R58 to R60, R62, R64: a judgement of a zone: complete is yes when the latch is clear or every counting channel has arrived;
the indicator follows it while the latch is set; a RUNNING deadline of a complete zone becomes MET, and the overrun count of a
MISSED one stops. Everything else stands. -/
def Obligations.CompletenessJudgementUpdatesTheZone : Prop :=
  ∀ (s : State) (z : ZoneId),
    let x := s.part.zone z
    let complete : Prop := x.latch = false ∨ ∀ n : ChannelId,
      (s.part.chan n).cfg.zone = z → (s.part.chan n).cfg.cls ≠ .unused → (s.part.chan n).governing = .smoke →
      (s.part.chan n).cfg.smokeAction ≠ .holds →
      (s.part.chan n).motion = .idle ∧ withinTolerance (s.part.chan n) (s.part.chan n).granted = true
    ∃ t, Sys2Proof.Machine.exec (.completenessJudgement z) s = .next t ∧
      (complete →
        t.part.zone z = { x with
          complete := true, indicator := x.latch,
          deadline := if x.deadline = .running then .met else x.deadline,
          remaining := if x.deadline = .running then none else x.remaining,
          overrunRunning := if x.deadline = .missed then false else x.overrunRunning }) ∧
      (¬ complete → t.part.zone z = { x with complete := false, indicator := false }) ∧
      (∀ y : ZoneId, y ≠ z → t.part.zone y = s.part.zone y) ∧ t.part.ga = s.part.ga ∧
      s.part.SameBanks t.part ∧ s.part.SameChans t.part ∧ s.part.SameLines t.part ∧ t.part.weather = s.part.weather ∧
      t.part.globals = s.part.globals ∧ t.part.cmd = s.part.cmd ∧ s.part.SameNotices t.part ∧ s.EventOnly t

/-- R57, R61, R62: a whole second of a RUNNING deadline takes 1 from what remains, the clock moving forward to the second
where it is taken early (log 2); the second that would leave 0, with the zone incomplete, makes the deadline MISSED, starts
the overrun count and records DEADLINE_MISSED (SAFETY), by either of its two rows (log 13); each second of a MISSED deadline
whose overrun runs adds 1, up to 65,535. -/
def Obligations.DeadlineAndOverrunCountSeconds : Prop :=
  ∀ (s : State) (z : ZoneId),
    let x := s.part.zone z
    let at' := max s.part.now (x.secondMark + 1000)
    (∀ r : Nat, x.deadline = .running → x.remaining = some (r + 2) →
      ∃ t, Sys2Proof.Machine.exec (.deadlineSecond z) s = .next t ∧
        t.part.zone z = { x with remaining := some (r + 1), secondMark := at' } ∧ s.part.SameBanks t.part ∧
        (∀ y : ZoneId, y ≠ z → t.part.zone y = s.part.zone y) ∧ s.part.SameChans t.part ∧ s.part.SameLines t.part ∧
        s.EventOnly t) ∧
    (x.deadline = .running → x.remaining = some 1 → s.part.zoneComplete z = false →
      ∀ c : Instr, c = .deadlineSecond z ∨ c = .deadlineExpiry z →
      ∃ t, Sys2Proof.Machine.exec c s = .next t ∧
        t.part.zone z = { x with deadline := .missed, remaining := none, overrunRunning := true, secondMark := at' } ∧
        t.part.bank .zone = ((s.part.bank .zone).take ⟨.safety, .deadlineMissed, some (.zone z), none⟩).count ∧
        s.part.SameBanksBut t.part .zone ∧ (∀ y : ZoneId, y ≠ z → t.part.zone y = s.part.zone y) ∧
        s.part.SameChans t.part ∧ s.part.SameLines t.part ∧ s.EventOnly t) ∧
    (x.deadline = .missed → x.overrunRunning = true →
      ∃ t, Sys2Proof.Machine.exec (.overrunSecond z) s = .next t ∧
        t.part.zone z = { x with overrun := min (x.overrun + 1) 65535, secondMark := at' } ∧ s.part.SameBanks t.part ∧
        (∀ y : ZoneId, y ≠ z → t.part.zone y = s.part.zone y) ∧ s.part.SameChans t.part ∧ s.part.SameLines t.part ∧
        s.EventOnly t)

/-! ## Weather -/

/-- R71: a pulse adds 1 to the window pulse count, up to 65,535, and changes nothing else. -/
def Obligations.AnemometerPulseIsCounted : Prop :=
  ∀ s : State, ∃ t, Sys2Proof.Machine.exec .anemometerPulse s = .next t ∧
    t.part.weather = { s.part.weather with pulses := min (s.part.weather.pulses + 1) 65535 } ∧
    s.part.SameChans t.part ∧ s.part.SameLines t.part ∧ s.part.SameZones t.part ∧ t.part.globals = s.part.globals ∧
    t.part.cmd = s.part.cmd ∧ s.part.SameBanks t.part ∧ s.part.SameNotices t.part ∧ s.EventOnly t

/-- R71 to R77, R82: a window end, which taken early moves the clock forward to its instant (log 2), stores the count and the
Gray-decoded vane sample, starts the next window, and judges storm with its runs, smoke wind, and the settled sector; if one
of the three conditions changed, every channel holds the result of the governing order, and otherwise no channel changes. -/
def Obligations.WindowEndJudgesTheWeather : Prop :=
  ∀ (s : State) (vane : BitVec 3) (order : PublicationOrder),
    let w := s.part.weather
    let g := s.part.globals
    let sample : Fin 8 := #v[0, 1, 3, 2, 7, 6, 4, 5][vane.toNat]
    ∃ t, Sys2Proof.Machine.exec (.windowEnd vane order) s = .next t ∧
      t.part.weather.lastCount = some w.pulses ∧ t.part.weather.lastSample = some sample ∧ t.part.weather.pulses = 0 ∧
      t.part.now = max s.part.now (w.windowStart + g.windWindow * 1000) ∧ t.part.weather.windowStart = t.part.now ∧
      (w.storm = false → g.stormSetLimit ≤ w.pulses → g.stormSetCount ≤ w.setRun + 1 →
        t.part.weather.storm = true ∧ t.part.weather.setRun = 0 ∧ t.part.weather.clearRun = 0) ∧
      (w.storm = false → g.stormSetLimit ≤ w.pulses → w.setRun + 1 < g.stormSetCount →
        t.part.weather.storm = false ∧ t.part.weather.setRun = w.setRun + 1) ∧
      (w.storm = false → w.pulses < g.stormSetLimit → t.part.weather.storm = false ∧ t.part.weather.setRun = 0) ∧
      (w.storm = true → w.pulses < g.stormClearLimit → g.stormClearCount ≤ w.clearRun + 1 →
        t.part.weather.storm = false ∧ t.part.weather.setRun = 0 ∧ t.part.weather.clearRun = 0) ∧
      (w.storm = true → w.pulses < g.stormClearLimit → w.clearRun + 1 < g.stormClearCount →
        t.part.weather.storm = true ∧ t.part.weather.clearRun = w.clearRun + 1) ∧
      (w.storm = true → g.stormClearLimit ≤ w.pulses → t.part.weather.storm = true ∧ t.part.weather.clearRun = 0) ∧
      (t.part.weather.smokeWind = true ↔ g.smokeWindLimit ≤ w.pulses) ∧
      t.part.weather.settled = (if w.lastSample = some sample then some sample else w.settled) ∧
      t.part.weather.rainState = w.rainState ∧ t.part.weather.rainFrom = w.rainFrom ∧
      (t.part.weather.storm = w.storm → t.part.weather.smokeWind = w.smokeWind → t.part.weather.settled = w.settled →
        s.part.SameChans t.part) ∧
      (t.part.weather.storm ≠ w.storm ∨ t.part.weather.smokeWind ≠ w.smokeWind ∨ t.part.weather.settled ≠ w.settled →
        ∀ n : ChannelId, ((t.part.chan n).governing, (t.part.chan n).granted) =
          governs t.part.weather (t.part.zone (t.part.chan n).cfg.zone) (t.part.chan n)) ∧
      s.part.SameZones t.part ∧ t.part.globals = g ∧ t.part.cmd = s.part.cmd ∧ s.part.SameBanks t.part ∧
      s.part.SameNotices t.part ∧ s.EventOnly t

/-- R78, R79, R82: a contact change moves the debounce state and starts or discards the rain timer; rain and the channels
stand. The rain timer reaching its delay (taken early it moves the clock forward to its instant, log 2) makes WETTING WET
with rain present, and DRYING DRY with rain clear, stops, and every channel holds the result of the governing order. -/
def Obligations.RainDebounceFollowsTheContact : Prop :=
  (∀ (s : State) (active : Bool),
    let w := s.part.weather
    ∃ t, Sys2Proof.Machine.exec (.rainContactChange active) s = .next t ∧
      (w.rainState = .dry → active = true →
        t.part.weather = { w with rainState := .wetting, rainFrom := some s.part.now }) ∧
      (w.rainState = .wetting → active = false → t.part.weather = { w with rainState := .dry, rainFrom := none }) ∧
      (w.rainState = .wet → active = false →
        t.part.weather = { w with rainState := .drying, rainFrom := some s.part.now }) ∧
      (w.rainState = .drying → active = true → t.part.weather = { w with rainState := .wet, rainFrom := none }) ∧
      t.part.weather.rain = w.rain ∧
      s.part.SameChans t.part ∧ s.part.SameLines t.part ∧ s.part.SameZones t.part ∧ t.part.globals = s.part.globals ∧
      t.part.cmd = s.part.cmd ∧ s.part.SameBanks t.part ∧ s.part.SameNotices t.part ∧ s.EventOnly t) ∧
  (∀ (s : State) (since : Nat), s.part.weather.rainFrom = some since →
    (s.part.weather.rainState = .wetting ∨ s.part.weather.rainState = .drying) →
    let w := s.part.weather
    ∃ t, Sys2Proof.Machine.exec .rainTimerExpiry s = .next t ∧
      (w.rainState = .wetting → t.part.weather = { w with rainState := .wet, rainFrom := none } ∧
        t.part.weather.rain = true ∧ t.part.now = max s.part.now (since + s.part.globals.rainOnDelay * 1000)) ∧
      (w.rainState = .drying → t.part.weather = { w with rainState := .dry, rainFrom := none } ∧
        t.part.weather.rain = false ∧ t.part.now = max s.part.now (since + s.part.globals.rainOffDelay * 1000)) ∧
      (∀ n : ChannelId, ((t.part.chan n).governing, (t.part.chan n).granted) =
        governs t.part.weather (t.part.zone (t.part.chan n).cfg.zone) (t.part.chan n)) ∧
      s.part.SameZones t.part ∧ t.part.globals = s.part.globals ∧ t.part.cmd = s.part.cmd ∧ s.part.SameBanks t.part ∧
      s.part.SameNotices t.part ∧ s.EventOnly t)

/-! ## Field lines -/

/-- The events of the field lines, of their channels and of the line tests, KEY frames apart, always answer a next state, and
none of them changes a captured value, a configuration, a grant, a zone, the weather or the command status; the banks only
take errors and the notice set only grows. -/
def Obligations.LineEventsKeepGrants : Prop :=
  ∀ (c : Instr) (s : State), lineEvent c = true →
    ∃ t, Sys2Proof.Machine.exec c s = .next t ∧ s.part.KeepsGrants t.part ∧ s.EventOnly t

/-- R97, R102, R127, R129 to R132: a transaction start always answers. It starts nothing while an exchange is in flight, an
answer waits, a window is due or in force, or the rest of another sender's frame is still on the line (log 42). Otherwise it
takes, in RUN, the retake if its work stands, else the first URGENT order in queue order without backoff, else the due poll
whose turn is next after the poll position, else the first ROUTINE order without backoff, else the due supervision whose turn
is next; in QUIETING, a retake that is a HALT or a poll, else the first HALT of the URGENT group without backoff, else the
due poll whose turn is next; in the other states nothing. The order taken leaves the queue and its channel enters ORDERING, a
HALT's channel staying as it is; a poll or a supervision moves its position. Its frame is on the wire and the retake is gone.
A start taken before the line is free moves the clock forward to that instant (logs 2 and 23). -/
def Obligations.TransactionStartTakesTheFirstWork : Prop :=
  ∀ (s : State) (l : LineId),
    let x := s.part.line l
    let bound (n : ChannelId) : Prop := (s.part.chan n).boundTo l = true
    let polled (n : ChannelId) : Prop := bound n ∧ (s.part.chan n).motion = .moving ∧ (s.part.chan n).pollDue = true
    let awaited (n : ChannelId) : Prop :=
      bound n ∧ supervised (s.part.chan n).motion = true ∧ (s.part.chan n).supDue = true
    let opens : Prop := x.exchange = none ∧ x.answer = none ∧ x.window = .none ∧ x.receiving = false
    ∃ t, Sys2Proof.Machine.exec (.transactionStart l) s = .next t ∧
      (let started (e : ExchangeKind) (n : ChannelId) (frame : Frame) (y : Line) : Prop :=
          t.part.line l = { y with
            exchange := some ⟨e, (s.part.chan n).cfg.node, none⟩, retake := none, wire := frame.bytes } ∧
          t.part.now = max s.part.now x.freeAt ∧ (∀ m : ChannelId, m ≠ n → t.part.chan m = s.part.chan m)
        let takes (o : Order) : Prop :=
          started (.order o) o.channel
            (match o.work with
              | .move target => .order (s.part.chan o.channel).cfg.node (BitVec.ofNat 16 target)
              | .halt _ => .halt (s.part.chan o.channel).cfg.node)
            { x with
              urgent := x.urgent.filter (fun q => decide (q.channel ≠ o.channel))
              routine := x.routine.filter (fun q => decide (q.channel ≠ o.channel)) } ∧
          t.part.chan o.channel =
            (if o.isHalt = true then s.part.chan o.channel
            else { s.part.chan o.channel with
              motion := .ordering, supFrom := none, supDue := false, pollFrom := none, pollDue := false })
        let polls (n : ChannelId) : Prop :=
          started (.query n true) n (.query (s.part.chan n).cfg.node) { x with pollPos := some n } ∧
          t.part.chan n = { s.part.chan n with pollDue := false, pollFrom := none }
        let supervises (n : ChannelId) : Prop :=
          started (.query n false) n (.query (s.part.chan n).cfg.node) { x with supPos := some n } ∧
          t.part.chan n = { s.part.chan n with supDue := false }
        let nothing : Prop := s.part.SameChans t.part ∧ s.part.SameLines t.part ∧ t.part.now = s.part.now
        (¬ opens → nothing) ∧
        (x.state = .quiet ∨ x.state = .test ∨ x.state = .disabled ∨ x.state = .failed → nothing) ∧
        (opens → x.state = .run →
          (∀ n o, x.retake = some (.move n) ∨ x.retake = some (.halt n) → x.queued n = some o → takes o) ∧
          (∀ n, x.retake = some (.poll n) → (s.part.chan n).motion = .moving → polls n) ∧
          (∀ n, x.retake = some (.supervise n) → supervised (s.part.chan n).motion = true → supervises n) ∧
          ((∀ n, x.retake = some (.move n) ∨ x.retake = some (.halt n) → x.queued n = none) →
            (∀ n, x.retake = some (.poll n) → (s.part.chan n).motion ≠ .moving) →
            (∀ n, x.retake = some (.supervise n) → supervised (s.part.chan n).motion = false) →
            (∀ o, FirstReady x.urgent o → takes o) ∧
            ((∀ o ∈ x.urgent, o.backoff ≠ none) →
              (∀ n, NextDue x.pollPos polled n → polls n) ∧
              ((∀ n, ¬ polled n) →
                (∀ o, FirstReady x.routine o → takes o) ∧
                ((∀ o ∈ x.routine, o.backoff ≠ none) →
                  (∀ n, NextDue x.supPos awaited n → supervises n) ∧ ((∀ n, ¬ awaited n) → nothing)))))) ∧
        (opens → x.state = .quieting →
          (∀ n o, x.retake = some (.halt n) → x.queued n = some o → takes o) ∧
          (∀ n, x.retake = some (.poll n) → (s.part.chan n).motion = .moving → polls n) ∧
          ((∀ n, x.retake = some (.halt n) → x.queued n = none) →
            (∀ n, x.retake = some (.poll n) → (s.part.chan n).motion ≠ .moving) →
            (∀ o, FirstReady (x.urgent.filter (fun q => q.isHalt)) o → takes o) ∧
            ((∀ o ∈ x.urgent, o.isHalt = true → o.backoff ≠ none) →
              (∀ n, NextDue x.pollPos polled n → polls n) ∧ ((∀ n, ¬ polled n) → nothing))))) ∧
      (∀ k : LineId, k ≠ l → (s.part.line k).state ≠ .quieting → t.part.line k = s.part.line k) ∧
      s.part.SameBanks t.part ∧ s.part.SameNotices t.part

/-- R102, R122: at the send of the exchange's frame its reply window opens; the first send of an ORDER starts its channel's
travel timer at 0 and ends an older accepted order and its short-travel mark; a later send, a HALT, a QUERY and a test frame
change no channel. The frame sets the measure of the line's watch back (log 22); it ends a wait of the line's receiver and
does not end a discard (log 50). A local-echo test frame, sent to its end, is left to LOCAL_ECHO_CHECK (log 35). -/
def Obligations.SendStartsTheTravelTimerOnce : Prop :=
  ∀ (s : State) (l : LineId) (e : Exchange), (s.part.line l).exchange = some e → e.sentAt = none →
    let heard : Receiver := if (s.part.line l).receiver = .discarding then .discarding else .looking
    let watch := (s.part.line l).watch.restart s.part.now
    ∃ t, Sys2Proof.Machine.exec (.send l) s = .next t ∧
      (∀ o, e.kind = .order o →
        t.part.line l = { s.part.line l with
          exchange := some ⟨.order { o with sent := true }, e.node, some s.part.now⟩, watch := watch, receiver := heard } ∧
        (o.isHalt = false → o.sent = false →
          t.part.chan o.channel = { s.part.chan o.channel with
            travel := some 0, secondMark := s.part.now, accepted := none, shortMark := false }) ∧
        (o.isHalt = true ∨ o.sent = true → t.part.chan o.channel = s.part.chan o.channel) ∧
        (∀ n : ChannelId, n ≠ o.channel → t.part.chan n = s.part.chan n)) ∧
      (∀ n poll, e.kind = .query n poll →
        t.part.line l = { s.part.line l with
          exchange := some { e with sentAt := some s.part.now }, watch := watch, receiver := heard } ∧
        s.part.SameChans t.part) ∧
      (∀ bytes d, e.kind = .test bytes d →
        t.part.line l = (if e.node = 0 then s.part.line l
          else { s.part.line l with
            exchange := some { e with sentAt := some s.part.now }, watch := watch, receiver := heard }) ∧
        s.part.SameChans t.part) ∧
      (∀ k : LineId, k ≠ l → (s.part.line k).state ≠ .quieting → t.part.line k = s.part.line k) ∧
      t.part.now = s.part.now ∧ s.part.SameBanks t.part ∧ s.part.SameNotices t.part

/-- R103, R107, R112, R114, R116, R120, R123, R198: a reply timeout, 10 ms after the send (an early one moves the clock
there, log 2), a reception the receiver finds damaged, a STATUS with node motion 3 or a cut TEST frame (CHECK_ERROR), or a
valid frame of another kind or address (UNEXPECTED_FRAME) ends an ORDER, HALT or QUERY in flight as a failure: the notice of
its name joins the line's bank, with the channel as subject (also of a KEY frame with a bad CRC, of which R87 names the line:
log 53). An ORDER with a newer one queued is discarded; otherwise it re-enters at the head of its group with one retry less,
or on its last retry the channel becomes FAULTED, CHECK_ERROR by that failure and else NO_RESPONSE. A HALT likewise
re-enters, or its channel becomes FAULTED, HALT_UNCONFIRMED. A QUERY adds 1 to the miss count, up to 3: at 3 an IDLE, QUEUED
or MOVING channel becomes OFFLINE; a HALTING channel's count stands. A channel so faulted or lost is recorded in the CHANNEL
bank, CHANNEL_FAULTED with its fault code or CHANNEL_OFFLINE, SAFETY under SMOKE and else FAULT. -/
def Obligations.FailedTransactionCountsAgainstItsChannel : Prop :=
  ∀ (s : State) (l : LineId) (e : Exchange) (sent : Nat) (c : Instr) (kind : ErrorKind) (at' free : Nat)
    (a : BitVec 4) (p : Word) (m f r z k : Byte) (came : List Byte) (good first : Bool) (heard : Reception),
    let x := s.part.line l
    x.exchange = some e → e.sentAt = some sent → x.state ≠ .disabled →
    (c = .replyTimeout l ∧ kind = .replyTimeout ∧ at' = max s.part.now (sent + 10) ∧ free = at' ∨
      (c = .damagedFrame l heard ∧ Damaged x.receiver heard ∧ kind = .checkError ∨
        c = .status l a p m f ∧ m.extractLsb' 0 2 = 3 ∧ kind = .checkError ∨
        c = .status l a p m f ∧ m.extractLsb' 0 2 ≠ 3 ∧ (a ≠ e.node ∨ ∃ o, e.kind = .order o ∧ o.isHalt = false) ∧
          kind = .unexpectedFrame ∨
        (c = .accept l a ∨ c = .busy l a ∨ c = .refuse l a r) ∧ (a ≠ e.node ∨ ∃ n poll, e.kind = .query n poll) ∧
          kind = .unexpectedFrame ∨
        c = .testEcho l a came good ∧
          kind = (if came.length = 8 ∧ good = true then .unexpectedFrame else .checkError) ∨
        c = .key l a z k first ∧ a ≠ 14 ∧ a ≠ 15 ∧ kind = .unexpectedFrame) ∧ at' = s.part.now ∧ free = at' + 2) →
    (∀ bytes d, e.kind ≠ .test bytes d) →
    ∃ t, Sys2Proof.Machine.exec c s = .next t ∧
      (t.part.line l).exchange = none ∧ (t.part.line l).freeAt = free ∧ t.part.now = at' ∧
      (let recorded (n : ChannelId) (k : ErrorKind) (d : Option Detail) : Prop :=
        t.part.bank .channel =
          ((s.part.bank .channel).take ⟨ruledSeverity (s.part.chan n), k, some (.channel n), d⟩).count
      (∀ o, e.kind = .order o →
        let a := s.part.chan o.channel
        let b := t.part.chan o.channel
        t.part.bank (.line l) = ((s.part.bank (.line l)).take ⟨.notice, kind, some (.channel o.channel), none⟩).count ∧
        (o.isHalt = false → x.queued o.channel ≠ none →
          (t.part.line l).urgent = x.urgent ∧ (t.part.line l).routine = x.routine ∧ b.fault = a.fault ∧
          b.motion = (if a.accepted = none then .queued else .moving) ∧
          b.travel = (if a.accepted = none then none else a.travel)) ∧
        (o.isHalt = false → x.queued o.channel = none → 1 < o.retriesLeft →
          (t.part.line l).urgent =
            (if o.cls = .urgent then { o with retriesLeft := o.retriesLeft - 1 } :: x.urgent else x.urgent) ∧
          (t.part.line l).routine =
            (if o.cls = .routine then { o with retriesLeft := o.retriesLeft - 1 } :: x.routine else x.routine) ∧
          b.fault = a.fault ∧ b.motion = (if a.accepted = none then .queued else .moving) ∧
          b.travel = (if a.accepted = none ∧ o.sent = false then none else a.travel)) ∧
        (o.isHalt = false → x.queued o.channel = none → o.retriesLeft ≤ 1 →
          let f : FaultCode :=
            if kind = .checkError then .checkError o.retriesAtQueueing else .noResponse o.retriesAtQueueing
          b.motion = .faulted ∧ b.accepted = none ∧ b.travel = none ∧ b.shortMark = false ∧ b.fault = some f ∧
          recorded o.channel .channelFaulted (some (.fault f))) ∧
        (o.isHalt = true → 1 < o.retriesLeft →
          (t.part.line l).urgent = { o with cls := .urgent, retriesLeft := o.retriesLeft - 1 } :: x.urgent ∧
          (t.part.line l).routine = x.routine ∧ b = a) ∧
        (o.isHalt = true → o.retriesLeft ≤ 1 →
          (t.part.line l).urgent = x.urgent ∧ (t.part.line l).routine = x.routine ∧ b.motion = .faulted ∧
          b.fault = some (.haltUnconfirmed o.retriesAtQueueing) ∧
          recorded o.channel .channelFaulted (some (.fault (.haltUnconfirmed o.retriesAtQueueing)))) ∧
        b.position = a.position ∧ b.report = a.report ∧ b.miss = a.miss ∧
        (∀ n : ChannelId, n ≠ o.channel → t.part.chan n = s.part.chan n)) ∧
      (∀ n poll, e.kind = .query n poll →
        let a := s.part.chan n
        let b := t.part.chan n
        t.part.bank (.line l) = ((s.part.bank (.line l)).take ⟨.notice, kind, some (.channel n), none⟩).count ∧
        b.fault = a.fault ∧
        (a.motion = .idle ∨ a.motion = .queued ∨ a.motion = .moving →
          b.miss = min (a.miss + 1) 3 ∧
          (a.miss + 1 < 3 → b.motion = a.motion ∧ b.position = a.position ∧ b.report = a.report ∧
            b.accepted = a.accepted ∧ b.travel = a.travel) ∧
          (3 ≤ a.miss + 1 → b.motion = .offline ∧ b.position = none ∧ b.report = none ∧ b.accepted = none ∧
            b.travel = none ∧ b.shortMark = false ∧ recorded n .channelOffline none)) ∧
        (a.motion = .faulted → b.motion = .faulted ∧ b.miss = min (a.miss + 1) 3 ∧
          (a.miss = 2 → b.position = none ∧ b.report = none) ∧
          (a.miss ≠ 2 → b.position = a.position ∧ b.report = a.report)) ∧
        (a.motion = .offline → b.motion = .offline ∧ b.miss = min (a.miss + 1) 3) ∧
        (a.motion = .halting → b.motion = .halting ∧ b.miss = a.miss) ∧
        ((b.motion = .idle ∨ b.motion = .queued ∨ b.motion = .offline ∨ b.motion = .faulted) →
          b.supFrom = some at' ∧ b.supDue = false) ∧
        (∀ m : ChannelId, m ≠ n → t.part.chan m = s.part.chan m)))

/-- R108 to R111, R114, R116: a STATUS from the node of a sent QUERY ends it, sets position, node report and a miss count of
0, and then, with a fault flag, faults its channel unless that is FAULTED or HALTING; a MOVING channel that STOPPED within
tolerance of its accepted target completes, joining the notice set where notify is on, and one that STOPPED elsewhere makes
its first short stop, its second, or gives way to its newer order; an OFFLINE channel is acquired. A STATUS that answers a
HALT sets the three fields and faults the channel with TRAVEL_TIMEOUT. A fault is recorded in the CHANNEL bank with its code,
SAFETY under SMOKE and else FAULT. A STATUS with node motion 3 is damaged (R198) and fails the transaction with CHECK_ERROR
(R123; what the failure does is FailedTransactionCountsAgainstItsChannel); with nothing in flight on a line not DISABLED a
STATUS is recorded against the line, CHECK_ERROR with node motion 3 and else UNEXPECTED_FRAME (R124; on a FAILED line log
19). -/
def Obligations.StatusSettlesItsTransaction : Prop :=
  (∀ (s : State) (l : LineId) (addr : BitVec 4) (position : Word) (motion faults : Byte),
    let x := s.part.line l
    (x.state ≠ .disabled → x.exchange = none →
      ∃ t, Sys2Proof.Machine.exec (.status l addr position motion faults) s = .next t ∧
        t.part.bank (.line l) = ((s.part.bank (.line l)).take
          ⟨.notice, if motion.extractLsb' 0 2 = 3 then .checkError else .unexpectedFrame, some (.line l), none⟩).count ∧
        (t.part.line l).freeAt = max x.freeAt (s.part.now + 2) ∧ s.part.SameBanksBut t.part (.line l) ∧
        s.part.SameChans t.part) ∧
    (∀ (e : Exchange) (sent : Nat) (n : ChannelId), x.state ≠ .disabled → x.exchange = some e → e.sentAt = some sent →
      e.kind.channel = some n → motion.extractLsb' 0 2 = 3 →
      ∃ t, Sys2Proof.Machine.exec (.status l addr position motion faults) s = .next t ∧
        t.part.bank (.line l) = ((s.part.bank (.line l)).take ⟨.notice, .checkError, some (.channel n), none⟩).count ∧
        (t.part.line l).exchange = none ∧ (t.part.line l).freeAt = s.part.now + 2 ∧
        (∀ k : ChannelId, k ≠ n → t.part.chan k = s.part.chan k))) ∧
  ∀ (s : State) (l : LineId) (addr : BitVec 4) (position : Word) (motion faults : Byte) (m : NodeMotion) (kind : ExchangeKind)
    (sent : Nat),
    let x := s.part.line l
    let seen : Option Nat := if position.toNat ≤ 1000 then some position.toNat else none
    let report : NodeReport := ⟨m, motion.getLsbD 2, motion.getLsbD 3⟩
    let flags : BitVec 3 := faults.extractLsb' 0 3
    let faulted (t : State) (n : ChannelId) (f : FaultCode) : Prop :=
      (t.part.chan n).motion = .faulted ∧ (t.part.chan n).fault = some f ∧
      t.part.bank .channel = ((s.part.bank .channel).take
        ⟨ruledSeverity (s.part.chan n), .channelFaulted, some (.channel n), some (.fault f)⟩).count
    x.exchange = some ⟨kind, addr, some sent⟩ →
    (motion.extractLsb' 0 2 = match m with | .stopped => 0 | .opening => 1 | .closing => 2) →
    (∀ n poll, kind = .query n poll →
      ∃ t, Sys2Proof.Machine.exec (.status l addr position motion faults) s = .next t ∧
        (t.part.line l).exchange = none ∧ (t.part.line l).freeAt = s.part.now + 2 ∧
        (let a := s.part.chan n; let b := t.part.chan n;
          let within (target : Nat) : Prop := ∃ v, seen = some v ∧ v ≤ target + a.cfg.tolerance ∧ target ≤ v + a.cfg.tolerance
          b.position = seen ∧ b.report = some report ∧ b.miss = 0 ∧
          (flags ≠ 0 → a.motion ≠ .faulted → a.motion ≠ .halting →
            faulted t n (.nodeFault flags) ∧ b.accepted = none ∧ b.travel = none ∧ b.shortMark = false ∧
            s.part.SameNotices t.part) ∧
          (flags = 0 → b.fault = a.fault ∨ b.motion = .faulted) ∧
          (a.motion = .faulted ∨ a.motion = .halting → b.motion = a.motion ∧ b.fault = a.fault) ∧
          (flags = 0 → a.motion = .queued → b.motion = .queued) ∧
          (flags = 0 → a.motion = .moving → m ≠ .stopped →
            b.motion = .moving ∧ b.accepted = a.accepted ∧ b.travel = a.travel ∧
            b.pollFrom = (if poll then some s.part.now else a.pollFrom)) ∧
          (∀ target, flags = 0 → a.motion = .moving → m = .stopped → a.accepted = some target → within target →
            b.accepted = none ∧ b.travel = none ∧ b.shortMark = false ∧
            (s.part.queuedOf n = none → ∀ g, a.granted = some g →
              (within g → b.motion = .idle) ∧ (¬ within g → b.motion = .queued)) ∧
            (∀ o newer, s.part.queuedOf n = some o → o.work = .move newer → ¬ within newer → b.motion = .queued) ∧
            (∀ o newer, s.part.queuedOf n = some o → o.work = .move newer → within newer → a.granted = some newer →
              b.motion = .idle) ∧
            (∀ k : Nat, k < 48 → t.part.notices.getLsbD k =
              (s.part.notices.getLsbD k || (decide (k = n.val) && a.notify)))) ∧
          (∀ target, flags = 0 → a.motion = .moving → m = .stopped → a.accepted = some target → ¬ within target →
            b.accepted = none ∧ s.part.SameNotices t.part ∧
            (s.part.queuedOf n ≠ none → b.motion = .queued ∧ b.travel = none ∧ b.shortMark = false) ∧
            (s.part.queuedOf n = none → a.shortMark = false →
              b.motion = .queued ∧ b.travel = a.travel ∧ b.shortMark = true ∧
              ∃ o : Order, t.part.queuedOf n = some o ∧ o.work = .move target ∧ o.sent = true ∧
                o.retriesLeft = s.part.globals.retryLimit ∧ o.retriesAtQueueing = s.part.globals.retryLimit) ∧
            (s.part.queuedOf n = none → a.shortMark = true →
              faulted t n (.shortTravel seen) ∧ b.travel = none ∧ b.shortMark = false)) ∧
          (∀ g, flags = 0 → (a.motion = .offline ∨ a.motion = .idle) → a.granted = some g →
            (within g → b.motion = .idle) ∧
            (¬ within g → b.motion = .queued ∧ (s.part.queuedOf n = none →
              ∃ o : Order, t.part.queuedOf n = some o ∧ o.work = .move g)))) ∧
        (∀ k : ChannelId, k ≠ n → t.part.chan k = s.part.chan k) ∧
        s.part.SameBanksBut t.part .channel) ∧
    (∀ o expiry, kind = .order o → o.work = .halt expiry →
      ∃ t, Sys2Proof.Machine.exec (.status l addr position motion faults) s = .next t ∧
        (t.part.line l).exchange = none ∧ (t.part.line l).freeAt = s.part.now + 2 ∧
        (let b := t.part.chan o.channel;
          b.position = seen ∧ b.report = some report ∧ b.miss = 0 ∧ faulted t o.channel (.travelTimeout expiry)) ∧
        (∀ k : ChannelId, k ≠ o.channel → t.part.chan k = s.part.chan k) ∧
        s.part.SameBanksBut t.part .channel)

/-- R104 to R106, R114, R116, R123 to R125: ACCEPT, BUSY and REFUSE from the node of a sent ORDER or HALT end it with a miss
count of 0 and the line free 2 ms later. ACCEPT of an ORDER makes the channel MOVING with its target accepted; BUSY re-enters
it at the head of its group with a backoff, its retries unchanged, unless a newer one is queued; REFUSE faults the channel.
ACCEPT of a HALT faults its channel with TRAVEL_TIMEOUT, BUSY re-enters it and REFUSE faults with HALT_UNCONFIRMED (the miss
count at that REFUSE is log 25). A fault is recorded in the CHANNEL bank with its code, SAFETY under SMOKE and else FAULT.
With no exchange in flight on a line not DISABLED each is an unexpected frame, as are a whole TEST echo with a good CRC and a
KEY frame from no station, and a reception the receiver finds damaged or any other TEST echo is a CHECK_ERROR: recorded
against the line, which is free 2 ms later but no earlier than a wait after an abandonment ends. That this holds on a FAILED
line too is log 19. -/
def Obligations.RepliesSettleTheirOrder : Prop :=
  ∀ (s : State) (l : LineId) (addr : BitVec 4) (reason : Byte) (came : List Byte) (good : Bool) (z k : Byte) (first : Bool)
    (heard : Reception),
    let x := s.part.line l
    (∀ (o : Order) (sent : Nat), x.exchange = some ⟨.order o, addr, some sent⟩ →
      let a := s.part.chan o.channel
      let ends (t : State) : Prop :=
        (t.part.line l).exchange = none ∧ (t.part.line l).freeAt = s.part.now + 2 ∧
        (t.part.chan o.channel).miss = 0 ∧ (t.part.chan o.channel).position = a.position ∧
        (t.part.chan o.channel).report = a.report ∧
        (∀ n : ChannelId, n ≠ o.channel → t.part.chan n = s.part.chan n) ∧
        s.part.SameBanksBut t.part .channel ∧ s.part.SameNotices t.part
      let faulted (t : State) (f : FaultCode) : Prop :=
        (t.part.chan o.channel).motion = .faulted ∧ (t.part.chan o.channel).fault = some f ∧
        t.part.bank .channel = ((s.part.bank .channel).take
          ⟨ruledSeverity a, .channelFaulted, some (.channel o.channel), some (.fault f)⟩).count
      (∃ t, Sys2Proof.Machine.exec (.accept l addr) s = .next t ∧ ends t ∧
        (t.part.line l).urgent = x.urgent ∧ (t.part.line l).routine = x.routine ∧
        (∀ target, o.work = .move target →
          (t.part.chan o.channel).motion = .moving ∧ (t.part.chan o.channel).accepted = some target ∧
          (t.part.chan o.channel).travel = a.travel ∧ (t.part.chan o.channel).shortMark = a.shortMark) ∧
        (∀ v, o.work = .halt v → faulted t (.travelTimeout v))) ∧
      (∃ t, Sys2Proof.Machine.exec (.busy l addr) s = .next t ∧ ends t ∧ s.part.SameBanks t.part ∧
        (o.isHalt = false → x.queued o.channel = none →
          (t.part.line l).urgent =
            (if o.cls = .urgent then { o with backoff := some s.part.now } :: x.urgent else x.urgent) ∧
          (t.part.line l).routine =
            (if o.cls = .routine then { o with backoff := some s.part.now } :: x.routine else x.routine)) ∧
        (o.isHalt = false → x.queued o.channel ≠ none →
          (t.part.line l).urgent = x.urgent ∧ (t.part.line l).routine = x.routine) ∧
        (o.isHalt = false → (t.part.chan o.channel).motion = (if a.accepted = none then .queued else .moving)) ∧
        (o.isHalt = true →
          (t.part.line l).urgent = { o with cls := .urgent, backoff := some s.part.now } :: x.urgent ∧
          (t.part.line l).routine = x.routine ∧ (t.part.chan o.channel).motion = a.motion)) ∧
      (∃ t, Sys2Proof.Machine.exec (.refuse l addr reason) s = .next t ∧ ends t ∧
        (o.isHalt = false → faulted t (.refused reason) ∧ (t.part.chan o.channel).accepted = none ∧
          (t.part.chan o.channel).travel = none ∧ (t.part.chan o.channel).shortMark = false) ∧
        (o.isHalt = true → faulted t (.haltUnconfirmed o.retriesAtQueueing)))) ∧
    (x.exchange = none → x.state ≠ .disabled →
      ∀ (c : Instr) (kind : ErrorKind),
      ((c = .accept l addr ∨ c = .busy l addr ∨ c = .refuse l addr reason) ∧ kind = .unexpectedFrame ∨
        c = .damagedFrame l heard ∧ Damaged x.receiver heard ∧ kind = .checkError ∨
        c = .testEcho l addr came good ∧
          kind = (if came.length = 8 ∧ good = true then .unexpectedFrame else .checkError) ∨
        c = .key l addr z k first ∧ addr ≠ 14 ∧ addr ≠ 15 ∧ kind = .unexpectedFrame) →
      ∃ t, Sys2Proof.Machine.exec c s = .next t ∧
        t.part.bank (.line l) = ((s.part.bank (.line l)).take ⟨.notice, kind, some (.line l), none⟩).count ∧
        (t.part.line l).freeAt = max x.freeAt (s.part.now + 2) ∧ (t.part.line l).receiving = false ∧
        s.part.SameBanksBut t.part (.line l) ∧ s.part.SameChans t.part)

/-- R86 to R88, R123, R125, R137: a KEY frame from station 14 or 15 on a line in RUN, QUIETING, QUIET or TEST with no
exchange in flight is answered: with a known command and a zone named it is taken, each named zone's override set or cleared,
and the channels of the named zones hold the result of the governing order; otherwise it is malformed, refused and recorded,
and nothing else changes. On a line DISABLED or FAILED it is not taken; on a FAILED one it sets the recovery measure back
(R137; that it does so at the frame's end is log 22). One that ends an ORDER, HALT or QUERY in flight is taken as well. The
line, and so the answer, is free 2 ms after the frame, but no earlier than a wait after an abandonment ends (R125 over R128
is log 39). -/
def Obligations.KeyFrameSetsTheOverrides : Prop :=
  ∀ (s : State) (l : LineId) (addr : BitVec 4) (zones command : Byte) (first : Bool), (addr = 14 ∨ addr = 15) →
    let x := s.part.line l
    let value : Option KeyOverride :=
      if command = 1 then some ⟨.opens, l, addr⟩ else if command = 2 then some ⟨.closes, l, addr⟩ else none
    let named (z : ZoneId) : Prop := zones.getLsbD z.val = true
    let valid : Prop := (∃ z, named z) ∧ (command = 1 ∨ command = 2 ∨ command = 3)
    ∃ t, Sys2Proof.Machine.exec (.key l addr zones command first) s = .next t ∧
      (x.state ≠ .disabled → x.state ≠ .failed → x.exchange = none →
        (t.part.line l).freeAt = max x.freeAt (s.part.now + 2) ∧ (t.part.line l).receiving = false ∧
        (valid →
          (t.part.line l).answer = some ⟨addr, true⟩ ∧
          (∀ z : ZoneId, named z → t.part.zone z = { s.part.zone z with override := value } ∧
            ∀ n : ChannelId, (s.part.chan n).cfg.zone = z →
              ((t.part.chan n).governing, (t.part.chan n).granted) =
                governs t.part.weather (t.part.zone z) (t.part.chan n)) ∧
          (∀ z : ZoneId, ¬ named z → t.part.zone z = s.part.zone z ∧
            ∀ n : ChannelId, (s.part.chan n).cfg.zone = z → t.part.chan n = s.part.chan n) ∧
          s.part.SameBanks t.part) ∧
        (¬ valid →
          (t.part.line l).answer = some ⟨addr, false⟩ ∧ s.part.SameZones t.part ∧ s.part.SameChans t.part ∧
          t.part.bank (.line l) =
            ((s.part.bank (.line l)).take ⟨.notice, .keyRefused, some (.line l), some .malformed⟩).count ∧
          s.part.SameBanksBut t.part (.line l))) ∧
      (∀ e sent, x.state ≠ .disabled → x.state ≠ .failed → x.exchange = some e → e.sentAt = some sent →
        (∀ bytes d, e.kind ≠ .test bytes d) → valid →
          (t.part.line l).exchange = none ∧ (t.part.line l).answer = some ⟨addr, true⟩ ∧
          (t.part.bank (.line l)).record.isSome = true ∧
          (∀ z : ZoneId, named z → t.part.zone z = { s.part.zone z with override := value }) ∧
          (∀ z : ZoneId, ¬ named z → t.part.zone z = s.part.zone z)) ∧
      (x.state = .disabled ∨ x.state = .failed →
        s.part.SameZones t.part ∧ s.part.SameChans t.part ∧ s.part.SameBanks t.part ∧
        { t.part.line l with watch := x.watch, receiver := x.receiver } = x) ∧
      (x.state = .disabled → t.part.line l = x) ∧
      (∀ since, x.state = .failed → x.exchange = none → x.watch = .recovery since →
        (t.part.line l).watch = .recovery s.part.now) ∧
      t.part.ga = s.part.ga ∧ t.part.weather = s.part.weather ∧ t.part.globals = s.part.globals ∧
      t.part.cmd = s.part.cmd ∧ s.part.SameNotices t.part ∧ s.EventOnly t

/-- R13, R105, R113, R116, R131, R132: the timed events of a channel, each of which, taken early, moves the clock forward to
its instant (log 2). 50 ms end a backoff; a second adds 1 to travel elapsed, and the one that reaches the travel limit, by
either of its two rows (log 13), faults a QUEUED or ORDERING channel (recorded with TRAVEL_TIMEOUT, SAFETY under SMOKE and
else FAULT) and brings a MOVING one to HALTING with a HALT at the head of the URGENT group; 200 ms make a poll due; the
supervision interval makes a supervision due. -/
def Obligations.ChannelTimersExpire : Prop :=
  ∀ (s : State) (n : ChannelId),
    let a := s.part.chan n
    let x := s.part.line a.cfg.line
    (∀ o since, s.part.queuedOf n = some o → o.backoff = some since →
      ∃ t, Sys2Proof.Machine.exec (.backoffEnd n) s = .next t ∧ t.part.queuedOf n = some { o with backoff := none } ∧
        t.part.now = max s.part.now (since + 50) ∧ s.part.SameChans t.part ∧ s.part.SameBanks t.part) ∧
    (∀ e, a.travel = some e → e + 1 < a.cfg.travelLimit →
      ∃ t, Sys2Proof.Machine.exec (.travelSecond n) s = .next t ∧
        t.part.chan n = { a with travel := some (e + 1), secondMark := max s.part.now (a.secondMark + 1000) } ∧
        (∀ m : ChannelId, m ≠ n → t.part.chan m = s.part.chan m) ∧ s.part.SameLines t.part ∧
        s.part.SameBanks t.part) ∧
    (∀ e c, a.travel = some e → a.cfg.travelLimit ≤ e + 1 → c = .travelSecond n ∨ c = .travelExpiry n →
      ∃ t, Sys2Proof.Machine.exec c s = .next t ∧
        (a.motion = .queued ∨ a.motion = .ordering →
          (t.part.chan n).motion = .faulted ∧ (t.part.chan n).fault = some (.travelTimeout (e + 1)) ∧
          (t.part.chan n).travel = none ∧ (t.part.chan n).accepted = none ∧ (t.part.chan n).shortMark = false ∧
          t.part.bank .channel = ((s.part.bank .channel).take
            ⟨ruledSeverity a, .channelFaulted, some (.channel n), some (.fault (.travelTimeout (e + 1)))⟩).count ∧
          t.part.queuedOf n = none) ∧
        (∀ exch, a.motion = .ordering → x.exchange = some exch → exch.kind.channel = some n →
          (t.part.line a.cfg.line).exchange = none ∧
          (t.part.line a.cfg.line).freeAt =
            (match exch.sentAt with | some sent => sent | none => t.part.now) + 10) ∧
        (a.motion = .moving →
          (t.part.chan n).motion = .halting ∧ (t.part.chan n).travel = none ∧ (t.part.chan n).accepted = none ∧
          (t.part.line a.cfg.line).urgent =
            ⟨.halt (e + 1), n, .urgent, s.part.globals.retryLimit, s.part.globals.retryLimit, false, none⟩ ::
              x.urgent.filter (fun o => decide (o.channel ≠ n)) ∧
          s.part.SameBanks t.part) ∧
        (t.part.chan n).position = a.position ∧ t.part.now = max s.part.now (a.secondMark + 1000) ∧
        (∀ m : ChannelId, m ≠ n → t.part.chan m = s.part.chan m) ∧ s.part.SameBanksBut t.part .channel) ∧
    (∀ since, a.motion = .moving → a.pollFrom = some since →
      ∃ t, Sys2Proof.Machine.exec (.pollDue n) s = .next t ∧ t.part.chan n = { a with pollDue := true } ∧
        t.part.now = max s.part.now (since + 200) ∧ (∀ m : ChannelId, m ≠ n → t.part.chan m = s.part.chan m) ∧
        s.part.SameLines t.part ∧ s.part.SameBanks t.part) ∧
    (∀ since, (a.motion = .idle ∨ a.motion = .queued ∨ a.motion = .offline ∨ a.motion = .faulted) →
      a.supFrom = some since →
      ∃ t, Sys2Proof.Machine.exec (.supervisionDue n) s = .next t ∧ t.part.chan n = { a with supDue := true } ∧
        t.part.now = max s.part.now (since + s.part.globals.supervisionInterval * 1000) ∧
        (∀ m : ChannelId, m ≠ n → t.part.chan m = s.part.chan m) ∧ s.part.SameLines t.part ∧ s.part.SameBanks t.part)

/-- R126 to R128: at a mark of the window clock the next mark stands 250 ms on and a window begins at once, or falls due
while an exchange is in flight; one due stands, and so does one in force (log 21). A due window begins when the line is next
free after the exchange in flight has ended, whatever reply, failure or echo ended it; after an arbitration loss it stays due
while the other sender's frame runs, and begins when the line is free after that frame, or after a wait that still runs
(R125, log 42). A window ends 20 ms after it began. A waiting answer is sent when the line is free, ACCEPT or REFUSE with
MALFORMED, the line is free 2 ms later, and the measure of its watch is set back (log 22); the answer ends a wait of the
line's receiver and does not end a discard (log 50). A mark, an end or an answer taken early moves the clock forward to its
instant (log 2, of an answer log 23). The line is not one at rest in QUIETING, which no step leaves behind
(StepKeepsTheRanges). -/
def Obligations.StationWindowsAndAnswersKeepTheirTimes : Prop :=
  ∀ (s : State) (l : LineId),
    let x := s.part.line l
    (x.state = .quieting → s.part.atRest l = false) →
    (∀ mark, x.clock = some mark →
      ∃ t, Sys2Proof.Machine.exec (.stationWindowDue l) s = .next t ∧ t.part.now = max s.part.now mark ∧
        t.part.line l = { x with
          clock := some (mark + 250),
          window := if x.window = .none then (if x.exchange = none then .inForce t.part.now else .due) else x.window } ∧
        (∀ k : LineId, k ≠ l → (s.part.line k).state ≠ .quieting → t.part.line k = s.part.line k) ∧
        s.part.SameChans t.part ∧ s.part.SameBanks t.part) ∧
    (∀ (e : Exchange) (sent : Nat) (c : Instr) (a : BitVec 4) (p : Word) (m f r : Byte) (came : List Byte) (good : Bool)
      (heard : Reception),
      x.window = .due → x.state ≠ .disabled → x.exchange = some e → e.sentAt = some sent →
      ((∀ bytes d, e.kind ≠ .test bytes d) ∧ (c = .replyTimeout l ∨ c = .damagedFrame l heard ∧ Damaged x.receiver heard ∨
          c = .status l a p m f ∨ c = .accept l a ∨ c = .busy l a ∨ c = .refuse l a r) ∨
        (∃ bytes d, e.kind = .test bytes d) ∧ (c = .missingEcho l ∨
          c = .damagedFrame l heard ∧ Damaged x.receiver heard ∨ c = .testEcho l a came good)) →
      ∃ t, Sys2Proof.Machine.exec c s = .next t ∧ (t.part.line l).exchange = none ∧
        ((t.part.line l).state = x.state → (t.part.line l).window = .inForce (t.part.line l).freeAt)) ∧
    (∀ (e : Exchange) (place : LossPlace) (back : Pattern),
      x.window = .due → x.exchange = some e → e.sentAt = none →
      ∃ t, Sys2Proof.Machine.exec (.arbitrationLoss l place back) s = .next t ∧ (t.part.line l).exchange = none ∧
        (t.part.line l).receiving = true ∧ ((t.part.line l).state = x.state → (t.part.line l).window = .due)) ∧
    (∀ (c : Instr) (a : BitVec 4) (z k r : Byte) (first : Bool) (heard : Reception), x.window = .due → x.exchange = none →
      x.state ≠ .disabled → x.state ≠ .failed →
      (c = .damagedFrame l heard ∧ Damaged x.receiver heard ∨ c = .accept l a ∨ c = .busy l a ∨ c = .refuse l a r ∨
        c = .key l a z k first) →
      ∃ t, Sys2Proof.Machine.exec c s = .next t ∧ (t.part.line l).receiving = false ∧
        (t.part.line l).window = .inForce (max x.freeAt (s.part.now + 2)) ∧
        (t.part.line l).freeAt = max x.freeAt (s.part.now + 2)) ∧
    (∀ since, x.window = .inForce since →
      ∃ t, Sys2Proof.Machine.exec (.stationWindowEnd l) s = .next t ∧ t.part.now = max s.part.now (since + 20) ∧
        t.part.line l = { x with window := .none } ∧
        (∀ k : LineId, k ≠ l → (s.part.line k).state ≠ .quieting → t.part.line k = s.part.line k) ∧
        s.part.SameChans t.part ∧ s.part.SameBanks t.part) ∧
    (∀ a : Answer, x.answer = some a →
      ∃ t, Sys2Proof.Machine.exec (.stationAnswer l) s = .next t ∧ t.part.now = max s.part.now x.freeAt ∧
        t.part.line l = { x with
          answer := none, freeAt := t.part.now + 2, watch := x.watch.restart t.part.now,
          receiver := (if x.receiver = .discarding then .discarding else .looking),
          wire := (if a.accepted then Frame.accept a.station else Frame.refuse a.station 4).bytes } ∧
        (∀ k : LineId, k ≠ l → (s.part.line k).state ≠ .quieting → t.part.line k = s.part.line k) ∧
        s.part.SameChans t.part ∧ s.part.SameBanks t.part)

/-- R20, R136, R137, R149: a line stuck for 100 ms from its first dominant bit, which is no earlier than the last recessive
level it has shown (log 22; an early report moves the clock there, log 2), enters FAILED: the exchange, the retake, the
answer and the queue go, LINE_FAILED is recorded (FAULT, with the line), a test ends ABORTED with TEST_ABORTED (NOTICE)
recorded before it, the window clock stops, and its working channels become OFFLINE without position or report,
CHANNEL_OFFLINE of each recorded in ascending order (SAFETY under SMOKE and else FAULT). A FAILED line recessive for 1 s,
from no earlier than the last dominant level it has shown, returns to RUN afresh, every supervised channel due and its
receiver looking for a frame (log 50). A frame that ends on a line not DISABLED, while the part is not sending, sets either
measure back (log 22); one that shows no recessive level sets back the recovery measure alone. -/
def Obligations.StuckLineFailsAndRecovers : Prop :=
  ∀ (s : State) (l : LineId) (began : Nat),
    let x := s.part.line l
    (∀ since, x.state ≠ .disabled → x.state ≠ .failed → x.watch = .stuck since →
      ∃ t, Sys2Proof.Machine.exec (.lineStuck l began) s = .next t ∧
        let y := t.part.line l
        y.state = .failed ∧ y.urgent = [] ∧ y.routine = [] ∧ y.exchange = none ∧ y.retake = none ∧ y.answer = none ∧
        y.clock = none ∧ y.window = .none ∧ y.watch = .recovery t.part.now ∧
        t.part.now = max s.part.now (max since began + 100) ∧
        y.test = { x.test with result := if x.state = .test then some .aborted else x.test.result } ∧
        y.receiving = false ∧
        t.part.bank (.line l) =
          ((if x.state = .test then
              ((s.part.bank (.line l)).take ⟨.notice, .testAborted, some (.line l), none⟩).count
            else s.part.bank (.line l)).take ⟨.fault, .lineFailed, some (.line l), none⟩).count ∧
        (∀ n : ChannelId, (s.part.chan n).boundTo l = true →
          ((s.part.chan n).motion = .idle ∨ (s.part.chan n).motion = .queued ∨ (s.part.chan n).motion = .ordering ∨
            (s.part.chan n).motion = .moving ∨ (s.part.chan n).motion = .halting →
            (t.part.chan n).motion = .offline ∧ (t.part.chan n).position = none ∧ (t.part.chan n).report = none ∧
            (t.part.chan n).travel = none ∧ (t.part.chan n).accepted = none ∧ (t.part.chan n).miss = 0 ∧
            (t.part.chan n).shortMark = false) ∧
          ((s.part.chan n).motion = .faulted ∨ (s.part.chan n).motion = .offline → t.part.chan n = s.part.chan n)) ∧
        (∀ n : ChannelId, (s.part.chan n).boundTo l = false → t.part.chan n = s.part.chan n) ∧
        t.part.bank .channel = (s.part.bank .channel).takeAll
          (offlineErrors s.part (fun n => (s.part.chan n).boundTo l && working (s.part.chan n).motion)) ∧
        (∀ b : BankId, b ≠ .channel → b ≠ .line l → t.part.bank b = s.part.bank b) ∧
        t.part.faultOutput = true) ∧
    (∀ since, x.state = .failed → x.watch = .recovery since →
      ∃ t, Sys2Proof.Machine.exec (.lineRecovery l began) s = .next t ∧
        t.part.now = max s.part.now (max since began + 1000) ∧
        t.part.line l = { x with
          state := .run, exchange := none, retake := none, pollPos := none, supPos := none,
          clock := some (t.part.now + 250), watch := .stuck t.part.now, receiver := .looking } ∧
        (∀ n : ChannelId, (s.part.chan n).boundTo l = true → supervised (s.part.chan n).motion = true →
          t.part.chan n = { s.part.chan n with supDue := true }) ∧
        (∀ n : ChannelId, (s.part.chan n).boundTo l = false → t.part.chan n = s.part.chan n) ∧
        s.part.SameBanks t.part) ∧
    (∀ (c : Instr) (a : BitVec 4) (p : Word) (m f : Byte) (came : List Byte) (good : Bool) (heard : Reception),
      x.state ≠ .disabled → (∀ e, x.exchange = some e → e.sentAt ≠ none) →
      (c = .status l a p m f ∨ c = .accept l a ∨ c = .busy l a ∨ c = .refuse l a m ∨ c = .key l a m f good ∨
        c = .testEcho l a came good ∨ c = .damagedFrame l heard ∧ (heard.gap ≠ .none ∨ heard.bytes ≠ [])) →
      ∃ t, Sys2Proof.Machine.exec c s = .next t ∧
        (∀ since, x.watch = .stuck since → (t.part.line l).watch = .stuck s.part.now) ∧
        (∀ since, x.watch = .recovery since → (t.part.line l).watch = .recovery s.part.now)) ∧
    (x.state ≠ .disabled → (∀ e, x.exchange = some e → e.sentAt ≠ none) →
      ∃ t, Sys2Proof.Machine.exec (.damagedFrame l ⟨.none, [], .dominantStop 0⟩) s = .next t ∧
        (∀ since, x.watch = .stuck since → (t.part.line l).watch = .stuck since) ∧
        (∀ since, x.watch = .recovery since → (t.part.line l).watch = .recovery s.part.now))

/-- R124, R142 to R146: in TEST, with a target and nothing in the way, a test frame starts: a PATTERN frame with the pattern
bytes as they stand (also where a frame is sent again, log 41), a SEQUENCE frame with the next 64 bits of the sequence, in
which each bit is the exclusive OR of the bits 6 and 7 places before it. Its local echo, its node's echo (whole or damaged
before its length, whatever its CRC) or its missing echo 10 ms after the send ends the exchange and counts the frame: frames
sent rises by 1 up to 65,535, each byte that differs or did not come, also one sent as 0xFF (log 24), adds 1 to the errors up
to 255, the pair is the last such byte with what came, or 0xFF, and the sequence advances by 64 bits; with none, errors and
pair stand. Another frame is a missing echo and is taken for what it is: recorded as damaged or unexpected, a KEY frame of a
station answered. A frame of an earlier test is not counted. A start taken before the line is free, or a missing echo taken
early, moves the clock forward to its instant (logs 2 and 23). -/
def Obligations.TestFramesAreCountedWithTheirMismatches : Prop :=
  ∀ (s : State) (l : LineId),
    let x := s.part.line l
    let sequenceFrom (state : BitVec 7) (a : Nat → Bool) : Prop :=
      (∀ j : Fin 7, a j.val = state.getLsbD (6 - j.val)) ∧ ∀ j : Nat, a (j + 7) = (a (j + 1) ^^ a j)
    (∀ node, x.state = .test → x.test.target = some node → x.exchange = none → x.answer = none → x.window = .none →
      x.receiving = false →
      ∃ t, Sys2Proof.Machine.exec (.testFrameStart l) s = .next t ∧ t.part.now = max s.part.now x.freeAt ∧
        (∃ bytes : Pattern,
          t.part.line l = { x with
            exchange := some ⟨.test bytes false, node, none⟩, wire := (Frame.test node bytes).bytes } ∧
          (x.test.kind = some .pattern → ∀ i : Fin 4,
            bytes[2 * i.val] = upperByte x.test.pattern[i.val] ∧ bytes[2 * i.val + 1] = lowerByte x.test.pattern[i.val]) ∧
          (x.test.kind = some .sequence → ∀ a : Nat → Bool, sequenceFrom x.test.seq a →
            ∀ i k : Fin 8, (bytes[i.val]).getLsbD (7 - k.val) = a (8 * i.val + k.val))) ∧
        s.part.SameChans t.part ∧ s.part.SameBanks t.part) ∧
    (∀ (bytes : Pattern) (discarded : Bool) (node : BitVec 4) (sentAt : Option Nat),
      x.exchange = some ⟨.test bytes discarded, node, sentAt⟩ →
      let counted (t : State) (came : List Byte) (free : Nat) : Prop :=
        let differs (i : Fin 8) : Prop := came[i.val]? ≠ some bytes[i.val]
        let k := ((List.finRange 8).filter (fun i => decide (came[i.val]? ≠ some bytes[i.val]))).length
        let y := (t.part.line l).test
        (t.part.line l).exchange = none ∧ (t.part.line l).freeAt = free ∧
        (discarded = true → y = x.test) ∧
        (discarded = false →
          y.frames = min (x.test.frames + 1) 65535 ∧ y.errors = min (x.test.errors + k) 255 ∧
          ((∀ i, ¬ differs i) → y.pair = x.test.pair) ∧
          (∀ i, differs i → (∀ j, i < j → ¬ differs j) → y.pair = some (bytes[i.val], came[i.val]?.getD 0xFF)) ∧
          (∀ a : Nat → Bool, sequenceFrom x.test.seq a → ∀ j : Fin 7, y.seq.getLsbD (6 - j.val) = a (64 + j.val)) ∧
          y.kind = x.test.kind ∧ y.target = x.test.target ∧ y.result = x.test.result ∧ y.pattern = x.test.pattern)
      let only (t : State) : Prop := s.part.SameChans t.part ∧ s.part.SameBanks t.part
      let noted (t : State) (kind : ErrorKind) : Prop :=
        s.part.SameChans t.part ∧ s.part.SameBanksBut t.part (.line l) ∧
        t.part.bank (.line l) = ((s.part.bank (.line l)).take ⟨.notice, kind, some (.line l), none⟩).count
      (∀ readBack : Pattern, node = 0 → sentAt = none →
        ∃ t, Sys2Proof.Machine.exec (.localEchoCheck l readBack) s = .next t ∧
          counted t readBack.toList (s.part.now + 2) ∧ only t) ∧
      (∀ (received : List Byte) (crcGood : Bool) (sent : Nat), sentAt = some sent →
        ∃ t, Sys2Proof.Machine.exec (.testEcho l node received crcGood) s = .next t ∧
          counted t received (s.part.now + 2) ∧ only t) ∧
      (∀ (heard : Reception) (received : List Byte) (sent : Nat), sentAt = some sent → x.state ≠ .disabled →
        (x.receiver.hear heard).found = .damagedEcho node received →
        ∃ t, Sys2Proof.Machine.exec (.damagedFrame l heard) s = .next t ∧
          counted t received (s.part.now + 2) ∧ only t) ∧
      (∀ sent : Nat, sentAt = some sent →
        ∃ t, Sys2Proof.Machine.exec (.missingEcho l) s = .next t ∧ counted t [] (max s.part.now (sent + 10)) ∧ only t) ∧
      (∀ (c : Instr) (kind : ErrorKind) (sent : Nat) (a : BitVec 4) (p : Word) (m f r : Byte) (came : List Byte) (good : Bool)
        (heard : Reception), sentAt = some sent → x.state ≠ .disabled →
        (c = .damagedFrame l heard ∧ kind = .checkError ∧ ((x.receiver.hear heard).found = .damaged ∨
            ∃ b back, (x.receiver.hear heard).found = .damagedEcho b back ∧ b ≠ node) ∨
          (c = .accept l a ∨ c = .busy l a ∨ c = .refuse l a r) ∧ kind = .unexpectedFrame ∨
          c = .status l a p m f ∧ kind = (if m.extractLsb' 0 2 = 3 then .checkError else .unexpectedFrame) ∨
          c = .testEcho l a came good ∧ a ≠ node ∧
            kind = (if came.length = 8 ∧ good = true then .unexpectedFrame else .checkError)) →
        ∃ t, Sys2Proof.Machine.exec c s = .next t ∧ counted t [] (s.part.now + 2) ∧ noted t kind) ∧
      (∀ (sent : Nat) (a : BitVec 4) (zones command : Byte) (first : Bool), sentAt = some sent →
        x.state ≠ .disabled → x.state ≠ .failed → (a = 14 ∨ a = 15) →
        ∃ t, Sys2Proof.Machine.exec (.key l a zones command first) s = .next t ∧ counted t [] (s.part.now + 2) ∧
          (t.part.line l).answer =
            some ⟨a, decide (zones.extractLsb' 0 6 ≠ 0 ∧ (command = 1 ∨ command = 2 ∨ command = 3))⟩))

/-- R103, R127, R131, R132, R143: an arbitration loss before the send ends the exchange, the line free 2 ms later, and is
recorded with the channel, or the line, as subject. A lost ORDER or HALT re-enters at the head of its group as it was, unless
a newer ORDER is queued, and in RUN, or a HALT in QUIETING, is the retake; a lost QUERY counts no miss, restarts its
channel's supervision timer, and in RUN, or a poll in QUIETING, is the retake while its channel is MOVING or supervised. A
test frame lost in its lead byte changes nothing of the record, nor does one of an earlier test; one lost in a pattern byte
is counted: the bytes read back before that one are compared with the bytes sent at their places, that byte and every later
one mismatch with 0xFF (also one sent as 0xFF, log 24), the error count rises by the mismatches up to 255, the pair is the
last of them, and the sequence advances by 64 bits; one lost in its CRC byte is counted with all its bytes compared (log 31).
A lost answer is dropped. A loss reported while nothing is being sent is an event that cannot occur, and changes nothing
(log 3). The rest of the other sender's frame is then on the line (log 42), and the receiver takes it up (log 50). The other
channels, lines and banks stand. -/
def Obligations.ArbitrationLossCountsNoFailure : Prop :=
  ∀ (s : State) (l : LineId) (place : LossPlace) (back : Pattern),
    let x := s.part.line l
    let sequenceFrom (state : BitVec 7) (a : Nat → Bool) : Prop :=
      (∀ j : Fin 7, a j.val = state.getLsbD (6 - j.val)) ∧ ∀ j : Nat, a (j + 7) = (a (j + 1) ^^ a j)
    let came : List Byte := match place with | .lead => [] | .pattern i => back.toList.take i.val | .crc => back.toList
    ∃ t, Sys2Proof.Machine.exec (.arbitrationLoss l place back) s = .next t ∧
      (let y := t.part.line l;
        let lost (subject : Subject) : Prop :=
          t.part.bank (.line l) =
            ((s.part.bank (.line l)).take ⟨.notice, .arbitrationLost, some subject, none⟩).count
        (∀ e, x.exchange = some e → e.sentAt = none →
          y.exchange = none ∧ y.freeAt = s.part.now + 2 ∧ y.receiving = true ∧ y.receiver = .looking ∧
          (x.state ≠ .quieting → { y with
            exchange := x.exchange, freeAt := x.freeAt, receiving := x.receiving, receiver := x.receiver, urgent := x.urgent,
            routine := x.routine, retake := x.retake, test := x.test } = x) ∧
          (∀ o, e.kind = .order o →
            let a := s.part.chan o.channel
            let b := t.part.chan o.channel
            lost (.channel o.channel) ∧ y.test = x.test ∧ (∀ n : ChannelId, n ≠ o.channel → t.part.chan n = s.part.chan n) ∧
            (o.isHalt = false → x.queued o.channel = none →
              y.urgent = (if o.cls = .urgent then o :: x.urgent else x.urgent) ∧
              y.routine = (if o.cls = .routine then o :: x.routine else x.routine) ∧
              (x.state = .run → y.retake = some (.move o.channel))) ∧
            (o.isHalt = false → x.queued o.channel ≠ none → y.urgent = x.urgent ∧ y.routine = x.routine) ∧
            (o.isHalt = false → b.motion = (if a.accepted = none then .queued else .moving) ∧
              b.travel = (if a.accepted = none ∧ (x.queued o.channel ≠ none ∨ o.sent = false) then none else a.travel) ∧
              b.accepted = a.accepted ∧ b.miss = a.miss ∧ b.shortMark = a.shortMark ∧ b.fault = a.fault) ∧
            (o.isHalt = true → y.urgent = { o with cls := .urgent } :: x.urgent ∧ y.routine = x.routine ∧ b = a ∧
              (x.state = .run ∨ (x.state = .quieting ∧ y.state = .quieting) → y.retake = some (.halt o.channel)))) ∧
          (∀ n poll, e.kind = .query n poll →
            lost (.channel n) ∧ y.test = x.test ∧ y.urgent = x.urgent ∧ y.routine = x.routine ∧
            t.part.chan n = { s.part.chan n with
              supFrom := (if supervised (s.part.chan n).motion = true then some s.part.now else none), supDue := false } ∧
            (∀ m : ChannelId, m ≠ n → t.part.chan m = s.part.chan m) ∧
            (x.state = .run ∨ (x.state = .quieting ∧ y.state = .quieting) → poll = true →
              (s.part.chan n).motion = .moving → y.retake = some (.poll n)) ∧
            (x.state = .run → poll = false → supervised (s.part.chan n).motion = true →
              y.retake = some (.supervise n))) ∧
          (∀ bytes discarded, e.kind = .test bytes discarded →
            let differs (i : Fin 8) : Prop := came[i.val]? ≠ some bytes[i.val]
            let k := ((List.finRange 8).filter (fun i => decide (came[i.val]? ≠ some bytes[i.val]))).length
            lost (.line l) ∧ s.part.SameChans t.part ∧ y.urgent = x.urgent ∧ y.routine = x.routine ∧
            (x.state ≠ .quieting → y.retake = x.retake) ∧
            (place = .lead ∨ discarded = true → y.test = x.test) ∧
            (place ≠ .lead → discarded = false →
              y.test.frames = min (x.test.frames + 1) 65535 ∧ y.test.errors = min (x.test.errors + k) 255 ∧
              ((∀ i, ¬ differs i) → y.test.pair = x.test.pair) ∧
              (∀ i, differs i → (∀ j, i < j → ¬ differs j) →
                y.test.pair = some (bytes[i.val], came[i.val]?.getD 0xFF)) ∧
              (∀ a : Nat → Bool, sequenceFrom x.test.seq a → ∀ j : Fin 7, y.test.seq.getLsbD (6 - j.val) = a (64 + j.val)) ∧
              y.test.kind = x.test.kind ∧ y.test.target = x.test.target ∧ y.test.result = x.test.result ∧
              y.test.pattern = x.test.pattern))) ∧
        (∀ a : Answer, x.exchange = none → x.answer = some a →
          lost (.line l) ∧ s.part.SameChans t.part ∧ y.answer = none ∧ y.receiving = true ∧ y.test = x.test ∧
          (x.state ≠ .quieting → y = { x with answer := none, receiving := true, receiver := .looking })) ∧
        ((x.exchange = none ∧ x.answer = none) ∨ (∃ e, x.exchange = some e ∧ e.sentAt ≠ none) →
          s.part.SameChans t.part ∧ s.part.SameLines t.part ∧ s.part.SameBanks t.part)) ∧
      (∀ k : LineId, k ≠ l → (s.part.line k).state ≠ .quieting → t.part.line k = s.part.line k) ∧
      s.part.SameBanksBut t.part (.line l) ∧ s.part.SameNotices t.part ∧ t.part.now = s.part.now

/-- R118 to R120, R198: the bytes of a frame read back as that frame, for every frame but a STATUS whose node motion is 3,
which is damaged; and a frame with another last byte than its CRC is damaged. A receiver that looks for a frame takes the
kind from the lead byte and the length from the kind: the bytes of a frame are that frame; with another last byte, cut short
by 1 ms recessive, or with a stop bit that reads dominant it is damaged (of a TEST frame the pattern bytes received are kept
for R145, one whose stop bit read dominant among them; a lead byte whose stop bit read dominant names no kind, log 50); an
unused kind code is damaged. After a stop bit read dominant the receiver waits, and finds nothing until the line has returned
recessive; after an unused kind code it discards, and finds nothing until a reception that 1 ms recessive precedes (how
receptions and their gaps stand for the levels is log 50). A DAMAGED_FRAME in which it finds nothing changes the line's watch
and receiver alone, one in which it finds a valid frame does what that frame's row does (log 50), and while the controller
sends (log 20), or the line is DISABLED, one changes nothing. -/
def Obligations.FramesReadBackFromTheirBytes : Prop :=
  (∀ f : Frame,
    ((∀ a p m x, f = .status a p m x → m.extractLsb' 0 2 ≠ 3) → parseFrame f.bytes = some f) ∧
    (∀ a p m x, f = .status a p m x → m.extractLsb' 0 2 = 3 → parseFrame f.bytes = none) ∧
    (∀ b : Byte, b ≠ crc8 f.body → parseFrame (f.body ++ [b]) = none)) ∧
  (∀ (f : Frame) (gap : Gap) (ending : Ending) (b : Byte) (k : Nat),
    let damaged (came : List Byte) : Found :=
      match f with | .test addr _ => .damagedEcho addr (came.take 8) | _ => .damaged
    let cut := (f.bytes.take (k + 1)).drop 1
    (readReception ⟨gap, f.bytes, ending⟩ =
      ⟨match f with | .status _ _ m _ => if m.extractLsb' 0 2 = 3 then .damaged else .frame f | _ => .frame f, .looking⟩) ∧
    (b ≠ crc8 f.body → readReception ⟨gap, f.body ++ [b], ending⟩ = ⟨damaged f.items, .looking⟩) ∧
    (k + 1 < f.bytes.length →
      readReception ⟨gap, f.bytes.take (k + 1), .recessive⟩ = ⟨damaged cut, .looking⟩ ∧
      readReception ⟨gap, f.bytes.take (k + 1), .dominantStop b⟩ = ⟨damaged (cut ++ [b]), .waiting⟩) ∧
    readReception ⟨gap, [], .dominantStop b⟩ = ⟨.damaged, .waiting⟩) ∧
  (∀ (gap : Gap) (ending : Ending) (lead : Byte) (rest : List Byte),
    lead.extractLsb' 4 4 ∈ [0#4, 2, 3, 8, 13, 14, 15] →
    readReception ⟨gap, lead :: rest, ending⟩ = ⟨.damaged, .discarding⟩) ∧
  (∀ h : Reception,
    Receiver.looking.hear h = readReception h ∧
    Receiver.waiting.hear h =
      (if h.gap = .none then ⟨.nothing, if h.ending = .recessive then .looking else .waiting⟩ else readReception h) ∧
    Receiver.discarding.hear h = (if h.gap = .idle then readReception h else ⟨.nothing, .discarding⟩)) ∧
  ∀ (s : State) (l : LineId) (h : Reception),
    let x := s.part.line l
    let listens : Prop := x.state ≠ .disabled ∧ ∀ e, x.exchange = some e → e.sentAt ≠ none
    ∃ t, Sys2Proof.Machine.exec (.damagedFrame l h) s = .next t ∧
      (listens → (t.part.line l).receiver = (x.receiver.hear h).after) ∧
      (¬ listens → s.part.SameLines t.part ∧ s.part.SameChans t.part ∧ s.part.SameBanks t.part) ∧
      (listens → (x.receiver.hear h).found = .nothing →
        (x.state ≠ .quieting → { t.part.line l with watch := x.watch, receiver := x.receiver } = x) ∧
        (∀ k : LineId, k ≠ l → (s.part.line k).state ≠ .quieting → t.part.line k = s.part.line k) ∧
        s.part.SameChans t.part ∧ s.part.SameBanks t.part) ∧
      (listens → ∀ f c, (x.receiver.hear h).found = .frame f → rowOf l f = some c → Sys2Proof.Machine.exec c s = .next t)
end

