-- ==== Sys2Proof/Laws/State.lean ====
section
/-! SUPPORT. The fields of the part after each write of a record: what a write does not touch, by rfl, and what it does. -/

namespace Sys2Proof.Machine

/-! `Part.mark` -/

@[simp] theorem Part.mark_now (p : Part) (r : RecordId) (w : BitVec 8) : (p.mark r w).now = p.now := rfl
@[simp] theorem Part.mark_chans (p : Part) (r : RecordId) (w : BitVec 8) : (p.mark r w).chans = p.chans := rfl
@[simp] theorem Part.mark_zones (p : Part) (r : RecordId) (w : BitVec 8) : (p.mark r w).zones = p.zones := rfl
@[simp] theorem Part.mark_ga (p : Part) (r : RecordId) (w : BitVec 8) : (p.mark r w).ga = p.ga := rfl
@[simp] theorem Part.mark_lines (p : Part) (r : RecordId) (w : BitVec 8) : (p.mark r w).lines = p.lines := rfl
@[simp] theorem Part.mark_weather (p : Part) (r : RecordId) (w : BitVec 8) : (p.mark r w).weather = p.weather := rfl
@[simp] theorem Part.mark_globals (p : Part) (r : RecordId) (w : BitVec 8) : (p.mark r w).globals = p.globals := rfl
@[simp] theorem Part.mark_cmd (p : Part) (r : RecordId) (w : BitVec 8) : (p.mark r w).cmd = p.cmd := rfl
@[simp] theorem Part.mark_banks (p : Part) (r : RecordId) (w : BitVec 8) : (p.mark r w).banks = p.banks := rfl
@[simp] theorem Part.mark_notices (p : Part) (r : RecordId) (w : BitVec 8) : (p.mark r w).notices = p.notices := rfl
@[simp] theorem Part.mark_noticeAcks (p : Part) (r : RecordId) (w : BitVec 8) : (p.mark r w).noticeAcks = p.noticeAcks := rfl
@[simp] theorem Part.mark_noticesShown (p : Part) (r : RecordId) (w : BitVec 8) : (p.mark r w).noticesShown = p.noticesShown := rfl
@[simp] theorem Part.mark_chan (p : Part) (r : RecordId) (w : BitVec 8) (n' : ChannelId) : (p.mark r w).chan n' = p.chan n' := rfl
@[simp] theorem Part.mark_zone (p : Part) (r : RecordId) (w : BitVec 8) (z' : ZoneId) : (p.mark r w).zone z' = p.zone z' := rfl
@[simp] theorem Part.mark_line (p : Part) (r : RecordId) (w : BitVec 8) (l' : LineId) : (p.mark r w).line l' = p.line l' := rfl
@[simp] theorem Part.mark_bank (p : Part) (r : RecordId) (w : BitVec 8) (b' : BankId) : (p.mark r w).bank b' = p.bank b' := rfl

/-! `Part.setChan` -/

@[simp] theorem Part.setChan_now (p : Part) (n : ChannelId) (c : Channel) : (p.setChan n c).now = p.now := rfl
@[simp] theorem Part.setChan_zones (p : Part) (n : ChannelId) (c : Channel) : (p.setChan n c).zones = p.zones := rfl
@[simp] theorem Part.setChan_ga (p : Part) (n : ChannelId) (c : Channel) : (p.setChan n c).ga = p.ga := rfl
@[simp] theorem Part.setChan_lines (p : Part) (n : ChannelId) (c : Channel) : (p.setChan n c).lines = p.lines := rfl
@[simp] theorem Part.setChan_weather (p : Part) (n : ChannelId) (c : Channel) : (p.setChan n c).weather = p.weather := rfl
@[simp] theorem Part.setChan_globals (p : Part) (n : ChannelId) (c : Channel) : (p.setChan n c).globals = p.globals := rfl
@[simp] theorem Part.setChan_cmd (p : Part) (n : ChannelId) (c : Channel) : (p.setChan n c).cmd = p.cmd := rfl
@[simp] theorem Part.setChan_banks (p : Part) (n : ChannelId) (c : Channel) : (p.setChan n c).banks = p.banks := rfl
@[simp] theorem Part.setChan_notices (p : Part) (n : ChannelId) (c : Channel) : (p.setChan n c).notices = p.notices := rfl
@[simp] theorem Part.setChan_noticeAcks (p : Part) (n : ChannelId) (c : Channel) : (p.setChan n c).noticeAcks = p.noticeAcks := rfl
@[simp] theorem Part.setChan_noticesShown (p : Part) (n : ChannelId) (c : Channel) : (p.setChan n c).noticesShown = p.noticesShown := rfl
@[simp] theorem Part.setChan_zone (p : Part) (n : ChannelId) (c : Channel) (z' : ZoneId) : (p.setChan n c).zone z' = p.zone z' := rfl
@[simp] theorem Part.setChan_line (p : Part) (n : ChannelId) (c : Channel) (l' : LineId) : (p.setChan n c).line l' = p.line l' := rfl
@[simp] theorem Part.setChan_bank (p : Part) (n : ChannelId) (c : Channel) (b' : BankId) : (p.setChan n c).bank b' = p.bank b' := rfl

/-! `Part.setZone` -/

@[simp] theorem Part.setZone_now (p : Part) (z : ZoneId) (x : Zone) : (p.setZone z x).now = p.now := rfl
@[simp] theorem Part.setZone_chans (p : Part) (z : ZoneId) (x : Zone) : (p.setZone z x).chans = p.chans := rfl
@[simp] theorem Part.setZone_ga (p : Part) (z : ZoneId) (x : Zone) : (p.setZone z x).ga = p.ga := rfl
@[simp] theorem Part.setZone_lines (p : Part) (z : ZoneId) (x : Zone) : (p.setZone z x).lines = p.lines := rfl
@[simp] theorem Part.setZone_weather (p : Part) (z : ZoneId) (x : Zone) : (p.setZone z x).weather = p.weather := rfl
@[simp] theorem Part.setZone_globals (p : Part) (z : ZoneId) (x : Zone) : (p.setZone z x).globals = p.globals := rfl
@[simp] theorem Part.setZone_cmd (p : Part) (z : ZoneId) (x : Zone) : (p.setZone z x).cmd = p.cmd := rfl
@[simp] theorem Part.setZone_banks (p : Part) (z : ZoneId) (x : Zone) : (p.setZone z x).banks = p.banks := rfl
@[simp] theorem Part.setZone_notices (p : Part) (z : ZoneId) (x : Zone) : (p.setZone z x).notices = p.notices := rfl
@[simp] theorem Part.setZone_noticeAcks (p : Part) (z : ZoneId) (x : Zone) : (p.setZone z x).noticeAcks = p.noticeAcks := rfl
@[simp] theorem Part.setZone_noticesShown (p : Part) (z : ZoneId) (x : Zone) : (p.setZone z x).noticesShown = p.noticesShown := rfl
@[simp] theorem Part.setZone_chan (p : Part) (z : ZoneId) (x : Zone) (n' : ChannelId) : (p.setZone z x).chan n' = p.chan n' := rfl
@[simp] theorem Part.setZone_line (p : Part) (z : ZoneId) (x : Zone) (l' : LineId) : (p.setZone z x).line l' = p.line l' := rfl
@[simp] theorem Part.setZone_bank (p : Part) (z : ZoneId) (x : Zone) (b' : BankId) : (p.setZone z x).bank b' = p.bank b' := rfl

/-! `Part.setGa` -/

@[simp] theorem Part.setGa_now (p : Part) (g : FireLoop) : (p.setGa g).now = p.now := rfl
@[simp] theorem Part.setGa_chans (p : Part) (g : FireLoop) : (p.setGa g).chans = p.chans := rfl
@[simp] theorem Part.setGa_zones (p : Part) (g : FireLoop) : (p.setGa g).zones = p.zones := rfl
@[simp] theorem Part.setGa_lines (p : Part) (g : FireLoop) : (p.setGa g).lines = p.lines := rfl
@[simp] theorem Part.setGa_weather (p : Part) (g : FireLoop) : (p.setGa g).weather = p.weather := rfl
@[simp] theorem Part.setGa_globals (p : Part) (g : FireLoop) : (p.setGa g).globals = p.globals := rfl
@[simp] theorem Part.setGa_cmd (p : Part) (g : FireLoop) : (p.setGa g).cmd = p.cmd := rfl
@[simp] theorem Part.setGa_banks (p : Part) (g : FireLoop) : (p.setGa g).banks = p.banks := rfl
@[simp] theorem Part.setGa_notices (p : Part) (g : FireLoop) : (p.setGa g).notices = p.notices := rfl
@[simp] theorem Part.setGa_noticeAcks (p : Part) (g : FireLoop) : (p.setGa g).noticeAcks = p.noticeAcks := rfl
@[simp] theorem Part.setGa_noticesShown (p : Part) (g : FireLoop) : (p.setGa g).noticesShown = p.noticesShown := rfl
@[simp] theorem Part.setGa_chan (p : Part) (g : FireLoop) (n' : ChannelId) : (p.setGa g).chan n' = p.chan n' := rfl
@[simp] theorem Part.setGa_zone (p : Part) (g : FireLoop) (z' : ZoneId) : (p.setGa g).zone z' = p.zone z' := rfl
@[simp] theorem Part.setGa_line (p : Part) (g : FireLoop) (l' : LineId) : (p.setGa g).line l' = p.line l' := rfl
@[simp] theorem Part.setGa_bank (p : Part) (g : FireLoop) (b' : BankId) : (p.setGa g).bank b' = p.bank b' := rfl
@[simp] theorem Part.setGa_ga (p : Part) (g : FireLoop) : (p.setGa g).ga = g := rfl

/-! `Part.setLine` -/

@[simp] theorem Part.setLine_now (p : Part) (l : LineId) (x : Line) : (p.setLine l x).now = p.now := rfl
@[simp] theorem Part.setLine_chans (p : Part) (l : LineId) (x : Line) : (p.setLine l x).chans = p.chans := rfl
@[simp] theorem Part.setLine_zones (p : Part) (l : LineId) (x : Line) : (p.setLine l x).zones = p.zones := rfl
@[simp] theorem Part.setLine_ga (p : Part) (l : LineId) (x : Line) : (p.setLine l x).ga = p.ga := rfl
@[simp] theorem Part.setLine_weather (p : Part) (l : LineId) (x : Line) : (p.setLine l x).weather = p.weather := rfl
@[simp] theorem Part.setLine_globals (p : Part) (l : LineId) (x : Line) : (p.setLine l x).globals = p.globals := rfl
@[simp] theorem Part.setLine_cmd (p : Part) (l : LineId) (x : Line) : (p.setLine l x).cmd = p.cmd := rfl
@[simp] theorem Part.setLine_banks (p : Part) (l : LineId) (x : Line) : (p.setLine l x).banks = p.banks := rfl
@[simp] theorem Part.setLine_notices (p : Part) (l : LineId) (x : Line) : (p.setLine l x).notices = p.notices := rfl
@[simp] theorem Part.setLine_noticeAcks (p : Part) (l : LineId) (x : Line) : (p.setLine l x).noticeAcks = p.noticeAcks := rfl
@[simp] theorem Part.setLine_noticesShown (p : Part) (l : LineId) (x : Line) : (p.setLine l x).noticesShown = p.noticesShown := rfl
@[simp] theorem Part.setLine_chan (p : Part) (l : LineId) (x : Line) (n' : ChannelId) : (p.setLine l x).chan n' = p.chan n' := rfl
@[simp] theorem Part.setLine_zone (p : Part) (l : LineId) (x : Line) (z' : ZoneId) : (p.setLine l x).zone z' = p.zone z' := rfl
@[simp] theorem Part.setLine_bank (p : Part) (l : LineId) (x : Line) (b' : BankId) : (p.setLine l x).bank b' = p.bank b' := rfl

/-! `Part.setWeather` -/

@[simp] theorem Part.setWeather_now (p : Part) (w : Weather) : (p.setWeather w).now = p.now := rfl
@[simp] theorem Part.setWeather_chans (p : Part) (w : Weather) : (p.setWeather w).chans = p.chans := rfl
@[simp] theorem Part.setWeather_zones (p : Part) (w : Weather) : (p.setWeather w).zones = p.zones := rfl
@[simp] theorem Part.setWeather_ga (p : Part) (w : Weather) : (p.setWeather w).ga = p.ga := rfl
@[simp] theorem Part.setWeather_lines (p : Part) (w : Weather) : (p.setWeather w).lines = p.lines := rfl
@[simp] theorem Part.setWeather_globals (p : Part) (w : Weather) : (p.setWeather w).globals = p.globals := rfl
@[simp] theorem Part.setWeather_cmd (p : Part) (w : Weather) : (p.setWeather w).cmd = p.cmd := rfl
@[simp] theorem Part.setWeather_banks (p : Part) (w : Weather) : (p.setWeather w).banks = p.banks := rfl
@[simp] theorem Part.setWeather_notices (p : Part) (w : Weather) : (p.setWeather w).notices = p.notices := rfl
@[simp] theorem Part.setWeather_noticeAcks (p : Part) (w : Weather) : (p.setWeather w).noticeAcks = p.noticeAcks := rfl
@[simp] theorem Part.setWeather_noticesShown (p : Part) (w : Weather) : (p.setWeather w).noticesShown = p.noticesShown := rfl
@[simp] theorem Part.setWeather_chan (p : Part) (w : Weather) (n' : ChannelId) : (p.setWeather w).chan n' = p.chan n' := rfl
@[simp] theorem Part.setWeather_zone (p : Part) (w : Weather) (z' : ZoneId) : (p.setWeather w).zone z' = p.zone z' := rfl
@[simp] theorem Part.setWeather_line (p : Part) (w : Weather) (l' : LineId) : (p.setWeather w).line l' = p.line l' := rfl
@[simp] theorem Part.setWeather_bank (p : Part) (w : Weather) (b' : BankId) : (p.setWeather w).bank b' = p.bank b' := rfl
@[simp] theorem Part.setWeather_weather (p : Part) (w : Weather) : (p.setWeather w).weather = w := rfl

/-! `Part.setCmd` -/

@[simp] theorem Part.setCmd_now (p : Part) (c : CommandUnit) : (p.setCmd c).now = p.now := rfl
@[simp] theorem Part.setCmd_chans (p : Part) (c : CommandUnit) : (p.setCmd c).chans = p.chans := rfl
@[simp] theorem Part.setCmd_zones (p : Part) (c : CommandUnit) : (p.setCmd c).zones = p.zones := rfl
@[simp] theorem Part.setCmd_ga (p : Part) (c : CommandUnit) : (p.setCmd c).ga = p.ga := rfl
@[simp] theorem Part.setCmd_lines (p : Part) (c : CommandUnit) : (p.setCmd c).lines = p.lines := rfl
@[simp] theorem Part.setCmd_weather (p : Part) (c : CommandUnit) : (p.setCmd c).weather = p.weather := rfl
@[simp] theorem Part.setCmd_globals (p : Part) (c : CommandUnit) : (p.setCmd c).globals = p.globals := rfl
@[simp] theorem Part.setCmd_banks (p : Part) (c : CommandUnit) : (p.setCmd c).banks = p.banks := rfl
@[simp] theorem Part.setCmd_notices (p : Part) (c : CommandUnit) : (p.setCmd c).notices = p.notices := rfl
@[simp] theorem Part.setCmd_noticeAcks (p : Part) (c : CommandUnit) : (p.setCmd c).noticeAcks = p.noticeAcks := rfl
@[simp] theorem Part.setCmd_noticesShown (p : Part) (c : CommandUnit) : (p.setCmd c).noticesShown = p.noticesShown := rfl
@[simp] theorem Part.setCmd_chan (p : Part) (c : CommandUnit) (n' : ChannelId) : (p.setCmd c).chan n' = p.chan n' := rfl
@[simp] theorem Part.setCmd_zone (p : Part) (c : CommandUnit) (z' : ZoneId) : (p.setCmd c).zone z' = p.zone z' := rfl
@[simp] theorem Part.setCmd_line (p : Part) (c : CommandUnit) (l' : LineId) : (p.setCmd c).line l' = p.line l' := rfl
@[simp] theorem Part.setCmd_bank (p : Part) (c : CommandUnit) (b' : BankId) : (p.setCmd c).bank b' = p.bank b' := rfl
@[simp] theorem Part.setCmd_cmd (p : Part) (c : CommandUnit) : (p.setCmd c).cmd = c := rfl

/-! `Part.setBank` -/

@[simp] theorem Part.setBank_now (p : Part) (b : BankId) (x : Bank) : (p.setBank b x).now = p.now := rfl
@[simp] theorem Part.setBank_chans (p : Part) (b : BankId) (x : Bank) : (p.setBank b x).chans = p.chans := rfl
@[simp] theorem Part.setBank_zones (p : Part) (b : BankId) (x : Bank) : (p.setBank b x).zones = p.zones := rfl
@[simp] theorem Part.setBank_ga (p : Part) (b : BankId) (x : Bank) : (p.setBank b x).ga = p.ga := rfl
@[simp] theorem Part.setBank_lines (p : Part) (b : BankId) (x : Bank) : (p.setBank b x).lines = p.lines := rfl
@[simp] theorem Part.setBank_weather (p : Part) (b : BankId) (x : Bank) : (p.setBank b x).weather = p.weather := rfl
@[simp] theorem Part.setBank_globals (p : Part) (b : BankId) (x : Bank) : (p.setBank b x).globals = p.globals := rfl
@[simp] theorem Part.setBank_cmd (p : Part) (b : BankId) (x : Bank) : (p.setBank b x).cmd = p.cmd := rfl
@[simp] theorem Part.setBank_notices (p : Part) (b : BankId) (x : Bank) : (p.setBank b x).notices = p.notices := rfl
@[simp] theorem Part.setBank_noticeAcks (p : Part) (b : BankId) (x : Bank) : (p.setBank b x).noticeAcks = p.noticeAcks := rfl
@[simp] theorem Part.setBank_noticesShown (p : Part) (b : BankId) (x : Bank) : (p.setBank b x).noticesShown = p.noticesShown := rfl
@[simp] theorem Part.setBank_chan (p : Part) (b : BankId) (x : Bank) (n' : ChannelId) : (p.setBank b x).chan n' = p.chan n' := rfl
@[simp] theorem Part.setBank_zone (p : Part) (b : BankId) (x : Bank) (z' : ZoneId) : (p.setBank b x).zone z' = p.zone z' := rfl
@[simp] theorem Part.setBank_line (p : Part) (b : BankId) (x : Bank) (l' : LineId) : (p.setBank b x).line l' = p.line l' := rfl

/-! `Part.setNotices` -/

@[simp] theorem Part.setNotices_now (p : Part) (m : BitVec 48) : (p.setNotices m).now = p.now := rfl
@[simp] theorem Part.setNotices_chans (p : Part) (m : BitVec 48) : (p.setNotices m).chans = p.chans := rfl
@[simp] theorem Part.setNotices_zones (p : Part) (m : BitVec 48) : (p.setNotices m).zones = p.zones := rfl
@[simp] theorem Part.setNotices_ga (p : Part) (m : BitVec 48) : (p.setNotices m).ga = p.ga := rfl
@[simp] theorem Part.setNotices_lines (p : Part) (m : BitVec 48) : (p.setNotices m).lines = p.lines := rfl
@[simp] theorem Part.setNotices_weather (p : Part) (m : BitVec 48) : (p.setNotices m).weather = p.weather := rfl
@[simp] theorem Part.setNotices_globals (p : Part) (m : BitVec 48) : (p.setNotices m).globals = p.globals := rfl
@[simp] theorem Part.setNotices_cmd (p : Part) (m : BitVec 48) : (p.setNotices m).cmd = p.cmd := rfl
@[simp] theorem Part.setNotices_banks (p : Part) (m : BitVec 48) : (p.setNotices m).banks = p.banks := rfl
@[simp] theorem Part.setNotices_noticeAcks (p : Part) (m : BitVec 48) : (p.setNotices m).noticeAcks = p.noticeAcks := rfl
@[simp] theorem Part.setNotices_chan (p : Part) (m : BitVec 48) (n' : ChannelId) : (p.setNotices m).chan n' = p.chan n' := rfl
@[simp] theorem Part.setNotices_zone (p : Part) (m : BitVec 48) (z' : ZoneId) : (p.setNotices m).zone z' = p.zone z' := rfl
@[simp] theorem Part.setNotices_line (p : Part) (m : BitVec 48) (l' : LineId) : (p.setNotices m).line l' = p.line l' := rfl
@[simp] theorem Part.setNotices_bank (p : Part) (m : BitVec 48) (b' : BankId) : (p.setNotices m).bank b' = p.bank b' := rfl
@[simp] theorem Part.setNotices_notices (p : Part) (m : BitVec 48) : (p.setNotices m).notices = m := rfl

/-! `Part.modChan` -/

@[simp] theorem Part.modChan_now (p : Part) (n : ChannelId) (f : Channel → Channel) : (p.modChan n f).now = p.now := rfl
@[simp] theorem Part.modChan_zones (p : Part) (n : ChannelId) (f : Channel → Channel) : (p.modChan n f).zones = p.zones := rfl
@[simp] theorem Part.modChan_ga (p : Part) (n : ChannelId) (f : Channel → Channel) : (p.modChan n f).ga = p.ga := rfl
@[simp] theorem Part.modChan_lines (p : Part) (n : ChannelId) (f : Channel → Channel) : (p.modChan n f).lines = p.lines := rfl
@[simp] theorem Part.modChan_weather (p : Part) (n : ChannelId) (f : Channel → Channel) : (p.modChan n f).weather = p.weather := rfl
@[simp] theorem Part.modChan_globals (p : Part) (n : ChannelId) (f : Channel → Channel) : (p.modChan n f).globals = p.globals := rfl
@[simp] theorem Part.modChan_cmd (p : Part) (n : ChannelId) (f : Channel → Channel) : (p.modChan n f).cmd = p.cmd := rfl
@[simp] theorem Part.modChan_banks (p : Part) (n : ChannelId) (f : Channel → Channel) : (p.modChan n f).banks = p.banks := rfl
@[simp] theorem Part.modChan_notices (p : Part) (n : ChannelId) (f : Channel → Channel) : (p.modChan n f).notices = p.notices := rfl
@[simp] theorem Part.modChan_noticeAcks (p : Part) (n : ChannelId) (f : Channel → Channel) : (p.modChan n f).noticeAcks = p.noticeAcks := rfl
@[simp] theorem Part.modChan_noticesShown (p : Part) (n : ChannelId) (f : Channel → Channel) : (p.modChan n f).noticesShown = p.noticesShown := rfl
@[simp] theorem Part.modChan_zone (p : Part) (n : ChannelId) (f : Channel → Channel) (z' : ZoneId) : (p.modChan n f).zone z' = p.zone z' := rfl
@[simp] theorem Part.modChan_line (p : Part) (n : ChannelId) (f : Channel → Channel) (l' : LineId) : (p.modChan n f).line l' = p.line l' := rfl
@[simp] theorem Part.modChan_bank (p : Part) (n : ChannelId) (f : Channel → Channel) (b' : BankId) : (p.modChan n f).bank b' = p.bank b' := rfl

/-! `Part.modZone` -/

@[simp] theorem Part.modZone_now (p : Part) (z : ZoneId) (f : Zone → Zone) : (p.modZone z f).now = p.now := rfl
@[simp] theorem Part.modZone_chans (p : Part) (z : ZoneId) (f : Zone → Zone) : (p.modZone z f).chans = p.chans := rfl
@[simp] theorem Part.modZone_ga (p : Part) (z : ZoneId) (f : Zone → Zone) : (p.modZone z f).ga = p.ga := rfl
@[simp] theorem Part.modZone_lines (p : Part) (z : ZoneId) (f : Zone → Zone) : (p.modZone z f).lines = p.lines := rfl
@[simp] theorem Part.modZone_weather (p : Part) (z : ZoneId) (f : Zone → Zone) : (p.modZone z f).weather = p.weather := rfl
@[simp] theorem Part.modZone_globals (p : Part) (z : ZoneId) (f : Zone → Zone) : (p.modZone z f).globals = p.globals := rfl
@[simp] theorem Part.modZone_cmd (p : Part) (z : ZoneId) (f : Zone → Zone) : (p.modZone z f).cmd = p.cmd := rfl
@[simp] theorem Part.modZone_banks (p : Part) (z : ZoneId) (f : Zone → Zone) : (p.modZone z f).banks = p.banks := rfl
@[simp] theorem Part.modZone_notices (p : Part) (z : ZoneId) (f : Zone → Zone) : (p.modZone z f).notices = p.notices := rfl
@[simp] theorem Part.modZone_noticeAcks (p : Part) (z : ZoneId) (f : Zone → Zone) : (p.modZone z f).noticeAcks = p.noticeAcks := rfl
@[simp] theorem Part.modZone_noticesShown (p : Part) (z : ZoneId) (f : Zone → Zone) : (p.modZone z f).noticesShown = p.noticesShown := rfl
@[simp] theorem Part.modZone_chan (p : Part) (z : ZoneId) (f : Zone → Zone) (n' : ChannelId) : (p.modZone z f).chan n' = p.chan n' := rfl
@[simp] theorem Part.modZone_line (p : Part) (z : ZoneId) (f : Zone → Zone) (l' : LineId) : (p.modZone z f).line l' = p.line l' := rfl
@[simp] theorem Part.modZone_bank (p : Part) (z : ZoneId) (f : Zone → Zone) (b' : BankId) : (p.modZone z f).bank b' = p.bank b' := rfl

/-! `Part.modLine` -/

@[simp] theorem Part.modLine_now (p : Part) (l : LineId) (f : Line → Line) : (p.modLine l f).now = p.now := rfl
@[simp] theorem Part.modLine_chans (p : Part) (l : LineId) (f : Line → Line) : (p.modLine l f).chans = p.chans := rfl
@[simp] theorem Part.modLine_zones (p : Part) (l : LineId) (f : Line → Line) : (p.modLine l f).zones = p.zones := rfl
@[simp] theorem Part.modLine_ga (p : Part) (l : LineId) (f : Line → Line) : (p.modLine l f).ga = p.ga := rfl
@[simp] theorem Part.modLine_weather (p : Part) (l : LineId) (f : Line → Line) : (p.modLine l f).weather = p.weather := rfl
@[simp] theorem Part.modLine_globals (p : Part) (l : LineId) (f : Line → Line) : (p.modLine l f).globals = p.globals := rfl
@[simp] theorem Part.modLine_cmd (p : Part) (l : LineId) (f : Line → Line) : (p.modLine l f).cmd = p.cmd := rfl
@[simp] theorem Part.modLine_banks (p : Part) (l : LineId) (f : Line → Line) : (p.modLine l f).banks = p.banks := rfl
@[simp] theorem Part.modLine_notices (p : Part) (l : LineId) (f : Line → Line) : (p.modLine l f).notices = p.notices := rfl
@[simp] theorem Part.modLine_noticeAcks (p : Part) (l : LineId) (f : Line → Line) : (p.modLine l f).noticeAcks = p.noticeAcks := rfl
@[simp] theorem Part.modLine_noticesShown (p : Part) (l : LineId) (f : Line → Line) : (p.modLine l f).noticesShown = p.noticesShown := rfl
@[simp] theorem Part.modLine_chan (p : Part) (l : LineId) (f : Line → Line) (n' : ChannelId) : (p.modLine l f).chan n' = p.chan n' := rfl
@[simp] theorem Part.modLine_zone (p : Part) (l : LineId) (f : Line → Line) (z' : ZoneId) : (p.modLine l f).zone z' = p.zone z' := rfl
@[simp] theorem Part.modLine_bank (p : Part) (l : LineId) (f : Line → Line) (b' : BankId) : (p.modLine l f).bank b' = p.bank b' := rfl

/-! `Part.modTest` -/

@[simp] theorem Part.modTest_now (p : Part) (l : LineId) (f : LineTest → LineTest) : (p.modTest l f).now = p.now := rfl
@[simp] theorem Part.modTest_chans (p : Part) (l : LineId) (f : LineTest → LineTest) : (p.modTest l f).chans = p.chans := rfl
@[simp] theorem Part.modTest_zones (p : Part) (l : LineId) (f : LineTest → LineTest) : (p.modTest l f).zones = p.zones := rfl
@[simp] theorem Part.modTest_ga (p : Part) (l : LineId) (f : LineTest → LineTest) : (p.modTest l f).ga = p.ga := rfl
@[simp] theorem Part.modTest_weather (p : Part) (l : LineId) (f : LineTest → LineTest) : (p.modTest l f).weather = p.weather := rfl
@[simp] theorem Part.modTest_globals (p : Part) (l : LineId) (f : LineTest → LineTest) : (p.modTest l f).globals = p.globals := rfl
@[simp] theorem Part.modTest_cmd (p : Part) (l : LineId) (f : LineTest → LineTest) : (p.modTest l f).cmd = p.cmd := rfl
@[simp] theorem Part.modTest_banks (p : Part) (l : LineId) (f : LineTest → LineTest) : (p.modTest l f).banks = p.banks := rfl
@[simp] theorem Part.modTest_notices (p : Part) (l : LineId) (f : LineTest → LineTest) : (p.modTest l f).notices = p.notices := rfl
@[simp] theorem Part.modTest_noticeAcks (p : Part) (l : LineId) (f : LineTest → LineTest) : (p.modTest l f).noticeAcks = p.noticeAcks := rfl
@[simp] theorem Part.modTest_noticesShown (p : Part) (l : LineId) (f : LineTest → LineTest) : (p.modTest l f).noticesShown = p.noticesShown := rfl
@[simp] theorem Part.modTest_chan (p : Part) (l : LineId) (f : LineTest → LineTest) (n' : ChannelId) : (p.modTest l f).chan n' = p.chan n' := rfl
@[simp] theorem Part.modTest_zone (p : Part) (l : LineId) (f : LineTest → LineTest) (z' : ZoneId) : (p.modTest l f).zone z' = p.zone z' := rfl
@[simp] theorem Part.modTest_bank (p : Part) (l : LineId) (f : LineTest → LineTest) (b' : BankId) : (p.modTest l f).bank b' = p.bank b' := rfl

/-! `Part.record` -/

@[simp] theorem Part.record_now (p : Part) (b : BankId) (e : ErrorRecord) : (p.record b e).now = p.now := rfl
@[simp] theorem Part.record_chans (p : Part) (b : BankId) (e : ErrorRecord) : (p.record b e).chans = p.chans := rfl
@[simp] theorem Part.record_zones (p : Part) (b : BankId) (e : ErrorRecord) : (p.record b e).zones = p.zones := rfl
@[simp] theorem Part.record_ga (p : Part) (b : BankId) (e : ErrorRecord) : (p.record b e).ga = p.ga := rfl
@[simp] theorem Part.record_lines (p : Part) (b : BankId) (e : ErrorRecord) : (p.record b e).lines = p.lines := rfl
@[simp] theorem Part.record_weather (p : Part) (b : BankId) (e : ErrorRecord) : (p.record b e).weather = p.weather := rfl
@[simp] theorem Part.record_globals (p : Part) (b : BankId) (e : ErrorRecord) : (p.record b e).globals = p.globals := rfl
@[simp] theorem Part.record_cmd (p : Part) (b : BankId) (e : ErrorRecord) : (p.record b e).cmd = p.cmd := rfl
@[simp] theorem Part.record_notices (p : Part) (b : BankId) (e : ErrorRecord) : (p.record b e).notices = p.notices := rfl
@[simp] theorem Part.record_noticeAcks (p : Part) (b : BankId) (e : ErrorRecord) : (p.record b e).noticeAcks = p.noticeAcks := rfl
@[simp] theorem Part.record_noticesShown (p : Part) (b : BankId) (e : ErrorRecord) : (p.record b e).noticesShown = p.noticesShown := rfl
@[simp] theorem Part.record_chan (p : Part) (b : BankId) (e : ErrorRecord) (n' : ChannelId) : (p.record b e).chan n' = p.chan n' := rfl
@[simp] theorem Part.record_zone (p : Part) (b : BankId) (e : ErrorRecord) (z' : ZoneId) : (p.record b e).zone z' = p.zone z' := rfl
@[simp] theorem Part.record_line (p : Part) (b : BankId) (e : ErrorRecord) (l' : LineId) : (p.record b e).line l' = p.line l' := rfl

/-! `Part.tick` -/

@[simp] theorem Part.tick_chans (p : Part)  : p.tick.chans = p.chans := rfl
@[simp] theorem Part.tick_zones (p : Part)  : p.tick.zones = p.zones := rfl
@[simp] theorem Part.tick_ga (p : Part)  : p.tick.ga = p.ga := rfl
@[simp] theorem Part.tick_lines (p : Part)  : p.tick.lines = p.lines := rfl
@[simp] theorem Part.tick_weather (p : Part)  : p.tick.weather = p.weather := rfl
@[simp] theorem Part.tick_globals (p : Part)  : p.tick.globals = p.globals := rfl
@[simp] theorem Part.tick_cmd (p : Part)  : p.tick.cmd = p.cmd := rfl
@[simp] theorem Part.tick_banks (p : Part)  : p.tick.banks = p.banks := rfl
@[simp] theorem Part.tick_notices (p : Part)  : p.tick.notices = p.notices := rfl
@[simp] theorem Part.tick_noticeAcks (p : Part)  : p.tick.noticeAcks = p.noticeAcks := rfl
@[simp] theorem Part.tick_noticesShown (p : Part)  : p.tick.noticesShown = p.noticesShown := rfl
@[simp] theorem Part.tick_dirty (p : Part)  : p.tick.dirty = p.dirty := rfl
@[simp] theorem Part.tick_chan (p : Part)  (n' : ChannelId) : p.tick.chan n' = p.chan n' := rfl
@[simp] theorem Part.tick_zone (p : Part)  (z' : ZoneId) : p.tick.zone z' = p.zone z' := rfl
@[simp] theorem Part.tick_line (p : Part)  (l' : LineId) : p.tick.line l' = p.line l' := rfl
@[simp] theorem Part.tick_bank (p : Part)  (b' : BankId) : p.tick.bank b' = p.bank b' := rfl
@[simp] theorem Part.tick_dirtyOf (p : Part)  (r' : RecordId) : p.tick.dirtyOf r' = p.dirtyOf r' := rfl

/-! `Part.advanceTo` -/

@[simp] theorem Part.advanceTo_chans (p : Part) (t : Nat) : (p.advanceTo t).chans = p.chans := rfl
@[simp] theorem Part.advanceTo_zones (p : Part) (t : Nat) : (p.advanceTo t).zones = p.zones := rfl
@[simp] theorem Part.advanceTo_ga (p : Part) (t : Nat) : (p.advanceTo t).ga = p.ga := rfl
@[simp] theorem Part.advanceTo_lines (p : Part) (t : Nat) : (p.advanceTo t).lines = p.lines := rfl
@[simp] theorem Part.advanceTo_weather (p : Part) (t : Nat) : (p.advanceTo t).weather = p.weather := rfl
@[simp] theorem Part.advanceTo_globals (p : Part) (t : Nat) : (p.advanceTo t).globals = p.globals := rfl
@[simp] theorem Part.advanceTo_cmd (p : Part) (t : Nat) : (p.advanceTo t).cmd = p.cmd := rfl
@[simp] theorem Part.advanceTo_banks (p : Part) (t : Nat) : (p.advanceTo t).banks = p.banks := rfl
@[simp] theorem Part.advanceTo_notices (p : Part) (t : Nat) : (p.advanceTo t).notices = p.notices := rfl
@[simp] theorem Part.advanceTo_noticeAcks (p : Part) (t : Nat) : (p.advanceTo t).noticeAcks = p.noticeAcks := rfl
@[simp] theorem Part.advanceTo_noticesShown (p : Part) (t : Nat) : (p.advanceTo t).noticesShown = p.noticesShown := rfl
@[simp] theorem Part.advanceTo_dirty (p : Part) (t : Nat) : (p.advanceTo t).dirty = p.dirty := rfl
@[simp] theorem Part.advanceTo_chan (p : Part) (t : Nat) (n' : ChannelId) : (p.advanceTo t).chan n' = p.chan n' := rfl
@[simp] theorem Part.advanceTo_zone (p : Part) (t : Nat) (z' : ZoneId) : (p.advanceTo t).zone z' = p.zone z' := rfl
@[simp] theorem Part.advanceTo_line (p : Part) (t : Nat) (l' : LineId) : (p.advanceTo t).line l' = p.line l' := rfl
@[simp] theorem Part.advanceTo_bank (p : Part) (t : Nat) (b' : BankId) : (p.advanceTo t).bank b' = p.bank b' := rfl
@[simp] theorem Part.advanceTo_dirtyOf (p : Part) (t : Nat) (r' : RecordId) : (p.advanceTo t).dirtyOf r' = p.dirtyOf r' := rfl

@[simp] theorem Part.tick_now (p : Part) : p.tick.now = p.now + 1 := rfl
@[simp] theorem Part.advanceTo_now (p : Part) (t : Nat) : (p.advanceTo t).now = max p.now t := rfl

/-! Records read back after a write -/

@[simp] theorem Part.chan_setChan_self (p : Part) (n : ChannelId) (c : Channel) : (p.setChan n c).chan n = c := by
  simp [Part.chan, Part.setChan, Part.mark]

theorem Part.chan_setChan_of_ne (p : Part) {n m : ChannelId} (c : Channel) (h : m ≠ n) :
    (p.setChan n c).chan m = p.chan m := by
  have : n.val ≠ m.val := fun e => h (Fin.ext e.symm)
  simp [Part.chan, Part.setChan, Part.mark, this]

theorem Part.chan_setChan (p : Part) (n m : ChannelId) (c : Channel) :
    (p.setChan n c).chan m = if m = n then c else p.chan m := by
  by_cases h : m = n
  · subst h; simp
  · simp [h, p.chan_setChan_of_ne c h]

@[simp] theorem Part.zone_setZone_self (p : Part) (z : ZoneId) (x : Zone) : (p.setZone z x).zone z = x := by
  simp [Part.zone, Part.setZone, Part.mark]

theorem Part.zone_setZone (p : Part) (z y : ZoneId) (x : Zone) :
    (p.setZone z x).zone y = if y = z then x else p.zone y := by
  by_cases h : y = z
  · subst h; simp
  · have : z.val ≠ y.val := fun e => h (Fin.ext e.symm)
    simp [Part.zone, Part.setZone, Part.mark, h, this]

@[simp] theorem Part.line_setLine_self (p : Part) (l : LineId) (x : Line) : (p.setLine l x).line l = x := by
  simp [Part.line, Part.setLine, Part.mark]

theorem Part.line_setLine (p : Part) (l k : LineId) (x : Line) :
    (p.setLine l x).line k = if k = l then x else p.line k := by
  by_cases h : k = l
  · subst h; simp
  · have : l.val ≠ k.val := fun e => h (Fin.ext e.symm)
    simp [Part.line, Part.setLine, Part.mark, h, this]

theorem bankNumber_injective (a b : BankId) (h : bankNumber a = bankNumber b) : a = b := by
  cases a <;> cases b <;> simp only [bankNumber] at h <;>
    first
      | rfl
      | (congr 1; apply Fin.ext; omega)
      | omega

@[simp] theorem Part.bank_setBank_self (p : Part) (b : BankId) (x : Bank) : (p.setBank b x).bank b = x := by
  simp [Part.bank, Part.setBank, Part.mark]

theorem Part.bank_setBank (p : Part) (b c : BankId) (x : Bank) :
    (p.setBank b x).bank c = if c = b then x else p.bank c := by
  by_cases h : c = b
  · subst h; simp
  · have : (bankIndex b).val ≠ (bankIndex c).val := fun e => h (bankNumber_injective c b e.symm)
    simp [Part.bank, Part.setBank, Part.mark, h, this]

theorem recordNumber_injective (a b : RecordId) (h : recordNumber a = recordNumber b) : a = b := by
  have key : ∀ x : BankId, bankNumber x < 8 := fun x => (bankIndex x).isLt
  cases a <;> cases b <;> simp only [recordNumber] at h <;>
    first
      | rfl
      | (congr 1; apply Fin.ext; omega)
      | (congr 1; apply bankNumber_injective; omega)
      | omega
      | (rename_i x y; have := key x; omega)
      | (rename_i x y; have := key y; omega)
      | (rename_i x; have := key x; omega)

@[simp] theorem Part.dirtyOf_mark_self (p : Part) (r : RecordId) (w : BitVec 8) :
    (p.mark r w).dirtyOf r = p.dirtyOf r ||| w := by
  simp [Part.dirtyOf, Part.mark]

theorem Part.dirtyOf_mark (p : Part) (r q : RecordId) (w : BitVec 8) :
    (p.mark r w).dirtyOf q = if q = r then p.dirtyOf q ||| w else p.dirtyOf q := by
  by_cases h : q = r
  · subst h; simp
  · have : (recordIndex r).val ≠ (recordIndex q).val := fun e => h (recordNumber_injective q r e.symm)
    simp [Part.dirtyOf, Part.mark, h, this]

/-! Changes in place -/

theorem Part.chan_modChan (p : Part) (n m : ChannelId) (f : Channel → Channel) :
    (p.modChan n f).chan m = if m = n then f (p.chan n) else p.chan m := p.chan_setChan n m _

@[simp] theorem Part.chan_modChan_self (p : Part) (n : ChannelId) (f : Channel → Channel) :
    (p.modChan n f).chan n = f (p.chan n) := p.chan_setChan_self n _

theorem Part.zone_modZone (p : Part) (z y : ZoneId) (f : Zone → Zone) :
    (p.modZone z f).zone y = if y = z then f (p.zone z) else p.zone y := p.zone_setZone z y _

@[simp] theorem Part.zone_modZone_self (p : Part) (z : ZoneId) (f : Zone → Zone) :
    (p.modZone z f).zone z = f (p.zone z) := p.zone_setZone_self z _

theorem Part.line_modLine (p : Part) (l k : LineId) (f : Line → Line) :
    (p.modLine l f).line k = if k = l then f (p.line l) else p.line k := p.line_setLine l k _

@[simp] theorem Part.line_modLine_self (p : Part) (l : LineId) (f : Line → Line) :
    (p.modLine l f).line l = f (p.line l) := p.line_setLine_self l _

@[simp] theorem Part.line_modTest_self (p : Part) (l : LineId) (f : LineTest → LineTest) :
    ((p.modTest l f).line l).test = f (p.line l).test := by
  simp [Part.modTest]

theorem Part.line_modTest (p : Part) (l k : LineId) (f : LineTest → LineTest) :
    (p.modTest l f).line k = if k = l then { p.line l with test := f (p.line l).test } else p.line k :=
  p.line_modLine l k _

theorem Part.bank_record (p : Part) (b c : BankId) (e : ErrorRecord) :
    (p.record b e).bank c = if c = b then ((p.bank b).take e).count else p.bank c := p.bank_setBank b c _

@[simp] theorem Part.bank_record_self (p : Part) (b : BankId) (e : ErrorRecord) :
    (p.record b e).bank b = ((p.bank b).take e).count := p.bank_setBank_self b _

/-! The end of a command and the start of a release state -/

@[simp] theorem Part.setRelease_release (p : Part) (r : Release) : (p.setRelease r).cmd.release = r := rfl

@[simp] theorem Part.abandonRelease_release (p : Part) : p.abandonRelease.cmd.release = .idle := rfl

/-- The state's own fields after the end of an event. -/
@[simp] theorem Verdict.done_part (p : Part) : (done p).part = p := rfl
@[simp] theorem Verdict.done_refusal (p : Part) : (done p).refusal = none := rfl
@[simp] theorem Verdict.refused_part (p : Part) (r : Reason) : (refused p r).part = p := rfl
@[simp] theorem Verdict.refused_refusal (p : Part) (r : Reason) : (refused p r).refusal = some r := rfl

end Sys2Proof.Machine
end

