-- ==== Sys2Proof/Laws/Frame.lean ====
section
/-! SUPPORT. What the Motion Unit's and the Field Line Controllers' operations leave as it was, one lemma per operation:
each keeps `Part.KeepsGrants` (Safety.lean). -/

set_option linter.unusedTactic false
set_option linter.unreachableTactic false

namespace Sys2Proof.Machine

/-! ## The two relations are preorders -/

theorem Bank.Grown.trans {a b c : Bank} (h : a.Grown b) (k : b.Grown c) : a.Grown c := by
  induction k with
  | refl => exact h
  | take e _ ih => exact .take e ih

@[simp] theorem Bank.takeAll_nil (b : Bank) : b.takeAll [] = b := rfl
@[simp] theorem Bank.takeAll_cons (b : Bank) (e : ErrorRecord) (es : List ErrorRecord) :
    b.takeAll (e :: es) = (b.take e).count.takeAll es := rfl
theorem Bank.takeAll_append (b : Bank) (es fs : List ErrorRecord) : b.takeAll (es ++ fs) = (b.takeAll es).takeAll fs :=
  List.foldl_append

theorem gateAfterAbandonment_idle (p : Part) (h : p.cmd.release = .idle) : gateAfterAbandonment p = p.bank .gate := if_pos h
theorem gateAfterAbandonment_begun (p : Part) (h : p.cmd.release ≠ .idle) :
    gateAfterAbandonment p = ((p.bank .gate).take ⟨.notice, .releaseAbandoned, none, none⟩).count := if_neg h

theorem Bank.Grown.takeAll (b : Bank) (es : List ErrorRecord) : b.Grown (b.takeAll es) := by
  induction es generalizing b with
  | nil => exact .refl
  | cons e es ih => exact (Bank.Grown.take e .refl).trans (ih _)

theorem Part.KeepsCaptures.refl (p : Part) : p.KeepsCaptures p where
  now := Nat.le_refl _
  requested _ := rfl
  notifyWord _ := rfl
  args := rfl
  pending := rfl
  pattern _ := rfl
  bank _ := .refl
  notices := by simp
  noticeAcks := rfl
  count := id

theorem Part.KeepsCaptures.trans {p q r : Part} (h : p.KeepsCaptures q) (k : q.KeepsCaptures r) : p.KeepsCaptures r where
  now := Nat.le_trans h.now k.now
  requested n := (k.requested n).trans (h.requested n)
  notifyWord n := (k.notifyWord n).trans (h.notifyWord n)
  args := k.args.trans h.args
  pending := k.pending.trans h.pending
  pattern l := (k.pattern l).trans (h.pattern l)
  bank b := (h.bank b).trans (k.bank b)
  notices := by rw [← k.notices, ← BitVec.or_assoc, h.notices]
  noticeAcks := k.noticeAcks.trans h.noticeAcks
  count c := k.count (h.count c)

theorem Part.KeepsGrants.refl (p : Part) : p.KeepsGrants p where
  captures := .refl p
  zones := rfl
  ga := rfl
  weather := rfl
  globals := rfl
  cmd := rfl
  cfg _ := rfl
  granted _ := rfl
  governing _ := rfl
  freeze _ := rfl

theorem Part.KeepsGrants.trans {p q r : Part} (h : p.KeepsGrants q) (k : q.KeepsGrants r) : p.KeepsGrants r where
  captures := h.captures.trans k.captures
  zones := k.zones.trans h.zones
  ga := k.ga.trans h.ga
  weather := k.weather.trans h.weather
  globals := k.globals.trans h.globals
  cmd := k.cmd.trans h.cmd
  cfg n := (k.cfg n).trans (h.cfg n)
  granted n := (k.granted n).trans (h.granted n)
  governing n := (k.governing n).trans (h.governing n)
  freeze n := (k.freeze n).trans (h.freeze n)

/-- A loop over a list keeps what each of its acts keeps. -/
theorem foldl_keeps {α β : Type} {R : β → β → Prop} (refl : ∀ b, R b b) (trans : ∀ {a b c}, R a b → R b c → R a c)
    {f : β → α → β} (step : ∀ b a, R b (f b a)) (l : List α) (b : β) : R b (l.foldl f b) := by
  induction l generalizing b with
  | nil => exact refl b
  | cons a l ih => exact trans (step b a) (ih (f b a))

/-! ## The writes -/

section
variable {p q : Part}

theorem Part.KeepsGrants.advanceTo (h : p.KeepsGrants q) (t : Nat) : p.KeepsGrants (q.advanceTo t) :=
  h.trans { Part.KeepsGrants.refl q with
    captures := { Part.KeepsCaptures.refl q with now := Nat.le_max_left _ _ } }

/-- A channel's configuration, captured words, grant and freeze are as they were. -/
def Channel.sameGrant (c d : Channel) : Prop :=
  d.cfg = c.cfg ∧ d.requested = c.requested ∧ d.notifyWord = c.notifyWord ∧ d.granted = c.granted ∧
    d.governing = c.governing ∧ d.freeze = c.freeze

theorem Part.KeepsGrants.modChan (h : p.KeepsGrants q) (n : ChannelId) (f : Channel → Channel)
    (hf : ∀ c : Channel, c.sameGrant (f c)) : p.KeepsGrants (q.modChan n f) := by
  have key : ∀ m, (q.chan m).sameGrant ((q.modChan n f).chan m) := by
    intro m
    rw [Part.chan_modChan]
    split
    · rename_i e; subst e; exact hf _
    · exact ⟨rfl, rfl, rfl, rfl, rfl, rfl⟩
  exact h.trans { Part.KeepsGrants.refl q with
    captures := { Part.KeepsCaptures.refl q with
      requested := fun m => (key m).2.1
      notifyWord := fun m => (key m).2.2.1 }
    cfg := fun m => (key m).1
    granted := fun m => (key m).2.2.2.1
    governing := fun m => (key m).2.2.2.2.1
    freeze := fun m => (key m).2.2.2.2.2 }

theorem Part.KeepsGrants.modLine (h : p.KeepsGrants q) (l : LineId) (f : Line → Line)
    (hf : ∀ x, (f x).test.pattern = x.test.pattern) : p.KeepsGrants (q.modLine l f) := by
  exact h.trans { Part.KeepsGrants.refl q with
    captures := { Part.KeepsCaptures.refl q with
      pattern := by
        intro k
        rw [Part.line_modLine]
        split
        · rename_i e; subst e; exact hf _
        · rfl } }

theorem Part.KeepsGrants.modTest (h : p.KeepsGrants q) (l : LineId) (f : LineTest → LineTest)
    (hf : ∀ t, (f t).pattern = t.pattern) : p.KeepsGrants (q.modTest l f) :=
  h.modLine l _ (fun x => hf x.test)

theorem Part.KeepsCaptures.record (h : p.KeepsCaptures q) (b : BankId) (e : ErrorRecord) :
    p.KeepsCaptures (q.record b e) :=
  h.trans { Part.KeepsCaptures.refl q with
    bank := by
      intro c
      rw [Part.bank_record]
      split
      · rename_i e; subst e; exact .take _ .refl
      · exact .refl }

theorem Part.KeepsGrants.record (h : p.KeepsGrants q) (b : BankId) (e : ErrorRecord) : p.KeepsGrants (q.record b e) :=
  { h with captures := h.captures.record b e }

theorem Part.KeepsGrants.recordOffline (h : p.KeepsGrants q) (n : ChannelId) : p.KeepsGrants (q.recordOffline n) :=
  h.record _ _

theorem Part.KeepsGrants.recordFaulted (h : p.KeepsGrants q) (n : ChannelId) (f : FaultCode) :
    p.KeepsGrants (q.recordFaulted n f) := h.record _ _

theorem Part.KeepsGrants.joinNotices (h : p.KeepsGrants q) (n : ChannelId) : p.KeepsGrants (q.joinNotices n) :=
  h.trans { Part.KeepsGrants.refl q with
    captures := { Part.KeepsCaptures.refl q with
      notices := by simp [Part.joinNotices, ← BitVec.or_assoc] } }

theorem Part.KeepsGrants.forEach (h : p.KeepsGrants q) (ns : List ChannelId) (act : ChannelId → Part → Part)
    (step : ∀ (n : ChannelId) (r : Part), r.KeepsGrants (act n r)) : p.KeepsGrants (q.forEach ns act) :=
  h.trans (foldl_keeps Part.KeepsGrants.refl Part.KeepsGrants.trans (fun r n => step n r) ns q)

/-! ## The test record under the queue operations -/

@[simp] theorem Line.take_test (x : Line) (n : ChannelId) : (x.take n).test = x.test := rfl
@[simp] theorem Line.forget_test (x : Line) (n : ChannelId) : (x.forget n).test = x.test := rfl
@[simp] theorem Line.remove_test (x : Line) (n : ChannelId) : (x.remove n).test = x.test := rfl
@[simp] theorem Line.join_test (x : Line) (o : Order) : (x.join o).test = x.test := by
  unfold Line.join; split <;> rfl
@[simp] theorem Line.reenter_test (x : Line) (o : Order) : (x.reenter o).test = x.test := by
  unfold Line.reenter; split <;> rfl
@[simp] theorem Line.change_test (x : Line) (n : ChannelId) (f : Order → Order) : (x.change n f).test = x.test := rfl
@[simp] theorem Line.retarget_test (x : Line) (n : ChannelId) (t : Nat) (cls : OrderClass) :
    (x.retarget n t cls).test = x.test := by
  unfold Line.retarget; split <;> (try split) <;> (try split) <;> simp
@[simp] theorem Line.reclassInFlight_test (x : Line) (n : ChannelId) (cls : OrderClass) :
    (x.reclassInFlight n cls).test = x.test := by
  unfold Line.reclassInFlight; split <;> (try split) <;> (try split) <;> simp
@[simp] theorem Line.endExchange_test (x : Line) (free : Nat) : (x.endExchange free).test = x.test := rfl
/-- R123 to R126: a frame of another sender has ended; a window not begun begins when the line is then free. -/
theorem Line.heard_window_due (x : Line) (now : Nat) (h : x.window = .due) :
    (x.heard now).window = .inForce (max x.freeAt (now + gapTime)) := by simp [Line.heard, h]
@[simp] theorem Line.heard_freeAt (x : Line) (now : Nat) : (x.heard now).freeAt = max x.freeAt (now + gapTime) := rfl
@[simp] theorem Line.heard_receiving (x : Line) (now : Nat) : (x.heard now).receiving = false := rfl
@[simp] theorem Line.heard_exchange (x : Line) (now : Nat) : (x.heard now).exchange = x.exchange := rfl
@[simp] theorem Line.heard_state (x : Line) (now : Nat) : (x.heard now).state = x.state := rfl
@[simp] theorem Line.heard_test (x : Line) (now : Nat) : (x.heard now).test = x.test := rfl
/-- R127: after a loss a window that is due stays due. -/
@[simp] theorem Line.lose_window (x : Line) (now : Nat) : (x.lose now).window = x.window := rfl
@[simp] theorem Line.lose_test (x : Line) (now : Nat) : (x.lose now).test = x.test := rfl
@[simp] theorem Line.enter_test (x : Line) (now : Nat) (s : LineState) : (x.enter now s).test = x.test := rfl

/-! ## The Motion Unit and the Field Line Controllers -/

theorem Part.KeepsGrants.setMotion (hk : p.KeepsGrants q) (n : ChannelId) (m : Motion) :
    p.KeepsGrants (q.setMotion n m) := by
  unfold Part.setMotion
  try dsimp only
  repeat' first
    | with_reducible exact hk
    | (intro _; exact ⟨rfl, rfl, rfl, rfl, rfl, rfl⟩)
    | with_reducible apply Part.KeepsGrants.modChan
    | split

theorem Part.KeepsGrants.stopTravel (hk : p.KeepsGrants q) (n : ChannelId) :
    p.KeepsGrants (q.stopTravel n) := by
  unfold Part.stopTravel
  try dsimp only
  repeat' first
    | with_reducible exact hk
    | (intro _; exact ⟨rfl, rfl, rfl, rfl, rfl, rfl⟩)
    | with_reducible apply Part.KeepsGrants.modChan
    | split

theorem Part.KeepsGrants.removeOrder (hk : p.KeepsGrants q) (n : ChannelId) :
    p.KeepsGrants (q.removeOrder n) := by
  unfold Part.removeOrder
  try dsimp only
  repeat' first
    | with_reducible exact hk
    | (intro _; rfl)
    | with_reducible apply Part.KeepsGrants.modLine
    | split
    | (intro _; simp; done)

theorem Part.KeepsGrants.joinOrder (hk : p.KeepsGrants q) (n : ChannelId) (target : Nat) :
    p.KeepsGrants (q.joinOrder n target) := by
  unfold Part.joinOrder
  try dsimp only
  repeat' first
    | with_reducible exact hk
    | (intro _; rfl)
    | with_reducible apply Part.KeepsGrants.modLine
    | split
    | (intro _; simp; done)

theorem Part.KeepsGrants.testIdle (hk : p.KeepsGrants q) (n : ChannelId) :
    p.KeepsGrants (q.testIdle n) := by
  unfold Part.testIdle
  try dsimp only
  repeat' first
    | with_reducible exact hk
    | with_reducible apply Part.KeepsGrants.setMotion
    | with_reducible apply Part.KeepsGrants.joinOrder
    | split

theorem Part.KeepsGrants.supersede (hk : p.KeepsGrants q) (n : ChannelId) (target : Nat) :
    p.KeepsGrants (q.supersede n target) := by
  unfold Part.supersede
  try dsimp only
  repeat' first
    | with_reducible exact hk
    | (intro _; rfl)
    | with_reducible apply Part.KeepsGrants.modLine
    | with_reducible apply Part.KeepsGrants.removeOrder
    | with_reducible apply Part.KeepsGrants.joinOrder
    | split
    | (intro _; simp; done)

theorem Part.KeepsGrants.notice (hk : p.KeepsGrants q) (n : ChannelId) :
    p.KeepsGrants (q.notice n) := by
  unfold Part.notice
  try dsimp only
  repeat' first
    | with_reducible exact hk
    | (intro _; exact ⟨rfl, rfl, rfl, rfl, rfl, rfl⟩)
    | (intro _; rfl)
    | with_reducible apply Part.KeepsGrants.modChan
    | with_reducible apply Part.KeepsGrants.modLine
    | with_reducible apply Part.KeepsGrants.setMotion
    | with_reducible apply Part.KeepsGrants.removeOrder
    | with_reducible apply Part.KeepsGrants.testIdle
    | with_reducible apply Part.KeepsGrants.supersede
    | split
    | (intro _; simp; done)

theorem Part.KeepsGrants.dropWork (hk : p.KeepsGrants q) (n : ChannelId) :
    p.KeepsGrants (q.dropWork n) := by
  unfold Part.dropWork
  try dsimp only
  repeat' first
    | with_reducible exact hk
    | (intro _; exact ⟨rfl, rfl, rfl, rfl, rfl, rfl⟩)
    | with_reducible apply Part.KeepsGrants.modChan
    | with_reducible apply Part.KeepsGrants.removeOrder
    | split

theorem Part.KeepsGrants.enterFaulted (hk : p.KeepsGrants q) (n : ChannelId) (f : FaultCode) :
    p.KeepsGrants (q.enterFaulted n f) := by
  unfold Part.enterFaulted
  try dsimp only
  repeat' first
    | with_reducible exact hk
    | (intro _; exact ⟨rfl, rfl, rfl, rfl, rfl, rfl⟩)
    | with_reducible apply Part.KeepsGrants.recordFaulted
    | with_reducible apply Part.KeepsGrants.modChan
    | with_reducible apply Part.KeepsGrants.setMotion
    | split

theorem Part.KeepsGrants.faultChannel (hk : p.KeepsGrants q) (n : ChannelId) (f : FaultCode) :
    p.KeepsGrants (q.faultChannel n f) := by
  unfold Part.faultChannel
  try dsimp only
  repeat' first
    | with_reducible exact hk
    | with_reducible apply Part.KeepsGrants.dropWork
    | with_reducible apply Part.KeepsGrants.enterFaulted
    | split

theorem Part.KeepsGrants.forgetPosition (hk : p.KeepsGrants q) (n : ChannelId) :
    p.KeepsGrants (q.forgetPosition n) := by
  unfold Part.forgetPosition
  try dsimp only
  repeat' first
    | with_reducible exact hk
    | (intro _; exact ⟨rfl, rfl, rfl, rfl, rfl, rfl⟩)
    | with_reducible apply Part.KeepsGrants.modChan
    | split

theorem Part.KeepsGrants.goOffline (hk : p.KeepsGrants q) (n : ChannelId) :
    p.KeepsGrants (q.goOffline n) := by
  unfold Part.goOffline
  try dsimp only
  repeat' first
    | with_reducible exact hk
    | with_reducible apply Part.KeepsGrants.recordOffline
    | with_reducible apply Part.KeepsGrants.setMotion
    | with_reducible apply Part.KeepsGrants.dropWork
    | with_reducible apply Part.KeepsGrants.forgetPosition
    | split

theorem Part.KeepsGrants.leaveFaulted (hk : p.KeepsGrants q) (n : ChannelId) :
    p.KeepsGrants (q.leaveFaulted n) := by
  unfold Part.leaveFaulted
  try dsimp only
  repeat' first
    | with_reducible exact hk
    | (intro _; exact ⟨rfl, rfl, rfl, rfl, rfl, rfl⟩)
    | with_reducible apply Part.KeepsGrants.recordOffline
    | with_reducible apply Part.KeepsGrants.modChan
    | with_reducible apply Part.KeepsGrants.setMotion
    | with_reducible apply Part.KeepsGrants.testIdle
    | with_reducible apply Part.KeepsGrants.forgetPosition
    | split

theorem Part.KeepsGrants.settleAttempt (hk : p.KeepsGrants q) (l : LineId) (o : Order) :
    p.KeepsGrants (q.settleAttempt l o) := by
  unfold Part.settleAttempt
  try dsimp only
  repeat' first
    | with_reducible exact hk
    | (intro _; rfl)
    | with_reducible apply Part.KeepsGrants.modLine
    | with_reducible apply Part.KeepsGrants.setMotion
    | with_reducible apply Part.KeepsGrants.stopTravel
    | split
    | (intro _; simp; done)

theorem Part.KeepsGrants.orderFailed (hk : p.KeepsGrants q) (l : LineId) (o : Order) (f : Failure) :
    p.KeepsGrants (q.orderFailed l o f) := by
  unfold Part.orderFailed
  try dsimp only
  repeat' first
    | with_reducible exact hk
    | with_reducible apply Part.KeepsGrants.enterFaulted
    | with_reducible apply Part.KeepsGrants.faultChannel
    | with_reducible apply Part.KeepsGrants.settleAttempt
    | split

theorem Part.KeepsGrants.queryMissed (hk : p.KeepsGrants q) (n : ChannelId) :
    p.KeepsGrants (q.queryMissed n) := by
  unfold Part.queryMissed
  try dsimp only
  repeat' first
    | with_reducible exact hk
    | (intro _; exact ⟨rfl, rfl, rfl, rfl, rfl, rfl⟩)
    | with_reducible apply Part.KeepsGrants.modChan
    | with_reducible apply Part.KeepsGrants.forgetPosition
    | with_reducible apply Part.KeepsGrants.goOffline
    | split

theorem Part.KeepsGrants.clearMiss (hk : p.KeepsGrants q) (n : ChannelId) :
    p.KeepsGrants (q.clearMiss n) := by
  unfold Part.clearMiss
  try dsimp only
  repeat' first
    | with_reducible exact hk
    | (intro _; exact ⟨rfl, rfl, rfl, rfl, rfl, rfl⟩)
    | with_reducible apply Part.KeepsGrants.modChan
    | split

theorem Part.KeepsGrants.orderAccepted (hk : p.KeepsGrants q) (o : Order) :
    p.KeepsGrants (q.orderAccepted o) := by
  unfold Part.orderAccepted
  try dsimp only
  repeat' first
    | with_reducible exact hk
    | (intro _; exact ⟨rfl, rfl, rfl, rfl, rfl, rfl⟩)
    | with_reducible apply Part.KeepsGrants.modChan
    | with_reducible apply Part.KeepsGrants.setMotion
    | with_reducible apply Part.KeepsGrants.enterFaulted
    | with_reducible apply Part.KeepsGrants.clearMiss
    | split

theorem Part.KeepsGrants.orderBusy (hk : p.KeepsGrants q) (l : LineId) (o : Order) :
    p.KeepsGrants (q.orderBusy l o) := by
  unfold Part.orderBusy
  try dsimp only
  repeat' first
    | with_reducible exact hk
    | with_reducible apply Part.KeepsGrants.settleAttempt
    | with_reducible apply Part.KeepsGrants.clearMiss
    | split

theorem Part.KeepsGrants.orderRefused (hk : p.KeepsGrants q) (o : Order) (reason : Byte) :
    p.KeepsGrants (q.orderRefused o reason) := by
  unfold Part.orderRefused
  try dsimp only
  repeat' first
    | with_reducible exact hk
    | with_reducible apply Part.KeepsGrants.enterFaulted
    | with_reducible apply Part.KeepsGrants.faultChannel
    | with_reducible apply Part.KeepsGrants.clearMiss
    | split

theorem Part.KeepsGrants.takeStatus (hk : p.KeepsGrants q) (n : ChannelId) (position : Word) (m : NodeMotion) (motion : Byte) :
    p.KeepsGrants (q.takeStatus n position m motion) := by
  unfold Part.takeStatus
  try dsimp only
  repeat' first
    | with_reducible exact hk
    | (intro _; exact ⟨rfl, rfl, rfl, rfl, rfl, rfl⟩)
    | with_reducible apply Part.KeepsGrants.modChan
    | split

theorem Part.KeepsGrants.haltStatus (hk : p.KeepsGrants q) (o : Order) (expiry : Nat) (position : Word) (m : NodeMotion) (motion : Byte) :
    p.KeepsGrants (q.haltStatus o expiry position m motion) := by
  unfold Part.haltStatus
  try dsimp only
  repeat' first
    | with_reducible exact hk
    | with_reducible apply Part.KeepsGrants.enterFaulted
    | with_reducible apply Part.KeepsGrants.takeStatus
    | split

theorem Part.KeepsGrants.complete (hk : p.KeepsGrants q) (n : ChannelId) :
    p.KeepsGrants (q.complete n) := by
  unfold Part.complete
  try dsimp only
  repeat' first
    | with_reducible exact hk
    | (intro _; exact ⟨rfl, rfl, rfl, rfl, rfl, rfl⟩)
    | with_reducible apply Part.KeepsGrants.modChan
    | with_reducible apply Part.KeepsGrants.joinNotices
    | with_reducible apply Part.KeepsGrants.setMotion
    | with_reducible apply Part.KeepsGrants.removeOrder
    | with_reducible apply Part.KeepsGrants.testIdle
    | split

theorem Part.KeepsGrants.shortTravel (hk : p.KeepsGrants q) (n : ChannelId) (target : Nat) :
    p.KeepsGrants (q.shortTravel n target) := by
  unfold Part.shortTravel
  try dsimp only
  repeat' first
    | with_reducible exact hk
    | (intro _; exact ⟨rfl, rfl, rfl, rfl, rfl, rfl⟩)
    | (intro _; rfl)
    | with_reducible apply Part.KeepsGrants.modChan
    | with_reducible apply Part.KeepsGrants.modLine
    | with_reducible apply Part.KeepsGrants.setMotion
    | with_reducible apply Part.KeepsGrants.faultChannel
    | split
    | (intro _; simp; done)

theorem Part.KeepsGrants.queryStatus (hk : p.KeepsGrants q) (n : ChannelId) (position : Word) (m : NodeMotion) (motion faults : Byte) :
    p.KeepsGrants (q.queryStatus n position m motion faults) := by
  unfold Part.queryStatus
  try dsimp only
  repeat' first
    | with_reducible exact hk
    | with_reducible apply Part.KeepsGrants.setMotion
    | with_reducible apply Part.KeepsGrants.testIdle
    | with_reducible apply Part.KeepsGrants.faultChannel
    | with_reducible apply Part.KeepsGrants.takeStatus
    | with_reducible apply Part.KeepsGrants.complete
    | with_reducible apply Part.KeepsGrants.shortTravel
    | split

theorem Part.KeepsGrants.abandon (hk : p.KeepsGrants q) (l : LineId) :
    p.KeepsGrants (q.abandon l) := by
  unfold Part.abandon
  try dsimp only
  repeat' first
    | with_reducible exact hk
    | (intro _; rfl)
    | with_reducible apply Part.KeepsGrants.modLine
    | split
    | (intro _; simp; done)

theorem Part.KeepsGrants.abandonFor (hk : p.KeepsGrants q) (l : LineId) (n : ChannelId) :
    p.KeepsGrants (q.abandonFor l n) := by
  unfold Part.abandonFor
  try dsimp only
  repeat' first
    | with_reducible exact hk
    | with_reducible apply Part.KeepsGrants.abandon
    | split

theorem Part.KeepsGrants.expireTravel (hk : p.KeepsGrants q) (n : ChannelId) (elapsed : Nat) :
    p.KeepsGrants (q.expireTravel n elapsed) := by
  unfold Part.expireTravel
  try dsimp only
  repeat' first
    | with_reducible exact hk
    | (intro _; exact ⟨rfl, rfl, rfl, rfl, rfl, rfl⟩)
    | (intro _; rfl)
    | with_reducible apply Part.KeepsGrants.modChan
    | with_reducible apply Part.KeepsGrants.modLine
    | with_reducible apply Part.KeepsGrants.setMotion
    | with_reducible apply Part.KeepsGrants.removeOrder
    | with_reducible apply Part.KeepsGrants.faultChannel
    | with_reducible apply Part.KeepsGrants.abandonFor
    | split
    | (intro _; simp; done)

theorem Part.KeepsGrants.enterLine (hk : p.KeepsGrants q) (l : LineId) (s : LineState) :
    p.KeepsGrants (q.enterLine l s) := by
  unfold Part.enterLine
  try dsimp only
  repeat' first
    | with_reducible exact hk
    | (intro _; rfl)
    | with_reducible apply Part.KeepsGrants.modLine
    | split
    | (intro _; simp; done)

theorem Part.KeepsGrants.abortTest (hk : p.KeepsGrants q) (l : LineId) :
    p.KeepsGrants (q.abortTest l) := by
  unfold Part.abortTest
  try dsimp only
  repeat' first
    | with_reducible exact hk
    | (intro _; rfl)
    | with_reducible apply Part.KeepsGrants.modTest
    | with_reducible apply Part.KeepsGrants.record
    | split
    | (intro _; simp; done)

theorem Part.KeepsGrants.outOfService (hk : p.KeepsGrants q) (n : ChannelId) :
    p.KeepsGrants (q.outOfService n) := by
  unfold Part.outOfService
  try dsimp only
  repeat' first
    | with_reducible exact hk
    | with_reducible apply Part.KeepsGrants.goOffline
    | with_reducible apply Part.KeepsGrants.clearMiss
    | split

theorem Part.KeepsGrants.clearLine (hk : p.KeepsGrants q) (l : LineId) :
    p.KeepsGrants (q.clearLine l) := by
  unfold Part.clearLine
  try dsimp only
  repeat' first
    | with_reducible exact hk
    | (intro _; rfl)
    | with_reducible apply Part.KeepsGrants.modLine
    | with_reducible apply Part.KeepsGrants.forEach
    | with_reducible apply Part.KeepsGrants.abandon
    | with_reducible apply Part.KeepsGrants.abortTest
    | exact fun n r => (Part.KeepsGrants.refl r).outOfService n
    | split
    | (intro _; simp; done)

theorem Part.KeepsGrants.disableLine (hk : p.KeepsGrants q) (l : LineId) :
    p.KeepsGrants (q.disableLine l) := by
  unfold Part.disableLine
  try dsimp only
  repeat' first
    | with_reducible exact hk
    | with_reducible apply Part.KeepsGrants.enterLine
    | with_reducible apply Part.KeepsGrants.clearLine
    | split

theorem Part.KeepsGrants.failLine (hk : p.KeepsGrants q) (l : LineId) :
    p.KeepsGrants (q.failLine l) := by
  unfold Part.failLine
  try dsimp only
  repeat' first
    | with_reducible exact hk
    | with_reducible apply Part.KeepsGrants.record
    | with_reducible apply Part.KeepsGrants.enterLine
    | with_reducible apply Part.KeepsGrants.clearLine
    | split

theorem Part.KeepsGrants.dueAtOnce (hk : p.KeepsGrants q) (n : ChannelId) :
    p.KeepsGrants (q.dueAtOnce n) := by
  unfold Part.dueAtOnce
  try dsimp only
  repeat' first
    | with_reducible exact hk
    | (intro _; exact ⟨rfl, rfl, rfl, rfl, rfl, rfl⟩)
    | with_reducible apply Part.KeepsGrants.modChan
    | split

theorem Part.KeepsGrants.restartLine (hk : p.KeepsGrants q) (l : LineId) :
    p.KeepsGrants (q.restartLine l) := by
  unfold Part.restartLine
  try dsimp only
  repeat' first
    | with_reducible exact hk
    | (intro _; rfl)
    | with_reducible apply Part.KeepsGrants.modLine
    | with_reducible apply Part.KeepsGrants.forEach
    | with_reducible apply Part.KeepsGrants.enterLine
    | exact fun n r => (Part.KeepsGrants.refl r).dueAtOnce n
    | split
    | (intro _; simp; done)

theorem Part.KeepsGrants.latchLine (hk : p.KeepsGrants q) (l : LineId) :
    p.KeepsGrants (q.latchLine l) := by
  unfold Part.latchLine
  try dsimp only
  repeat' first
    | with_reducible exact hk
    | with_reducible apply Part.KeepsGrants.abandon
    | with_reducible apply Part.KeepsGrants.enterLine
    | with_reducible apply Part.KeepsGrants.abortTest
    | split

theorem Part.KeepsGrants.startExchange (hk : p.KeepsGrants q) (l : LineId) (node : BitVec 4) (k : ExchangeKind) :
    p.KeepsGrants (q.startExchange l node k) := by
  unfold Part.startExchange
  try dsimp only
  repeat' first
    | with_reducible exact hk
    | (intro _; rfl)
    | with_reducible apply Part.KeepsGrants.modLine
    | split
    | (intro _; simp; done)

theorem Part.KeepsGrants.startChoice (hk : p.KeepsGrants q) (l : LineId) (c : Choice) :
    p.KeepsGrants (q.startChoice l c) := by
  unfold Part.startChoice
  try dsimp only
  repeat' first
    | with_reducible exact hk
    | (intro _; exact ⟨rfl, rfl, rfl, rfl, rfl, rfl⟩)
    | (intro _; rfl)
    | with_reducible apply Part.KeepsGrants.modChan
    | with_reducible apply Part.KeepsGrants.modLine
    | with_reducible apply Part.KeepsGrants.setMotion
    | with_reducible apply Part.KeepsGrants.startExchange
    | split
    | (intro _; simp; done)

theorem Part.KeepsGrants.startTransaction (hk : p.KeepsGrants q) (l : LineId) :
    p.KeepsGrants (q.startTransaction l) := by
  unfold Part.startTransaction
  try dsimp only
  repeat' first
    | with_reducible exact hk
    | with_reducible apply Part.KeepsGrants.advanceTo
    | with_reducible apply Part.KeepsGrants.startChoice
    | split

theorem Part.KeepsGrants.firstSend (hk : p.KeepsGrants q) (n : ChannelId) :
    p.KeepsGrants (q.firstSend n) := by
  unfold Part.firstSend
  try dsimp only
  repeat' first
    | with_reducible exact hk
    | (intro _; exact ⟨rfl, rfl, rfl, rfl, rfl, rfl⟩)
    | with_reducible apply Part.KeepsGrants.modChan
    | split

theorem Part.KeepsGrants.sendFrame (hk : p.KeepsGrants q) (l : LineId) :
    p.KeepsGrants (q.sendFrame l) := by
  unfold Part.sendFrame
  try dsimp only
  repeat' first
    | with_reducible exact hk
    | (intro _; rfl)
    | with_reducible apply Part.KeepsGrants.modLine
    | with_reducible apply Part.KeepsGrants.firstSend
    | split
    | (intro _; simp; done)

theorem Part.KeepsGrants.endExchange (hk : p.KeepsGrants q) (l : LineId) (free : Nat) :
    p.KeepsGrants (q.endExchange l free) := by
  unfold Part.endExchange
  try dsimp only
  repeat' first
    | with_reducible exact hk
    | (intro _; exact ⟨rfl, rfl, rfl, rfl, rfl, rfl⟩)
    | (intro _; rfl)
    | with_reducible apply Part.KeepsGrants.modChan
    | with_reducible apply Part.KeepsGrants.modLine
    | split
    | (intro _; simp; done)

theorem Part.KeepsGrants.failExchange (hk : p.KeepsGrants q) (l : LineId) (f : Failure) (free : Nat) :
    p.KeepsGrants (q.failExchange l f free) := by
  unfold Part.failExchange
  try dsimp only
  repeat' first
    | with_reducible exact hk
    | with_reducible apply Part.KeepsGrants.record
    | with_reducible apply Part.KeepsGrants.orderFailed
    | with_reducible apply Part.KeepsGrants.queryMissed
    | with_reducible apply Part.KeepsGrants.endExchange
    | split

theorem Part.KeepsGrants.countFrame (hk : p.KeepsGrants q) (l : LineId) (bytes : Pattern) (discarded : Bool) (back : List (Option Byte)) :
    p.KeepsGrants (q.countFrame l bytes discarded back) := by
  unfold Part.countFrame
  try dsimp only
  repeat' first
    | with_reducible exact hk
    | (intro _; rfl)
    | with_reducible apply Part.KeepsGrants.modTest
    | split

theorem Part.KeepsGrants.countTest (hk : p.KeepsGrants q) (l : LineId) (bytes : Pattern) (discarded : Bool) (back : List (Option Byte)) (free : Nat) :
    p.KeepsGrants (q.countTest l bytes discarded back free) :=
  (hk.endExchange l free).countFrame l bytes discarded back

theorem Part.KeepsGrants.startTestFrame (hk : p.KeepsGrants q) (l : LineId) :
    p.KeepsGrants (q.startTestFrame l) := by
  unfold Part.startTestFrame
  try dsimp only
  repeat' first
    | with_reducible exact hk
    | with_reducible apply Part.KeepsGrants.advanceTo
    | with_reducible apply Part.KeepsGrants.startExchange
    | split

theorem Part.KeepsGrants.checkLocalEcho (hk : p.KeepsGrants q) (l : LineId) (readBack : Pattern) :
    p.KeepsGrants (q.checkLocalEcho l readBack) := by
  unfold Part.checkLocalEcho
  try dsimp only
  repeat' first
    | with_reducible exact hk
    | with_reducible apply Part.KeepsGrants.countTest
    | exact hk.modLine l _ (fun _ => rfl)
    | split

theorem Part.KeepsGrants.missEcho (hk : p.KeepsGrants q) (l : LineId) :
    p.KeepsGrants (q.missEcho l) := by
  unfold Part.missEcho
  try dsimp only
  repeat' first
    | with_reducible exact hk
    | with_reducible apply Part.KeepsGrants.advanceTo
    | with_reducible apply Part.KeepsGrants.countTest
    | split

theorem Part.KeepsGrants.recordHeard (hk : p.KeepsGrants q) (l : LineId) (h : Heard) :
    p.KeepsGrants (q.recordHeard l h) := by
  unfold Part.recordHeard
  try dsimp only
  repeat' first
    | with_reducible exact hk
    | with_reducible apply Part.KeepsGrants.record
    | split

theorem Part.KeepsGrants.lineBusyUntilGap (hk : p.KeepsGrants q) (l : LineId) :
    p.KeepsGrants (q.lineBusyUntilGap l) := by
  unfold Part.lineBusyUntilGap
  try dsimp only
  repeat' first
    | with_reducible exact hk
    | (intro _; rfl)
    | with_reducible apply Part.KeepsGrants.modLine
    | split
    | (intro _; simp; done)

theorem Part.KeepsGrants.hearOther (hk : p.KeepsGrants q) (l : LineId) (h : Heard) :
    p.KeepsGrants (q.hearOther l h) := by
  unfold Part.hearOther
  try dsimp only
  repeat' first
    | with_reducible exact hk
    | with_reducible apply Part.KeepsGrants.failExchange
    | with_reducible apply Part.KeepsGrants.countTest
    | with_reducible apply Part.KeepsGrants.recordHeard
    | with_reducible apply Part.KeepsGrants.lineBusyUntilGap
    | split

theorem Part.KeepsGrants.hearStatus (hk : p.KeepsGrants q) (l : LineId) (addr : BitVec 4) (position : Word) (motion faults : Byte) :
    p.KeepsGrants (q.hearStatus l addr position motion faults) := by
  unfold Part.hearStatus
  try dsimp only
  repeat' first
    | with_reducible exact hk
    | with_reducible apply Part.KeepsGrants.haltStatus
    | with_reducible apply Part.KeepsGrants.queryStatus
    | with_reducible apply Part.KeepsGrants.endExchange
    | with_reducible apply Part.KeepsGrants.hearOther
    | split

theorem Part.KeepsGrants.hearAccept (hk : p.KeepsGrants q) (l : LineId) (addr : BitVec 4) :
    p.KeepsGrants (q.hearAccept l addr) := by
  unfold Part.hearAccept
  try dsimp only
  repeat' first
    | with_reducible exact hk
    | with_reducible apply Part.KeepsGrants.orderAccepted
    | with_reducible apply Part.KeepsGrants.endExchange
    | with_reducible apply Part.KeepsGrants.hearOther
    | split

theorem Part.KeepsGrants.hearBusy (hk : p.KeepsGrants q) (l : LineId) (addr : BitVec 4) :
    p.KeepsGrants (q.hearBusy l addr) := by
  unfold Part.hearBusy
  try dsimp only
  repeat' first
    | with_reducible exact hk
    | with_reducible apply Part.KeepsGrants.orderBusy
    | with_reducible apply Part.KeepsGrants.endExchange
    | with_reducible apply Part.KeepsGrants.hearOther
    | split

theorem Part.KeepsGrants.hearRefuse (hk : p.KeepsGrants q) (l : LineId) (addr : BitVec 4) (reason : Byte) :
    p.KeepsGrants (q.hearRefuse l addr reason) := by
  unfold Part.hearRefuse
  try dsimp only
  repeat' first
    | with_reducible exact hk
    | with_reducible apply Part.KeepsGrants.orderRefused
    | with_reducible apply Part.KeepsGrants.endExchange
    | with_reducible apply Part.KeepsGrants.hearOther
    | split

theorem Part.KeepsGrants.hearEcho (hk : p.KeepsGrants q) (l : LineId) (addr : BitVec 4) (received : List Byte) (crcGood : Bool) :
    p.KeepsGrants (q.hearEcho l addr received crcGood) := by
  unfold Part.hearEcho
  try dsimp only
  repeat' first
    | with_reducible exact hk
    | with_reducible apply Part.KeepsGrants.countTest
    | with_reducible apply Part.KeepsGrants.hearOther
    | split

theorem Part.KeepsGrants.timeOut (hk : p.KeepsGrants q) (l : LineId) :
    p.KeepsGrants (q.timeOut l) := by
  unfold Part.timeOut
  try dsimp only
  repeat' first
    | with_reducible exact hk
    | with_reducible apply Part.KeepsGrants.advanceTo
    | with_reducible apply Part.KeepsGrants.failExchange
    | split

theorem Part.KeepsGrants.setRetake (hk : p.KeepsGrants q) (l : LineId) (r : Retake) :
    p.KeepsGrants (q.setRetake l r) := by
  unfold Part.setRetake
  try dsimp only
  repeat' first
    | with_reducible exact hk
    | (intro _; rfl)
    | with_reducible apply Part.KeepsGrants.modLine
    | split
    | (intro _; simp; done)

theorem Part.KeepsGrants.loseOrder (hk : p.KeepsGrants q) (l : LineId) (o : Order) :
    p.KeepsGrants (q.loseOrder l o) := by
  unfold Part.loseOrder
  try dsimp only
  repeat' first
    | with_reducible exact hk
    | with_reducible apply Part.KeepsGrants.settleAttempt
    | (intro _; rfl)
    | with_reducible apply Part.KeepsGrants.modLine
    | with_reducible apply Part.KeepsGrants.setRetake
    | split

theorem Part.KeepsGrants.loseQuery (hk : p.KeepsGrants q) (l : LineId) (n : ChannelId) (poll : Bool) :
    p.KeepsGrants (q.loseQuery l n poll) := by
  unfold Part.loseQuery
  try dsimp only
  repeat' first
    | with_reducible exact hk
    | (intro _; exact ⟨rfl, rfl, rfl, rfl, rfl, rfl⟩)
    | (intro _; rfl)
    | with_reducible apply Part.KeepsGrants.modChan
    | with_reducible apply Part.KeepsGrants.modLine
    | with_reducible apply Part.KeepsGrants.setRetake
    | split
    | (intro _; simp; done)

theorem Part.KeepsGrants.loseTest (hk : p.KeepsGrants q) (l : LineId) (bytes : Pattern) (discarded : Bool) (place : LossPlace) (readBack : Pattern) :
    p.KeepsGrants (q.loseTest l bytes discarded place readBack) := by
  unfold Part.loseTest
  try dsimp only
  repeat' first
    | with_reducible exact hk
    | (intro _; rfl)
    | with_reducible apply Part.KeepsGrants.modLine
    | with_reducible apply Part.KeepsGrants.countFrame
    | split

theorem Part.KeepsGrants.loseArbitration (hk : p.KeepsGrants q) (l : LineId) (place : LossPlace) (readBack : Pattern) :
    p.KeepsGrants (q.loseArbitration l place readBack) := by
  unfold Part.loseArbitration
  try dsimp only
  repeat' first
    | with_reducible exact hk
    | (intro _; rfl)
    | with_reducible apply Part.KeepsGrants.modLine
    | with_reducible apply Part.KeepsGrants.record
    | with_reducible apply Part.KeepsGrants.loseOrder
    | with_reducible apply Part.KeepsGrants.loseQuery
    | with_reducible apply Part.KeepsGrants.loseTest
    | split
    | (intro _; simp; done)

theorem Part.KeepsGrants.sendAnswer (hk : p.KeepsGrants q) (l : LineId) :
    p.KeepsGrants (q.sendAnswer l) := by
  unfold Part.sendAnswer
  try dsimp only
  repeat' first
    | with_reducible exact hk
    | (intro _; rfl)
    | with_reducible apply Part.KeepsGrants.advanceTo
    | with_reducible apply Part.KeepsGrants.modLine
    | split
    | (intro _; simp; done)

theorem Part.KeepsGrants.endBackoff (hk : p.KeepsGrants q) (n : ChannelId) :
    p.KeepsGrants (q.endBackoff n) := by
  unfold Part.endBackoff
  try dsimp only
  repeat' first
    | with_reducible exact hk
    | (intro _; rfl)
    | with_reducible apply Part.KeepsGrants.advanceTo
    | with_reducible apply Part.KeepsGrants.modLine
    | split
    | (intro _; simp; done)

theorem Part.KeepsGrants.travelStep (hk : p.KeepsGrants q) (n : ChannelId) (elapsed : Nat) :
    p.KeepsGrants (q.travelStep n elapsed) := by
  unfold Part.travelStep
  try dsimp only
  repeat' first
    | with_reducible exact hk
    | (intro _; exact ⟨rfl, rfl, rfl, rfl, rfl, rfl⟩)
    | with_reducible apply Part.KeepsGrants.advanceTo
    | with_reducible apply Part.KeepsGrants.modChan
    | with_reducible apply Part.KeepsGrants.expireTravel
    | split

theorem Part.KeepsGrants.travelSecond (hk : p.KeepsGrants q) (n : ChannelId) :
    p.KeepsGrants (q.travelSecond n) := by
  unfold Part.travelSecond
  try dsimp only
  repeat' first
    | with_reducible exact hk
    | with_reducible apply Part.KeepsGrants.travelStep
    | split

theorem Part.KeepsGrants.travelExpiry (hk : p.KeepsGrants q) (n : ChannelId) :
    p.KeepsGrants (q.travelExpiry n) := by
  unfold Part.travelExpiry
  try dsimp only
  repeat' first
    | with_reducible exact hk
    | with_reducible apply Part.KeepsGrants.travelStep
    | split

theorem Part.KeepsGrants.pollFallsDue (hk : p.KeepsGrants q) (n : ChannelId) :
    p.KeepsGrants (q.pollFallsDue n) := by
  unfold Part.pollFallsDue
  try dsimp only
  repeat' first
    | with_reducible exact hk
    | (intro _; exact ⟨rfl, rfl, rfl, rfl, rfl, rfl⟩)
    | with_reducible apply Part.KeepsGrants.advanceTo
    | with_reducible apply Part.KeepsGrants.modChan
    | split

theorem Part.KeepsGrants.supervisionFallsDue (hk : p.KeepsGrants q) (n : ChannelId) :
    p.KeepsGrants (q.supervisionFallsDue n) := by
  unfold Part.supervisionFallsDue
  try dsimp only
  repeat' first
    | with_reducible exact hk
    | (intro _; exact ⟨rfl, rfl, rfl, rfl, rfl, rfl⟩)
    | with_reducible apply Part.KeepsGrants.advanceTo
    | with_reducible apply Part.KeepsGrants.modChan
    | split

theorem Part.KeepsGrants.windowFallsDue (hk : p.KeepsGrants q) (l : LineId) :
    p.KeepsGrants (q.windowFallsDue l) := by
  unfold Part.windowFallsDue
  try dsimp only
  repeat' first
    | with_reducible exact hk
    | (intro _; rfl)
    | with_reducible apply Part.KeepsGrants.advanceTo
    | with_reducible apply Part.KeepsGrants.modLine
    | split
    | (intro _; simp; done)

theorem Part.KeepsGrants.endWindow (hk : p.KeepsGrants q) (l : LineId) :
    p.KeepsGrants (q.endWindow l) := by
  unfold Part.endWindow
  try dsimp only
  repeat' first
    | with_reducible exact hk
    | (intro _; rfl)
    | with_reducible apply Part.KeepsGrants.advanceTo
    | with_reducible apply Part.KeepsGrants.modLine
    | split
    | (intro _; simp; done)

theorem Part.KeepsGrants.lineStuck (hk : p.KeepsGrants q) (l : LineId) (dominantFrom : Nat) :
    p.KeepsGrants (q.lineStuck l dominantFrom) := by
  unfold Part.lineStuck
  try dsimp only
  repeat' first
    | with_reducible exact hk
    | with_reducible apply Part.KeepsGrants.advanceTo
    | with_reducible apply Part.KeepsGrants.failLine
    | split

theorem Part.KeepsGrants.lineRecovery (hk : p.KeepsGrants q) (l : LineId) (recessiveFrom : Nat) :
    p.KeepsGrants (q.lineRecovery l recessiveFrom) := by
  unfold Part.lineRecovery
  try dsimp only
  repeat' first
    | with_reducible exact hk
    | (intro _; rfl)
    | with_reducible apply Part.KeepsGrants.advanceTo
    | with_reducible apply Part.KeepsGrants.modLine
    | with_reducible apply Part.KeepsGrants.restartLine
    | split

/-! ## Received frames (R120) -/

theorem Part.KeepsGrants.frameSeen (hk : p.KeepsGrants q) (l : LineId) : p.KeepsGrants (q.frameSeen l) := by
  unfold Part.frameSeen
  split
  · exact hk.modLine l _ (fun _ => rfl)
  · exact hk

/-- A frame of any kind but KEY. -/
theorem Part.KeepsGrants.takeFrame (hk : p.KeepsGrants q) (l : LineId) (f : Frame) (hf : f.isKey = false) :
    p.KeepsGrants (q.takeFrame l f) := by
  cases f with
  | key _ _ _ => exact absurd hf Bool.noConfusion
  | order _ _ => exact hk.hearOther l .valid
  | query _ => exact hk.hearOther l .valid
  | halt _ => exact hk.hearOther l .valid
  | test a b => exact hk.hearEcho l a _ true
  | status a x m y => exact hk.hearStatus l a x m y
  | accept a => exact hk.hearAccept l a
  | busy a => exact hk.hearBusy l a
  | refuse a r => exact hk.hearRefuse l a r

theorem Part.KeepsGrants.takeFound (hk : p.KeepsGrants q) (l : LineId) (found : Found) (hf : found.isKey = false) :
    p.KeepsGrants (q.takeFound l found) := by
  cases found with
  | nothing => exact hk
  | frame f => exact hk.takeFrame l f hf
  | damagedEcho a received => exact hk.hearEcho l a received false
  | damaged => exact hk.hearOther l .damaged

/-- What a receiver that does not look hears is nothing. -/
theorem Receiver.hear_isKey (r : Receiver) (h : Reception) (hh : isKeyReception h = false) : (r.hear h).found.isKey = false := by
  unfold Receiver.hear
  split <;> first | rfl | exact hh

theorem Part.KeepsGrants.hearReception (hk : p.KeepsGrants q) (l : LineId) (h : Reception) (hh : isKeyReception h = false) :
    p.KeepsGrants (q.hearReception l h) := by
  unfold Part.hearReception
  split
  · exact (hk.modLine l (fun x => x.receive h q.now) (fun _ => rfl)).takeFound l _ (Receiver.hear_isKey _ h hh)
  · exact hk

end
end Sys2Proof.Machine
end

