-- ==== Sys2Proof/Laws/Captures.lean ====
section
/-! SUPPORT. What the Source Arbiter's, the Zone Unit's, the Weather Unit's and the Command Unit's operations leave as it
was, one lemma per operation: each keeps `Part.KeepsCaptures` (Safety.lean). -/

set_option linter.unusedTactic false
set_option linter.unreachableTactic false

namespace Sys2Proof.Machine

section
variable {p q : Part}

/-! ## The writes -/

theorem Part.KeepsCaptures.mark (hk : p.KeepsCaptures q) (r : RecordId) (w : BitVec 8) : p.KeepsCaptures (Part.mark q r w) :=
  hk.trans { Part.KeepsCaptures.refl q with }

theorem Part.KeepsCaptures.advanceTo (hk : p.KeepsCaptures q) (t : Nat) : p.KeepsCaptures (q.advanceTo t) :=
  hk.trans ((Part.KeepsGrants.refl q).advanceTo t).captures

theorem Part.KeepsCaptures.modChan (hk : p.KeepsCaptures q) (n : ChannelId) (f : Channel → Channel)
    (hf : ∀ c : Channel, (f c).requested = c.requested ∧ (f c).notifyWord = c.notifyWord) :
    p.KeepsCaptures (q.modChan n f) := by
  have key : ∀ m, ((q.modChan n f).chan m).requested = (q.chan m).requested ∧
      ((q.modChan n f).chan m).notifyWord = (q.chan m).notifyWord := by
    intro m
    rw [Part.chan_modChan]
    split
    · rename_i e; subst e; exact hf _
    · exact ⟨rfl, rfl⟩
  exact hk.trans { Part.KeepsCaptures.refl q with
    requested := fun m => (key m).1
    notifyWord := fun m => (key m).2 }

theorem Part.KeepsCaptures.modZone (hk : p.KeepsCaptures q) (z : ZoneId) (f : Zone → Zone) :
    p.KeepsCaptures (q.modZone z f) :=
  hk.trans { Part.KeepsCaptures.refl q with }

theorem Part.KeepsCaptures.setGa (hk : p.KeepsCaptures q) (g : FireLoop) : p.KeepsCaptures (q.setGa g) :=
  hk.trans { Part.KeepsCaptures.refl q with }

theorem Part.KeepsCaptures.setLoop (hk : p.KeepsCaptures q) (loop : LoopId) (g : FireLoop) :
    p.KeepsCaptures (q.setLoop loop g) := by
  cases loop with
  | zone z => exact hk.modZone z (fun x => { x with loop := g })
  | ga => exact hk.setGa g

theorem Part.KeepsCaptures.setWeather (hk : p.KeepsCaptures q) (w : Weather) : p.KeepsCaptures (q.setWeather w) :=
  hk.trans { Part.KeepsCaptures.refl q with }

theorem Part.KeepsCaptures.setGlobals (hk : p.KeepsCaptures q) (g : GlobalConfig) :
    p.KeepsCaptures { q with globals := g } :=
  hk.trans { Part.KeepsCaptures.refl q with }

theorem Part.KeepsCaptures.setCmd (hk : p.KeepsCaptures q) (c : CommandUnit)
    (hc : c.args = q.cmd.args ∧ c.pending = q.cmd.pending ∧ (q.cmd.count < 128 → c.count < 128)) :
    p.KeepsCaptures (q.setCmd c) :=
  hk.trans { Part.KeepsCaptures.refl q with args := hc.1, pending := hc.2.1, count := hc.2.2 }

theorem Part.KeepsCaptures.modLine (hk : p.KeepsCaptures q) (l : LineId) (f : Line → Line)
    (hf : ∀ x, (f x).test.pattern = x.test.pattern) : p.KeepsCaptures (q.modLine l f) :=
  hk.trans ((Part.KeepsGrants.refl q).modLine l f hf).captures

theorem Part.KeepsCaptures.modTest (hk : p.KeepsCaptures q) (l : LineId) (f : LineTest → LineTest)
    (hf : ∀ t, (f t).pattern = t.pattern) : p.KeepsCaptures (q.modTest l f) :=
  hk.trans ((Part.KeepsGrants.refl q).modTest l f hf).captures

theorem Part.KeepsCaptures.recordOffline (hk : p.KeepsCaptures q) (n : ChannelId) : p.KeepsCaptures (q.recordOffline n) :=
  hk.record _ _

theorem Part.KeepsCaptures.recordFaulted (hk : p.KeepsCaptures q) (n : ChannelId) (f : FaultCode) :
    p.KeepsCaptures (q.recordFaulted n f) := hk.record _ _

theorem Part.KeepsCaptures.forEach (hk : p.KeepsCaptures q) (ns : List ChannelId) (act : ChannelId → Part → Part)
    (step : ∀ (n : ChannelId) (r : Part), r.KeepsCaptures (act n r)) : p.KeepsCaptures (q.forEach ns act) :=
  hk.trans (foldl_keeps Part.KeepsCaptures.refl Part.KeepsCaptures.trans (fun r n => step n r) ns q)

/-- A loop over any list. -/
theorem Part.KeepsCaptures.foldl {α : Type} (hk : p.KeepsCaptures q) (f : Part → α → Part)
    (step : ∀ (r : Part) (a : α), r.KeepsCaptures (f r a)) (l : List α) : p.KeepsCaptures (l.foldl f q) :=
  hk.trans (foldl_keeps Part.KeepsCaptures.refl Part.KeepsCaptures.trans step l q)

/-! ## Operations of the Motion Unit and the lines -/

theorem Part.KeepsCaptures.setMotion (hk : p.KeepsCaptures q) (n : ChannelId) (m : Motion) : p.KeepsCaptures (q.setMotion n m) :=
  hk.trans ((Part.KeepsGrants.refl q).setMotion n m).captures

theorem Part.KeepsCaptures.stopTravel (hk : p.KeepsCaptures q) (n : ChannelId) : p.KeepsCaptures (q.stopTravel n) :=
  hk.trans ((Part.KeepsGrants.refl q).stopTravel n).captures

theorem Part.KeepsCaptures.removeOrder (hk : p.KeepsCaptures q) (n : ChannelId) : p.KeepsCaptures (q.removeOrder n) :=
  hk.trans ((Part.KeepsGrants.refl q).removeOrder n).captures

theorem Part.KeepsCaptures.testIdle (hk : p.KeepsCaptures q) (n : ChannelId) : p.KeepsCaptures (q.testIdle n) :=
  hk.trans ((Part.KeepsGrants.refl q).testIdle n).captures

theorem Part.KeepsCaptures.notice (hk : p.KeepsCaptures q) (n : ChannelId) : p.KeepsCaptures (q.notice n) :=
  hk.trans ((Part.KeepsGrants.refl q).notice n).captures

theorem Part.KeepsCaptures.leaveFaulted (hk : p.KeepsCaptures q) (n : ChannelId) : p.KeepsCaptures (q.leaveFaulted n) :=
  hk.trans ((Part.KeepsGrants.refl q).leaveFaulted n).captures

theorem Part.KeepsCaptures.abandonFor (hk : p.KeepsCaptures q) (l : LineId) (n : ChannelId) : p.KeepsCaptures (q.abandonFor l n) :=
  hk.trans ((Part.KeepsGrants.refl q).abandonFor l n).captures

theorem Part.KeepsCaptures.expireTravel (hk : p.KeepsCaptures q) (n : ChannelId) (elapsed : Nat) : p.KeepsCaptures (q.expireTravel n elapsed) :=
  hk.trans ((Part.KeepsGrants.refl q).expireTravel n elapsed).captures

theorem Part.KeepsCaptures.enterLine (hk : p.KeepsCaptures q) (l : LineId) (s : LineState) : p.KeepsCaptures (q.enterLine l s) :=
  hk.trans ((Part.KeepsGrants.refl q).enterLine l s).captures

theorem Part.KeepsCaptures.disableLine (hk : p.KeepsCaptures q) (l : LineId) : p.KeepsCaptures (q.disableLine l) :=
  hk.trans ((Part.KeepsGrants.refl q).disableLine l).captures

theorem Part.KeepsCaptures.dueAtOnce (hk : p.KeepsCaptures q) (n : ChannelId) : p.KeepsCaptures (q.dueAtOnce n) :=
  hk.trans ((Part.KeepsGrants.refl q).dueAtOnce n).captures

theorem Part.KeepsCaptures.restartLine (hk : p.KeepsCaptures q) (l : LineId) : p.KeepsCaptures (q.restartLine l) :=
  hk.trans ((Part.KeepsGrants.refl q).restartLine l).captures

theorem Part.KeepsCaptures.latchLine (hk : p.KeepsCaptures q) (l : LineId) : p.KeepsCaptures (q.latchLine l) :=
  hk.trans ((Part.KeepsGrants.refl q).latchLine l).captures

theorem Part.KeepsCaptures.failExchange (hk : p.KeepsCaptures q) (l : LineId) (f : Failure) (free : Nat) : p.KeepsCaptures (q.failExchange l f free) :=
  hk.trans ((Part.KeepsGrants.refl q).failExchange l f free).captures

theorem Part.KeepsCaptures.countTest (hk : p.KeepsCaptures q) (l : LineId) (bytes : Pattern) (discarded : Bool) (back : List (Option Byte)) (free : Nat) : p.KeepsCaptures (q.countTest l bytes discarded back free) :=
  hk.trans ((Part.KeepsGrants.refl q).countTest l bytes discarded back free).captures

theorem Part.KeepsCaptures.lineBusyUntilGap (hk : p.KeepsCaptures q) (l : LineId) : p.KeepsCaptures (q.lineBusyUntilGap l) :=
  hk.trans ((Part.KeepsGrants.refl q).lineBusyUntilGap l).captures

theorem Part.KeepsCaptures.hearOther (hk : p.KeepsCaptures q) (l : LineId) (h : Heard) : p.KeepsCaptures (q.hearOther l h) :=
  hk.trans ((Part.KeepsGrants.refl q).hearOther l h).captures

/-! ## The Source Arbiter -/

theorem Part.KeepsCaptures.recompute (hk : p.KeepsCaptures q) (n : ChannelId) :
    p.KeepsCaptures (q.recompute n) := by
  unfold Part.recompute
  try dsimp only
  repeat' first
    | with_reducible exact hk
    | (intro _; exact ⟨rfl, rfl⟩)
    | with_reducible apply Part.KeepsCaptures.modChan
    | with_reducible apply Part.KeepsCaptures.mark
    | with_reducible apply Part.KeepsCaptures.notice
    | split

theorem Part.KeepsCaptures.recomputeZone (hk : p.KeepsCaptures q) (z : ZoneId) :
    p.KeepsCaptures (q.recomputeZone z) := by
  unfold Part.recomputeZone
  try dsimp only
  repeat' first
    | with_reducible exact hk
    | with_reducible apply Part.KeepsCaptures.forEach
    | exact fun n r => (Part.KeepsCaptures.refl r).recompute n
    | split

theorem Part.KeepsCaptures.recomputeAll (hk : p.KeepsCaptures q) :
    p.KeepsCaptures (q.recomputeAll) := by
  unfold Part.recomputeAll
  try dsimp only
  repeat' first
    | with_reducible exact hk
    | with_reducible apply Part.KeepsCaptures.forEach
    | exact fun n r => (Part.KeepsCaptures.refl r).recompute n
    | split

theorem Part.KeepsCaptures.takeFreezes (hk : p.KeepsCaptures q) (z : ZoneId) : p.KeepsCaptures (q.takeFreezes z) := by
  refine hk.forEach _ _ (fun n r => ?_)
  split
  · exact (Part.KeepsCaptures.refl r).modChan _ _ (fun _ => ⟨rfl, rfl⟩)
  · exact .refl r

theorem Part.KeepsCaptures.dropFreezes (hk : p.KeepsCaptures q) (z : ZoneId) : p.KeepsCaptures (q.dropFreezes z) :=
  hk.forEach _ _ (fun _ r => (Part.KeepsCaptures.refl r).modChan _ _ (fun _ => ⟨rfl, rfl⟩))

/-! ## The Zone Unit -/

theorem Part.KeepsCaptures.changeLoop (hk : p.KeepsCaptures q) (loop : LoopId) (s : LoopState) :
    p.KeepsCaptures (q.changeLoop loop s) := by
  unfold Part.changeLoop
  try dsimp only
  repeat' first
    | with_reducible exact hk
    | with_reducible apply Part.KeepsCaptures.record
    | with_reducible apply Part.KeepsCaptures.setLoop
    | split

theorem Part.KeepsCaptures.freshAttempts (hk : p.KeepsCaptures q) (z : ZoneId) : p.KeepsCaptures (q.freshAttempts z) := by
  refine hk.forEach _ _ (fun n r => ?_)
  split
  · exact (Part.KeepsCaptures.refl r).leaveFaulted n
  · exact .refl r

theorem Part.KeepsCaptures.latchLines (hk : p.KeepsCaptures q) : p.KeepsCaptures q.latchLines :=
  hk.foldl _ (fun r l => (Part.KeepsCaptures.refl r).latchLine l) _

theorem Part.KeepsCaptures.setLatch (hk : p.KeepsCaptures q) (z : ZoneId) :
    p.KeepsCaptures (q.setLatch z) := by
  unfold Part.setLatch
  try dsimp only
  repeat' first
    | with_reducible exact hk
    | with_reducible apply Part.KeepsCaptures.modZone
    | with_reducible apply Part.KeepsCaptures.recomputeZone
    | with_reducible apply Part.KeepsCaptures.takeFreezes
    | with_reducible apply Part.KeepsCaptures.freshAttempts
    | with_reducible apply Part.KeepsCaptures.latchLines
    | split

theorem Part.KeepsCaptures.latchIfClear (hk : p.KeepsCaptures q) (z : ZoneId) :
    p.KeepsCaptures (q.latchIfClear z) := by
  unfold Part.latchIfClear
  try dsimp only
  repeat' first
    | with_reducible exact hk
    | with_reducible apply Part.KeepsCaptures.setLatch
    | split

theorem Part.KeepsCaptures.qualify (hk : p.KeepsCaptures q) (loop : LoopId) : p.KeepsCaptures (q.qualify loop) := by
  cases loop
  · exact hk.latchIfClear _
  · exact hk.foldl _ (fun r z => (Part.KeepsCaptures.refl r).latchIfClear z) _

theorem Part.KeepsCaptures.loopTimerExpiry (hk : p.KeepsCaptures q) (loop : LoopId) (m : FireMode) :
    p.KeepsCaptures (q.loopTimerExpiry loop m) := by
  unfold Part.loopTimerExpiry
  try dsimp only
  repeat' first
    | with_reducible exact hk
    | with_reducible apply Part.KeepsCaptures.advanceTo
    | with_reducible apply Part.KeepsCaptures.setLoop
    | with_reducible apply Part.KeepsCaptures.qualify
    | split

theorem Part.KeepsCaptures.judgeZone (hk : p.KeepsCaptures q) (z : ZoneId) :
    p.KeepsCaptures (q.judgeZone z) := by
  unfold Part.judgeZone
  try dsimp only
  repeat' first
    | with_reducible exact hk
    | with_reducible apply Part.KeepsCaptures.modZone
    | split

theorem Part.KeepsCaptures.missDeadline (hk : p.KeepsCaptures q) (z : ZoneId) :
    p.KeepsCaptures (q.missDeadline z) := by
  unfold Part.missDeadline
  try dsimp only
  repeat' first
    | with_reducible exact hk
    | with_reducible apply Part.KeepsCaptures.record
    | with_reducible apply Part.KeepsCaptures.modZone
    | split

theorem Part.KeepsCaptures.lastSecond (hk : p.KeepsCaptures q) (z : ZoneId) :
    p.KeepsCaptures (q.lastSecond z) := by
  unfold Part.lastSecond
  try dsimp only
  repeat' first
    | with_reducible exact hk
    | with_reducible apply Part.KeepsCaptures.missDeadline
    | split

theorem Part.KeepsCaptures.deadlineSecond (hk : p.KeepsCaptures q) (z : ZoneId) :
    p.KeepsCaptures (q.deadlineSecond z) := by
  unfold Part.deadlineSecond
  try dsimp only
  repeat' first
    | with_reducible exact hk
    | with_reducible apply Part.KeepsCaptures.advanceTo
    | with_reducible apply Part.KeepsCaptures.modZone
    | with_reducible apply Part.KeepsCaptures.lastSecond
    | split

theorem Part.KeepsCaptures.deadlineExpiry (hk : p.KeepsCaptures q) (z : ZoneId) :
    p.KeepsCaptures (q.deadlineExpiry z) := by
  unfold Part.deadlineExpiry
  try dsimp only
  repeat' first
    | with_reducible exact hk
    | with_reducible apply Part.KeepsCaptures.advanceTo
    | with_reducible apply Part.KeepsCaptures.lastSecond
    | split

theorem Part.KeepsCaptures.overrunSecond (hk : p.KeepsCaptures q) (z : ZoneId) :
    p.KeepsCaptures (q.overrunSecond z) := by
  unfold Part.overrunSecond
  try dsimp only
  repeat' first
    | with_reducible exact hk
    | with_reducible apply Part.KeepsCaptures.advanceTo
    | with_reducible apply Part.KeepsCaptures.modZone
    | split

theorem Part.KeepsCaptures.executeRelease (hk : p.KeepsCaptures q) (z : ZoneId) :
    p.KeepsCaptures (q.executeRelease z) := by
  unfold Part.executeRelease
  try dsimp only
  repeat' first
    | with_reducible exact hk
    | with_reducible apply Part.KeepsCaptures.modZone
    | with_reducible apply Part.KeepsCaptures.recomputeZone
    | with_reducible apply Part.KeepsCaptures.dropFreezes
    | split

theorem Part.KeepsCaptures.releaseZone (hk : p.KeepsCaptures q) (z : ZoneId) : p.KeepsCaptures (q.releaseZone z).1 := by
  unfold Part.releaseZone
  split
  · split
    · exact hk.record _ _
    · exact hk.executeRelease z
  · exact hk

/-- A loop of decisions keeps what each decision keeps. -/
theorem foldl_release_keeps {f : ReleaseResult → ZoneId → ReleaseResult}
    (step : ∀ (r : ReleaseResult) (z : ZoneId), r.part.KeepsCaptures (f r z).part) (zs : List ZoneId) (r : ReleaseResult) :
    r.part.KeepsCaptures (zs.foldl f r).part := by
  induction zs generalizing r with
  | nil => exact .refl _
  | cons z zs ih => exact (step r z).trans (ih (f r z))

theorem Part.KeepsCaptures.loopChangesAt (hk : p.KeepsCaptures q) (changes : List LoopReport) (z : ZoneId) :
    p.KeepsCaptures (q.loopChangesAt changes z) :=
  hk.foldl (fun (r : Part) (c : LoopReport) => r.changeLoop c.loop c.state)
    (fun r c => (Part.KeepsCaptures.refl r).changeLoop c.loop c.state) _

theorem Part.KeepsCaptures.releaseZones (hk : p.KeepsCaptures q) (zones : BitVec 6) (changes : List LoopReport) :
    p.KeepsCaptures (q.releaseZones zones changes).part := by
  refine hk.trans (foldl_release_keeps (fun r z => ?_) allZones ⟨q, 0, 0⟩)
  split
  · dsimp only
    split
    · exact ((Part.KeepsCaptures.refl r.part).loopChangesAt changes z).releaseZone z
    · exact ((Part.KeepsCaptures.refl r.part).loopChangesAt changes z).releaseZone z
  · exact .refl _

theorem Part.KeepsCaptures.takeKey (hk : p.KeepsCaptures q) (zones : BitVec 6) (cmd : KeyCommand) (l : LineId)
    (station : BitVec 4) : p.KeepsCaptures (q.takeKey zones cmd l station) := by
  refine hk.foldl _ (fun r z => ?_) _
  split
  · exact ((Part.KeepsCaptures.refl r).modZone _ _).recomputeZone z
  · exact .refl r

theorem Part.KeepsCaptures.answerKey (hk : p.KeepsCaptures q) (l : LineId) (addr : BitVec 4) (zones command : Byte) :
    p.KeepsCaptures (q.answerKey l addr zones command) := by
  unfold Part.answerKey
  dsimp only
  repeat' first
    | with_reducible exact hk
    | (intro _; rfl)
    | with_reducible apply Part.KeepsCaptures.record
    | with_reducible apply Part.KeepsCaptures.takeKey
    | with_reducible apply Part.KeepsCaptures.modLine
    | with_reducible apply Part.KeepsCaptures.lineBusyUntilGap
    | split

theorem Part.KeepsCaptures.hearKey (hk : p.KeepsCaptures q) (l : LineId) (addr : BitVec 4) (zones command : Byte)
    (resultFirst : Bool) : p.KeepsCaptures (q.hearKey l addr zones command resultFirst) := by
  unfold Part.hearKey
  dsimp only
  repeat' first
    | with_reducible exact hk
    | with_reducible apply Part.KeepsCaptures.answerKey
    | with_reducible apply Part.KeepsCaptures.failExchange
    | with_reducible apply Part.KeepsCaptures.countTest
    | with_reducible apply Part.KeepsCaptures.hearOther
    | split

/-- A frame of any kind. -/
theorem Part.KeepsCaptures.takeFrame (hk : p.KeepsCaptures q) (l : LineId) (f : Frame) : p.KeepsCaptures (q.takeFrame l f) := by
  by_cases hf : f.isKey = true
  · cases f <;> first | exact hk.hearKey l _ _ _ true | exact absurd hf Bool.noConfusion
  · exact hk.trans ((Part.KeepsGrants.refl q).takeFrame l f (by simpa using hf)).captures

theorem Part.KeepsCaptures.hearReception (hk : p.KeepsCaptures q) (l : LineId) (h : Reception) :
    p.KeepsCaptures (q.hearReception l h) := by
  unfold Part.hearReception
  split
  · have h1 := hk.modLine l (fun x => x.receive h q.now) (fun _ => rfl)
    cases hf : ((q.line l).receiver.hear h).found with
    | nothing => exact h1
    | frame f => exact h1.takeFrame l f
    | damagedEcho a received => exact h1.trans ((Part.KeepsGrants.refl _).hearEcho l a received false).captures
    | damaged => exact h1.hearOther l .damaged
  · exact hk

theorem Part.KeepsCaptures.frameSeen (hk : p.KeepsCaptures q) (l : LineId) : p.KeepsCaptures (q.frameSeen l) :=
  hk.trans ((Part.KeepsGrants.refl q).frameSeen l).captures

/-! ## The Weather Unit -/

theorem Part.KeepsCaptures.countPulse (hk : p.KeepsCaptures q) :
    p.KeepsCaptures (q.countPulse) := by
  unfold Part.countPulse
  try dsimp only
  repeat' first
    | with_reducible exact hk
    | with_reducible apply Part.KeepsCaptures.setWeather
    | split

theorem Part.KeepsCaptures.publish (hk : p.KeepsCaptures q) (j : Judged) (c : Condition) :
    p.KeepsCaptures (q.publish j c) := by
  unfold Part.publish
  try dsimp only
  repeat' first
    | with_reducible exact hk
    | with_reducible apply Part.KeepsCaptures.setWeather
    | with_reducible apply Part.KeepsCaptures.recomputeAll
    | split

theorem Part.KeepsCaptures.endWindWindow (hk : p.KeepsCaptures q) (vane : BitVec 3) (order : PublicationOrder) :
    p.KeepsCaptures (q.endWindWindow vane order) :=
  ((hk.advanceTo _).setWeather _).foldl _ (fun r c => (Part.KeepsCaptures.refl r).publish _ c) _

theorem Part.KeepsCaptures.changeRainContact (hk : p.KeepsCaptures q) (active : Bool) :
    p.KeepsCaptures (q.changeRainContact active) := by
  unfold Part.changeRainContact
  try dsimp only
  repeat' first
    | with_reducible exact hk
    | with_reducible apply Part.KeepsCaptures.setWeather
    | split

theorem Part.KeepsCaptures.expireRain (hk : p.KeepsCaptures q) :
    p.KeepsCaptures (q.expireRain) := by
  unfold Part.expireRain
  try dsimp only
  repeat' first
    | with_reducible exact hk
    | with_reducible apply Part.KeepsCaptures.setWeather
    | with_reducible apply Part.KeepsCaptures.recomputeAll
    | split

theorem Part.KeepsCaptures.rainTimerExpiry (hk : p.KeepsCaptures q) :
    p.KeepsCaptures (q.rainTimerExpiry) := by
  unfold Part.rainTimerExpiry
  try dsimp only
  repeat' first
    | with_reducible exact hk
    | with_reducible apply Part.KeepsCaptures.advanceTo
    | with_reducible apply Part.KeepsCaptures.expireRain
    | split
/-! ## The Command Unit -/

theorem Part.KeepsCaptures.setRelease (hk : p.KeepsCaptures q) (r : Release) :
    p.KeepsCaptures (q.setRelease r) := by
  unfold Part.setRelease
  try dsimp only
  repeat' first
    | with_reducible exact hk
    | exact ⟨rfl, rfl, id⟩
    | with_reducible apply Part.KeepsCaptures.setCmd
    | split

theorem Part.KeepsCaptures.abandonRelease (hk : p.KeepsCaptures q) :
    p.KeepsCaptures (q.abandonRelease) := by
  unfold Part.abandonRelease
  try dsimp only
  repeat' first
    | with_reducible exact hk
    | with_reducible apply Part.KeepsCaptures.record
    | with_reducible apply Part.KeepsCaptures.setRelease
    | split

theorem Part.KeepsCaptures.beginRelease (hk : p.KeepsCaptures q) :
    p.KeepsCaptures (q.beginRelease).part := by
  unfold Part.beginRelease
  try simp only [done, refused]
  repeat' first
    | with_reducible exact hk
    | with_reducible apply Part.KeepsCaptures.setRelease
    | split
    | dsimp only

theorem Part.KeepsCaptures.nameReleaseZones (hk : p.KeepsCaptures q) :
    p.KeepsCaptures (q.nameReleaseZones).part := by
  unfold Part.nameReleaseZones
  try simp only [done, refused]
  repeat' first
    | with_reducible exact hk
    | with_reducible apply Part.KeepsCaptures.setRelease
    | with_reducible apply Part.KeepsCaptures.abandonRelease
    | split
    | dsimp only

theorem Part.KeepsCaptures.releaseTimerExpiry (hk : p.KeepsCaptures q) :
    p.KeepsCaptures (q.releaseTimerExpiry) := by
  unfold Part.releaseTimerExpiry
  try dsimp only
  repeat' first
    | with_reducible exact hk
    | with_reducible apply Part.KeepsCaptures.advanceTo
    | with_reducible apply Part.KeepsCaptures.abandonRelease
    | split

theorem Part.KeepsCaptures.clearFault (hk : p.KeepsCaptures q) (n : ChannelId) :
    p.KeepsCaptures (q.clearFault n) := by
  unfold Part.clearFault
  try dsimp only
  repeat' first
    | with_reducible exact hk
    | with_reducible apply Part.KeepsCaptures.leaveFaulted
    | split

theorem Part.KeepsCaptures.lineToRun (hk : p.KeepsCaptures q) (l : LineId) :
    p.KeepsCaptures (q.lineToRun l).part := by
  unfold Part.lineToRun
  try simp only [done, refused]
  repeat' first
    | with_reducible exact hk
    | with_reducible apply Part.KeepsCaptures.enterLine
    | with_reducible apply Part.KeepsCaptures.restartLine
    | split
    | dsimp only

theorem Part.KeepsCaptures.lineToQuiet (hk : p.KeepsCaptures q) (l : LineId) :
    p.KeepsCaptures (q.lineToQuiet l).part := by
  unfold Part.lineToQuiet
  try simp only [done, refused]
  repeat' first
    | with_reducible exact hk
    | with_reducible apply Part.KeepsCaptures.enterLine
    | split
    | dsimp only

theorem Part.KeepsCaptures.lineStateCommand (hk : p.KeepsCaptures q) :
    p.KeepsCaptures (q.lineStateCommand).part := by
  unfold Part.lineStateCommand
  try simp only [done, refused]
  repeat' first
    | with_reducible exact hk
    | with_reducible apply Part.KeepsCaptures.disableLine
    | with_reducible apply Part.KeepsCaptures.lineToRun
    | with_reducible apply Part.KeepsCaptures.lineToQuiet
    | split
    | dsimp only

theorem Part.KeepsCaptures.startTest (hk : p.KeepsCaptures q) (l : LineId) (k : TestKind) (target : BitVec 4) :
    p.KeepsCaptures (q.startTest l k target) := by
  unfold Part.startTest
  try dsimp only
  repeat' first
    | with_reducible exact hk
    | (intro _; rfl)
    | with_reducible apply Part.KeepsCaptures.modLine
    | with_reducible apply Part.KeepsCaptures.modTest
    | with_reducible apply Part.KeepsCaptures.enterLine
    | split
    | (intro _; simp; done)

theorem Part.KeepsCaptures.testStartCommand (hk : p.KeepsCaptures q) :
    p.KeepsCaptures (q.testStartCommand).part := by
  unfold Part.testStartCommand
  try simp only [done, refused]
  repeat' first
    | with_reducible exact hk
    | with_reducible apply Part.KeepsCaptures.startTest
    | split
    | dsimp only

theorem Part.KeepsCaptures.stopTest (hk : p.KeepsCaptures q) (l : LineId) :
    p.KeepsCaptures (q.stopTest l) := by
  unfold Part.stopTest
  try dsimp only
  repeat' first
    | with_reducible exact hk
    | (intro _; rfl)
    | with_reducible apply Part.KeepsCaptures.modTest
    | with_reducible apply Part.KeepsCaptures.enterLine
    | split
    | (intro _; simp; done)

theorem Part.KeepsCaptures.testStopCommand (hk : p.KeepsCaptures q) :
    p.KeepsCaptures (q.testStopCommand).part := by
  unfold Part.testStopCommand
  try simp only [done, refused]
  repeat' first
    | with_reducible exact hk
    | with_reducible apply Part.KeepsCaptures.stopTest
    | split
    | dsimp only

theorem Part.KeepsCaptures.leaveLine (hk : p.KeepsCaptures q) (n : ChannelId) :
    p.KeepsCaptures (q.leaveLine n) := by
  unfold Part.leaveLine
  try dsimp only
  repeat' first
    | with_reducible exact hk
    | (intro _; rfl)
    | with_reducible apply Part.KeepsCaptures.modLine
    | with_reducible apply Part.KeepsCaptures.removeOrder
    | with_reducible apply Part.KeepsCaptures.abandonFor
    | split
    | (intro _; simp; done)

theorem Part.KeepsCaptures.setConfig (hk : p.KeepsCaptures q) (n : ChannelId) (cfg : ChannelConfig) :
    p.KeepsCaptures (q.setConfig n cfg) := by
  unfold Part.setConfig
  try dsimp only
  repeat' first
    | with_reducible exact hk
    | (intro _; exact ⟨rfl, rfl⟩)
    | with_reducible apply Part.KeepsCaptures.modChan
    | split

theorem Part.KeepsCaptures.commitOffline (hk : p.KeepsCaptures q) (n : ChannelId) (cfg : ChannelConfig) :
    p.KeepsCaptures (q.commitOffline n cfg) := by
  unfold Part.commitOffline
  try dsimp only
  repeat' first
    | with_reducible exact hk
    | (intro _; exact ⟨rfl, rfl⟩)
    | with_reducible apply Part.KeepsCaptures.modChan
    | with_reducible apply Part.KeepsCaptures.setMotion
    | with_reducible apply Part.KeepsCaptures.dueAtOnce
    | with_reducible apply Part.KeepsCaptures.setConfig
    | split

theorem Part.KeepsCaptures.commitChannel (hk : p.KeepsCaptures q) (n : ChannelId) (cfg : ChannelConfig) :
    p.KeepsCaptures (q.commitChannel n cfg) := by
  unfold Part.commitChannel
  try dsimp only
  repeat' first
    | with_reducible exact hk
    | (intro _; exact ⟨rfl, rfl⟩)
    | with_reducible apply Part.KeepsCaptures.modChan
    | with_reducible apply Part.KeepsCaptures.record
    | with_reducible apply Part.KeepsCaptures.setMotion
    | with_reducible apply Part.KeepsCaptures.leaveLine
    | with_reducible apply Part.KeepsCaptures.setConfig
    | with_reducible apply Part.KeepsCaptures.commitOffline
    | split

theorem Part.KeepsCaptures.commitExpiry (hk : p.KeepsCaptures q) (n : ChannelId) :
    p.KeepsCaptures (q.commitExpiry n) := by
  unfold Part.commitExpiry
  try dsimp only
  repeat' first
    | with_reducible exact hk
    | with_reducible apply Part.KeepsCaptures.expireTravel
    | split

theorem Part.KeepsCaptures.commitReview (hk : p.KeepsCaptures q) (n : ChannelId) :
    p.KeepsCaptures (q.commitReview n) := by
  unfold Part.commitReview
  try dsimp only
  repeat' first
    | with_reducible exact hk
    | with_reducible apply Part.KeepsCaptures.setMotion
    | with_reducible apply Part.KeepsCaptures.stopTravel
    | with_reducible apply Part.KeepsCaptures.removeOrder
    | with_reducible apply Part.KeepsCaptures.testIdle
    | split

theorem Part.KeepsCaptures.commitWind (hk : p.KeepsCaptures q) (old : GlobalConfig) :
    p.KeepsCaptures (q.commitWind old) := by
  unfold Part.commitWind
  try dsimp only
  repeat' first
    | with_reducible exact hk
    | with_reducible apply Part.KeepsCaptures.setWeather
    | split

theorem Part.KeepsCaptures.commitRain (hk : p.KeepsCaptures q) (old : GlobalConfig) :
    p.KeepsCaptures (q.commitRain old) := by
  unfold Part.commitRain
  try dsimp only
  repeat' first
    | with_reducible exact hk
    | with_reducible apply Part.KeepsCaptures.expireRain
    | split

theorem Part.KeepsCaptures.interrupt (hk : p.KeepsCaptures q) (c : Option CommandCode) :
    p.KeepsCaptures (q.interrupt c) := by
  unfold Part.interrupt
  try dsimp only
  repeat' first
    | with_reducible exact hk
    | with_reducible apply Part.KeepsCaptures.abandonRelease
    | split

theorem Part.KeepsCaptures.endRelease (hk : p.KeepsCaptures q) (changes : List LoopReport) :
    p.KeepsCaptures (q.endRelease changes).part := by
  unfold Part.endRelease
  split
  · exact hk
  · exact hk.abandonRelease
  · exact (hk.setRelease .idle).releaseZones _ _

theorem Part.KeepsCaptures.faultClear (hk : p.KeepsCaptures q) : p.KeepsCaptures q.faultClear.part := by
  unfold Part.faultClear
  split
  · exact hk.forEach _ _ (fun n r => (Part.KeepsCaptures.refl r).clearFault n)
  · exact hk

theorem Part.KeepsCaptures.commitLoops (hk : p.KeepsCaptures q) (words : ConfigWords) :
    p.KeepsCaptures (q.commitLoops words) :=
  (hk.foldl _ (fun r z => (Part.KeepsCaptures.refl r).modZone z _) _).setGa _

theorem Part.KeepsCaptures.commitSupervision (hk : p.KeepsCaptures q) (old : GlobalConfig) :
    p.KeepsCaptures (q.commitSupervision old) := by
  unfold Part.commitSupervision
  split
  · exact hk
  · refine hk.forEach _ _ (fun n r => ?_)
    repeat' first
      | exact .refl r
      | exact (Part.KeepsCaptures.refl r).dueAtOnce n
      | split

theorem Part.KeepsCaptures.commit (hk : p.KeepsCaptures q) : p.KeepsCaptures q.commit := by
  unfold Part.commit
  dsimp only
  refine Part.KeepsCaptures.setCmd ?_ _ ⟨rfl, rfl, id⟩
  refine ((Part.KeepsCaptures.commitLoops ?_ _).commitWind _).commitRain _ |>.commitSupervision _
  refine Part.KeepsCaptures.forEach ?_ _ _ (fun n r => (Part.KeepsCaptures.refl r).commitReview n)
  refine Part.KeepsCaptures.recomputeAll ?_
  refine Part.KeepsCaptures.forEach ?_ _ _ (fun n r => (Part.KeepsCaptures.refl r).commitExpiry n)
  refine Part.KeepsCaptures.setGlobals ?_ _
  exact hk.forEach _ _ (fun n r => (Part.KeepsCaptures.refl r).commitChannel n _)

theorem Part.KeepsCaptures.configCommit (hk : p.KeepsCaptures q) : p.KeepsCaptures q.configCommit.part := by
  unfold Part.configCommit
  split
  · exact hk
  · split
    · exact hk
    · exact hk.commit

theorem Part.KeepsCaptures.decideCommand (hk : p.KeepsCaptures q) (changes : List LoopReport) (c : Option CommandCode) :
    p.KeepsCaptures (q.decideCommand changes c).part := by
  unfold Part.decideCommand
  split
  · exact hk.configCommit
  · exact hk.faultClear
  · exact hk.lineStateCommand
  · exact hk.testStartCommand
  · exact hk.testStopCommand
  · exact hk.beginRelease
  · exact hk.nameReleaseZones
  · exact hk.endRelease changes
  · exact hk

theorem Verdict.conclude_keepsCaptures (v : Verdict) (code : Word) (hk : p.KeepsCaptures v.part) :
    p.KeepsCaptures (v.conclude code) := by
  unfold Verdict.conclude
  refine Part.KeepsCaptures.setCmd ?_ _ ⟨rfl, rfl, fun _ => Nat.mod_lt _ (by decide)⟩
  split
  · exact hk.record _ _
  · exact hk

theorem Part.KeepsCaptures.takeCommand (hk : p.KeepsCaptures q) (code : Word) (changes : List LoopReport) :
    p.KeepsCaptures (q.takeCommand code changes) :=
  Verdict.conclude_keepsCaptures _ _ ((hk.interrupt _).decideCommand _ _)

theorem Part.KeepsCaptures.resetCommandUnit (hk : p.KeepsCaptures q) : p.KeepsCaptures q.resetCommandUnit :=
  hk.setCmd _ ⟨rfl, rfl, fun _ => Nat.zero_lt_succ _⟩

end
end Sys2Proof.Machine
end

