-- ==== Sys2Proof/Laws/Memory.lean ====
section
/-! SUPPORT. The host's memory: every operation keeps its canonical form, and what a byte reads after a write. -/

namespace Sys2Proof.Machine

theorem mem_writeCell {cs : List Host.Cell} {k : Nat} {v : Byte} {c : Host.Cell} (h : c ∈ writeCell cs k v) :
    c = (k, v) ∨ c ∈ cs := by
  induction cs with
  | nil => simpa [writeCell] using h
  | cons a rest ih =>
    obtain ⟨k', v'⟩ := a
    unfold writeCell at h
    split at h
    · simpa using h
    · split at h
      · rcases List.mem_cons.1 h with h | h
        · exact .inl h
        · exact .inr (List.mem_cons_of_mem _ h)
      · rcases List.mem_cons.1 h with h | h
        · exact .inr (h ▸ List.mem_cons_self)
        · rcases ih h with h | h
          · exact .inl h
          · exact .inr (List.mem_cons_of_mem _ h)

theorem writeCell_sorted {cs : List Host.Cell} (h : cs.Pairwise (fun a b => a.1 < b.1)) (k : Nat) (v : Byte) :
    (writeCell cs k v).Pairwise (fun a b => a.1 < b.1) := by
  induction cs with
  | nil => simp [writeCell]
  | cons a rest ih =>
    obtain ⟨k', v'⟩ := a
    have hr := List.pairwise_cons.1 h
    unfold writeCell
    split
    · rename_i lt
      refine List.pairwise_cons.2 ⟨fun c hc => ?_, h⟩
      rcases List.mem_cons.1 hc with e | hc
      · exact e ▸ lt
      · exact Nat.lt_trans lt (hr.1 c hc)
    · split
      · rename_i e
        subst e
        exact List.pairwise_cons.2 ⟨hr.1, hr.2⟩
      · rename_i nlt ne
        refine List.pairwise_cons.2 ⟨fun c hc => ?_, ih hr.2⟩
        rcases mem_writeCell hc with e | hc
        · subst e; show k' < k; omega
        · exact hr.1 c hc

theorem readCell_writeCell (cs : List Host.Cell) (k k' : Nat) (v : Byte) :
    readCell (writeCell cs k v) k' = if k' = k then some v else readCell cs k' := by
  induction cs with
  | nil => simp [writeCell, readCell]
  | cons a rest ih =>
    obtain ⟨a1, a2⟩ := a
    unfold writeCell
    split
    · simp [readCell]
    · split
      · rename_i e
        subst e
        by_cases h : k' = k <;> simp [readCell, h]
      · rename_i ne
        by_cases h : k' = a1
        · subst h
          have : k' ≠ k := fun e => ne e.symm
          simp [readCell, this]
        · simp [readCell, h, ih]

/-- A write inside the address space keeps the canonical form. -/
theorem Memory.write_wf {m : Memory} (h : m.wf) {k : Nat} (hk : k < 2 ^ 21) (v : Byte) : (m.write k v).wf := by
  refine ⟨writeCell_sorted h.1 k v, fun c hc => ?_⟩
  rcases mem_writeCell hc with e | hc
  · rw [e]; exact hk
  · exact h.2 c hc

theorem Memory.read_write (m : Memory) (k k' : Nat) (v : Byte) :
    (m.write k v).read k' = if k' = k then some v else m.read k' := readCell_writeCell _ _ _ _

theorem byteKey_lt (addr : Addr) (lane : Lane) : byteKey addr lane < 2 ^ 21 := by
  have := addr.isLt
  cases lane <;> simp only [byteKey] <;> omega

theorem byteKey_inj {a b : Addr} {x y : Lane} (h : byteKey a x = byteKey b y) : a = b ∧ x = y := by
  cases x <;> cases y <;> simp only [byteKey] at h
  · exact ⟨BitVec.eq_of_toNat_eq (by omega), rfl⟩
  · omega
  · omega
  · exact ⟨BitVec.eq_of_toNat_eq (by omega), rfl⟩

/-- A write cycle keeps the canonical form. -/
theorem Memory.writeWord_wf {m : Memory} (h : m.wf) (addr : Addr) (be : ByteEnables) (w : Word) :
    (m.writeWord addr be w).wf := by
  unfold Memory.writeWord
  dsimp only
  have h1 : (if be.lower then m.write (byteKey addr .lower) (lowerByte w) else m).wf := by
    split
    · exact Memory.write_wf h (byteKey_lt addr .lower) _
    · exact h
  split
  · exact Memory.write_wf h1 (byteKey_lt addr .upper) _
  · exact h1

/-- What a byte reads after a write cycle: the enabled bytes of the word are written and no other. -/
theorem Memory.read_writeWord (m : Memory) (addr : Addr) (be : ByteEnables) (w : Word) (k : Nat) :
    (m.writeWord addr be w).read k =
      if be.upper = true ∧ k = byteKey addr .upper then some (upperByte w)
      else if be.lower = true ∧ k = byteKey addr .lower then some (lowerByte w)
      else m.read k := by
  unfold Memory.writeWord
  have ne : byteKey addr .upper ≠ byteKey addr .lower := by simp [byteKey]
  cases hu : be.upper <;> cases hl : be.lower <;> simp [Memory.read_write]

/-- A byte outside the word is untouched. -/
theorem Memory.read_writeWord_of_ne (m : Memory) (addr : Addr) (be : ByteEnables) (w : Word) {k : Nat}
    (hu : k ≠ byteKey addr .upper) (hl : k ≠ byteKey addr .lower) : (m.writeWord addr be w).read k = m.read k := by
  rw [Memory.read_writeWord]; simp [hu, hl]

@[simp] theorem upperByte_wordOfBytes (u l : Byte) : upperByte (wordOfBytes u l) = u := by
  unfold upperByte wordOfBytes
  apply BitVec.eq_of_getLsbD_eq
  intro i hi
  have h := BitVec.getLsbD_append (x := u) (y := l) (i := 8 + i)
  simp only [BitVec.getLsbD_extractLsb', hi, decide_true, Bool.true_and]
  refine h.trans ?_
  simp

@[simp] theorem lowerByte_wordOfBytes (u l : Byte) : lowerByte (wordOfBytes u l) = l := by
  unfold lowerByte wordOfBytes
  apply BitVec.eq_of_getLsbD_eq
  intro i hi
  have h := BitVec.getLsbD_append (x := u) (y := l) (i := 0 + i)
  simp only [BitVec.getLsbD_extractLsb', hi, decide_true, Bool.true_and]
  refine h.trans ?_
  simp [hi]

@[simp] theorem wordOfBytes_upper_lower (w : Word) : wordOfBytes (upperByte w) (lowerByte w) = w := by
  unfold upperByte lowerByte wordOfBytes
  apply BitVec.eq_of_getLsbD_eq
  intro i hi
  simp only [BitVec.getLsbD_append, BitVec.getLsbD_extractLsb']
  split <;> rename_i h
  · simp [h]
  · simp only [show (i - 8 < 8) by omega, decide_true, Bool.true_and]
    congr 1; omega

/-- A whole-word merge is the host's word (R155). -/
@[simp] theorem merge_wholeWord (data old : Word) : merge wholeWord data old = data := by simp [merge, wholeWord]

/-- The word that stands at an address after a whole-word write (R155, step 4). -/
theorem Bus.wordAt_of_writeWord (b : Bus) (m : Memory) (addr : Addr) (w : Word)
    (h : b.mem = m.writeWord addr wholeWord w) : b.wordAt addr = w := by
  have hu : b.byteAt (byteKey addr .upper) = upperByte w := by
    unfold Bus.byteAt; rw [h, Memory.read_writeWord]; simp [wholeWord]
  have hl : b.byteAt (byteKey addr .lower) = lowerByte w := by
    unfold Bus.byteAt; rw [h, Memory.read_writeWord]; simp [wholeWord, byteKey]
  unfold Bus.wordAt; rw [hu, hl]; simp

end Sys2Proof.Machine
end

