-- ==== Sys2Proof/Laws/Bus.lean ====
section
/-! SUPPORT. The Bus Gate: the end of an event, write-back cycles, the grant and the host accesses: what each leaves as it
was, and the invariants it keeps. -/

namespace Sys2Proof.Machine

/-! ## The record list (R165) -/

theorem mem_allBanks (b : BankId) : b ∈ allBanks := by
  cases b with
  | line l => revert l; decide
  | _ => decide

theorem mem_allRecords (r : RecordId) : r ∈ allRecords := by
  cases r <;> simp [allRecords, mem_allBanks]

theorem nodup_allRecords : allRecords.Nodup := by
  have h : (allRecords.map recordNumber).Nodup := by decide
  exact List.Nodup.of_map _ h

theorem length_allRecords : allRecords.length = 73 := by decide

/-- A list without repetition names at most the 73 records (R161). -/
theorem length_le_of_nodup {l : List RecordId} (h : l.Nodup) : l.length ≤ 73 := by
  rw [← length_allRecords]
  exact (List.subperm_of_subset h (fun r _ => mem_allRecords r)).length_le

/-! ## The end of an event (R134, R161) -/

theorem Part.KeepsGrants.completeQuieting {p q : Part} (hk : p.KeepsGrants q) : p.KeepsGrants q.completeQuieting := by
  refine hk.trans (foldl_keeps Part.KeepsGrants.refl Part.KeepsGrants.trans (fun r l => ?_) _ q)
  split
  · exact (Part.KeepsGrants.refl r).enterLine l _
  · exact .refl r

/-- A loop leaves a channel's record alone if each of its acts does. -/
theorem foldl_eq {α β γ : Type} (g : β → γ) {f : β → α → β} (step : ∀ b a, g (f b a) = g b) (l : List α) (b : β) :
    g (l.foldl f b) = g b := by
  induction l generalizing b with
  | nil => rfl
  | cons a l ih => exact (ih (f b a)).trans (step b a)

@[simp] theorem Part.enterLine_chans (p : Part) (l : LineId) (s : LineState) : (p.enterLine l s).chans = p.chans := rfl

/-- Quieting complete changes no part of the state but the lines and their marks. -/
theorem Part.completeQuieting_chans (p : Part) : p.completeQuieting.chans = p.chans :=
  foldl_eq Part.chans (fun q l => by split <;> simp) _ p
theorem Part.completeQuieting_zones (p : Part) : p.completeQuieting.zones = p.zones :=
  foldl_eq Part.zones (fun q l => by split <;> rfl) _ p
theorem Part.completeQuieting_ga (p : Part) : p.completeQuieting.ga = p.ga :=
  foldl_eq Part.ga (fun q l => by split <;> rfl) _ p
theorem Part.completeQuieting_weather (p : Part) : p.completeQuieting.weather = p.weather :=
  foldl_eq Part.weather (fun q l => by split <;> rfl) _ p
theorem Part.completeQuieting_globals (p : Part) : p.completeQuieting.globals = p.globals :=
  foldl_eq Part.globals (fun q l => by split <;> rfl) _ p
theorem Part.completeQuieting_cmd (p : Part) : p.completeQuieting.cmd = p.cmd :=
  foldl_eq Part.cmd (fun q l => by split <;> rfl) _ p
theorem Part.completeQuieting_banks (p : Part) : p.completeQuieting.banks = p.banks :=
  foldl_eq Part.banks (fun q l => by split <;> rfl) _ p
theorem Part.completeQuieting_notices (p : Part) : p.completeQuieting.notices = p.notices :=
  foldl_eq Part.notices (fun q l => by split <;> rfl) _ p
theorem Part.completeQuieting_noticeAcks (p : Part) : p.completeQuieting.noticeAcks = p.noticeAcks :=
  foldl_eq Part.noticeAcks (fun q l => by split <;> rfl) _ p
theorem Part.completeQuieting_noticesShown (p : Part) : p.completeQuieting.noticesShown = p.noticesShown :=
  foldl_eq Part.noticesShown (fun q l => by split <;> rfl) _ p
theorem Part.completeQuieting_now (p : Part) : p.completeQuieting.now = p.now :=
  foldl_eq Part.now (fun q l => by split <;> rfl) _ p

/-- A line that is not QUIETING is untouched by quieting complete. -/
theorem Part.completeQuieting_line (p : Part) (l : LineId) (h : (p.line l).state ≠ .quieting) :
    p.completeQuieting.line l = p.line l := by
  have step : ∀ (ks : List LineId) (q : Part), q.line l = p.line l →
      (ks.foldl (fun q k => if (q.line k).state = .quieting ∧ q.atRest k then q.enterLine k .quiet else q) q).line l =
        p.line l := by
    intro ks
    induction ks with
    | nil => intro q hq; exact hq
    | cons k ks ih =>
      intro q hq
      rw [List.foldl_cons]
      refine ih _ ?_
      split
      · rename_i hk
        have ne : l ≠ k := by
          intro e; subst e; rw [hq] at hk; exact h hk.1
        unfold Part.enterLine
        rw [Part.line_modLine, if_neg ne, hq]
      · exact hq
  exact step _ p rfl

theorem Part.atRest_congr {p q : Part} {l : LineId} (hl : q.line l = p.line l) (hc : q.chans = p.chans) :
    q.atRest l = p.atRest l := by
  have hf : ∀ n, q.chan n = p.chan n := fun n => by unfold Part.chan; rw [hc]
  simp only [Part.atRest, Part.boundChannels, hl, hf]

/-- Each line after quieting complete: one in QUIETING and at rest enters QUIET, and every other is as it was (R134). -/
theorem Part.line_completeQuieting (p : Part) (l : LineId) :
    p.completeQuieting.line l =
      if (p.line l).state = .quieting ∧ p.atRest l then (p.line l).enter p.now .quiet else p.line l := by
  have step : ∀ (ks : List LineId), ks.Nodup → ∀ q : Part,
      (ks.foldl (fun q k => if (q.line k).state = .quieting ∧ q.atRest k then q.enterLine k .quiet else q) q).line l =
        if l ∈ ks ∧ (q.line l).state = .quieting ∧ q.atRest l then (q.line l).enter q.now .quiet else q.line l := by
    intro ks
    induction ks with
    | nil => intro _ q; simp
    | cons k ks ih =>
      intro hn q
      rw [List.foldl_cons, ih (List.nodup_cons.mp hn).2]
      by_cases hk : l = k
      · subst hk
        have hm := (List.nodup_cons.mp hn).1
        simp only [hm, false_and, if_false, List.mem_cons, true_or, true_and]
        split
        · unfold Part.enterLine; rw [Part.line_modLine, if_pos rfl]
        · rfl
      · have h1 : (if (q.line k).state = .quieting ∧ q.atRest k then q.enterLine k .quiet else q).line l = q.line l := by
          split
          · unfold Part.enterLine; rw [Part.line_modLine, if_neg hk]
          · rfl
        have h2 : (if (q.line k).state = .quieting ∧ q.atRest k then q.enterLine k .quiet else q).chans = q.chans := by
          split <;> simp
        have h3 : (if (q.line k).state = .quieting ∧ q.atRest k then q.enterLine k .quiet else q).now = q.now := by
          split <;> rfl
        rw [Part.atRest_congr h1 h2, h1, h3]
        simp only [List.mem_cons, hk, false_or]
  have := step (List.finRange 4) (List.nodup_finRange 4) p
  simpa only [List.mem_finRange, true_and, Part.completeQuieting] using this

/-- A line that is not at rest is untouched by quieting complete. -/
theorem Part.completeQuieting_line_busy (p : Part) (l : LineId) (h : p.atRest l = false) :
    p.completeQuieting.line l = p.line l := by
  rw [Part.line_completeQuieting]; simp [h]

/-- Quieting complete leaves no line at rest in QUIETING. -/
theorem Part.completeQuieting_restless (p : Part) (l : LineId) (h : (p.completeQuieting.line l).state = .quieting) :
    p.completeQuieting.atRest l = false := by
  rw [Part.line_completeQuieting] at h
  by_cases hq : (p.line l).state = .quieting ∧ p.atRest l = true
  · rw [if_pos hq] at h; simp [Line.enter] at h
  · rw [if_neg hq] at h
    have hr : p.atRest l = false := by
      cases ha : p.atRest l with
      | false => rfl
      | true => exact absurd ⟨h, ha⟩ hq
    rw [Part.atRest_congr (Part.completeQuieting_line_busy p l hr) (Part.completeQuieting_chans p), hr]

/-- A line with an exchange in flight is not at rest. -/
theorem Part.atRest_of_exchange {p : Part} {l : LineId} {e : Exchange} (h : (p.line l).exchange = some e) :
    p.atRest l = false := by simp [Part.atRest, h]

/-- What quieting complete leaves of a line, whatever its state: all but its state, clock, window and retake. -/
theorem Part.completeQuieting_line_fields (p : Part) (l : LineId) :
    let x := p.line l
    let y := p.completeQuieting.line l
    y.urgent = x.urgent ∧ y.routine = x.routine ∧ y.exchange = x.exchange ∧ y.pollPos = x.pollPos ∧ y.supPos = x.supPos ∧
      y.answer = x.answer ∧ y.freeAt = x.freeAt ∧ y.receiving = x.receiving ∧ y.wire = x.wire ∧ y.test = x.test := by
  intro x y
  have hy : y = _ := Part.line_completeQuieting p l
  rw [hy]; split <;> exact ⟨rfl, rfl, rfl, rfl, rfl, rfl, rfl, rfl, rfl, rfl⟩

/-- R167: the GATE bank takes the error, and every word the part writes of its record is dirty. -/
theorem Part.recordAtGate_bank (p : Part) (kind : ErrorKind) (subject : Subject) (b : BankId) :
    (p.recordAtGate kind subject).bank b = (p.record .gate (noticeOf kind (some subject) none)).bank b := rfl
theorem Part.recordAtGate_dirtyOf (p : Part) (kind : ErrorKind) (subject : Subject) :
    (p.recordAtGate kind subject).dirtyOf (.bank .gate) =
      (p.record .gate (noticeOf kind (some subject) none)).dirtyOf (.bank .gate) ||| ownedMask (.bank .gate) := by
  simp [Part.recordAtGate, Part.dirtyOf, Part.mark]

/-- Its notice marks no other record. -/
theorem Part.recordAtGate_dirtyOf_of_ne (p : Part) (kind : ErrorKind) (subject : Subject) {r : RecordId}
    (h : r ≠ .bank .gate) : (p.recordAtGate kind subject).dirtyOf r = p.dirtyOf r := by
  unfold Part.recordAtGate Part.record Part.setBank
  rw [Part.dirtyOf_mark, if_neg h, Part.dirtyOf_mark, if_neg h]
  rfl

theorem testChanges_self (t : LineTest) : testChanges t t = 0 := by simp [testChanges, wordBit]

/-- A line that enters a state marks its own line record at most. -/
theorem Part.enterLine_dirtyOf_of_ne (p : Part) (l : LineId) (x : LineState) {r : RecordId} (h : r ≠ .line l) :
    (p.enterLine l x).dirtyOf r = p.dirtyOf r := by
  have ht : testChanges (p.line l).test ((p.line l).enter p.now x).test = 0 := testChanges_self _
  unfold Part.enterLine Part.modLine Part.setLine
  rw [Part.dirtyOf_mark, ht, Part.dirtyOf_mark, if_neg h]
  split
  · exact BitVec.or_zero
  · rfl

/-- Quieting complete marks no record but the line records of lines in QUIETING. -/
theorem Part.completeQuieting_dirtyOf (p : Part) (r : RecordId)
    (h : ∀ k : LineId, r = .line k → (p.line k).state ≠ .quieting) : p.completeQuieting.dirtyOf r = p.dirtyOf r := by
  have step : ∀ (ks : List LineId) (q : Part), (∀ k : LineId, r = .line k → (q.line k).state ≠ .quieting) →
      (ks.foldl (fun q k => if (q.line k).state = .quieting ∧ q.atRest k then q.enterLine k .quiet else q) q).dirtyOf r =
        q.dirtyOf r := by
    intro ks
    induction ks with
    | nil => intro q _; rfl
    | cons k ks ih =>
      intro q hq
      rw [List.foldl_cons]
      split
      · rename_i hk
        have ne : r ≠ .line k := fun e => hq k e hk.1
        rw [ih _ ?_, Part.enterLine_dirtyOf_of_ne q k .quiet ne]
        intro j hj
        have hjk : j ≠ k := fun e => ne (e ▸ hj)
        unfold Part.enterLine
        rw [Part.line_modLine, if_neg hjk]
        exact hq j hj
      · exact ih q hq
  exact step _ p h

theorem State.settle_part (s : State) : s.settle.part = s.part.completeQuieting := by simp only [State.settle]
theorem State.settle_list (s : State) :
    s.settle.bus.list = s.bus.list ++ newEntries s.part.completeQuieting s.bus.list := by simp only [State.settle]

section
variable (s : State) (act : Part → Part)

/-- The part after an event is the act's result with quieting complete taken. -/
theorem State.event_part : (s.event act).part = (act s.part).completeQuieting := by
  simp only [State.event, State.settle]
@[simp] theorem State.event_pending : (s.event act).pending = s.pending := by
  simp only [State.event, State.settle]
@[simp] theorem State.event_mem : (s.event act).bus.mem = s.bus.mem := by
  simp only [State.event, State.settle]
@[simp] theorem State.event_straps : (s.event act).bus.straps = s.bus.straps := by
  simp only [State.event, State.settle]
@[simp] theorem State.event_powerOns : (s.event act).bus.powerOns = s.bus.powerOns := by
  simp only [State.event, State.settle]
/-- A snapshot taken stands through an event; where there was none the head of the list is begun (R162). -/
theorem State.event_snapshot :
    (s.event act).bus.snapshot = s.bus.snapshot.or ((s.event act).bus.list.head?.map (s.event act).part.dirtyOf) := by
  simp only [State.event, State.settle, beginHead]
@[simp] theorem State.event_lastCycle : (s.event act).bus.lastCycle = s.bus.lastCycle := by
  simp only [State.event, State.settle]
@[simp] theorem State.event_pass : (s.event act).bus.pass = s.bus.pass := by
  simp only [State.event, State.settle]
@[simp] theorem State.event_rstn : (s.event act).bus.rstn = s.bus.rstn := by
  simp only [State.event, State.settle]
@[simp] theorem State.event_readData : (s.event act).bus.readData = s.bus.readData := by
  simp only [State.event, State.settle]
@[simp] theorem State.event_waited : (s.event act).bus.waited = s.bus.waited := by
  simp only [State.event, State.settle]

@[simp] theorem State.event_chan (n : ChannelId) : (s.event act).part.chan n = (act s.part).chan n := by
  unfold Part.chan; rw [State.event_part]; simp [Part.completeQuieting_chans]
@[simp] theorem State.event_zone (z : ZoneId) : (s.event act).part.zone z = (act s.part).zone z := by
  unfold Part.zone; rw [State.event_part]; simp [Part.completeQuieting_zones]
@[simp] theorem State.event_ga : (s.event act).part.ga = (act s.part).ga := by
  rw [State.event_part, Part.completeQuieting_ga]
@[simp] theorem State.event_weather : (s.event act).part.weather = (act s.part).weather := by
  rw [State.event_part, Part.completeQuieting_weather]
@[simp] theorem State.event_globals : (s.event act).part.globals = (act s.part).globals := by
  rw [State.event_part, Part.completeQuieting_globals]
@[simp] theorem State.event_cmd : (s.event act).part.cmd = (act s.part).cmd := by
  rw [State.event_part, Part.completeQuieting_cmd]
@[simp] theorem State.event_bank (b : BankId) : (s.event act).part.bank b = (act s.part).bank b := by
  unfold Part.bank; rw [State.event_part]; simp [Part.completeQuieting_banks]
@[simp] theorem State.event_notices : (s.event act).part.notices = (act s.part).notices := by
  rw [State.event_part, Part.completeQuieting_notices]
@[simp] theorem State.event_noticeAcks : (s.event act).part.noticeAcks = (act s.part).noticeAcks := by
  rw [State.event_part, Part.completeQuieting_noticeAcks]
@[simp] theorem State.event_now : (s.event act).part.now = (act s.part).now := by
  rw [State.event_part, Part.completeQuieting_now]
theorem State.event_line (l : LineId) (h : ((act s.part).line l).state ≠ .quieting) :
    (s.event act).part.line l = (act s.part).line l := by
  rw [State.event_part, Part.completeQuieting_line _ _ h]

/-- An event touches nothing of the Bus Gate but the tail of the list. -/
theorem State.event_bus : s.bus.OnlyListGrows (s.event act).bus := by
  refine ⟨rfl, rfl, rfl, ⟨_, rfl⟩, fun m h => ?_, rfl, rfl, rfl, rfl, rfl⟩
  rw [State.event_snapshot, h]; rfl

/-- An event of the part leaves the queue, and the Bus Gate but for the list and the begun head. -/
theorem State.event_only : s.EventOnly (s.event act) where
  bus := s.event_bus act
  begun h := by rw [State.event_snapshot, h]; rfl
  queue := s.event_pending act

/-- An event keeps what its act keeps. -/
theorem State.event_keepsGrants (h : s.part.KeepsGrants (act s.part)) : s.part.KeepsGrants (s.event act).part := by
  rw [State.event_part]; exact h.completeQuieting

theorem State.event_keepsCaptures (h : s.part.KeepsCaptures (act s.part)) : s.part.KeepsCaptures (s.event act).part := by
  rw [State.event_part]; exact h.trans ((Part.KeepsGrants.refl _).completeQuieting).captures

end

/-- A head is begun exactly where the list is not empty (R162). -/
theorem beginHead_eq_none (p : Part) (list : List RecordId) : beginHead p list = none ↔ list = [] := by
  cases list <;> simp [beginHead]

/-- R161, R162: after an event the list covers the dirty records and its head is begun, whatever the event did. -/
theorem State.settle_listCovers (s : State) (h : s.bus.list.Nodup) (hb : s.bus.snapshot = none ↔ s.bus.list = []) :
    s.settle.listCovers where
  begun := by
    show s.bus.snapshot.or (beginHead _ _) = none ↔ _
    rw [Option.or_eq_none_iff, beginHead_eq_none, hb, State.settle_list]
    constructor
    · exact fun k => k.2
    · exact fun k => ⟨(List.append_eq_nil_iff.1 k).1, k⟩
  nodup := by
    rw [State.settle_list]
    refine List.Nodup.append h (nodup_allRecords.filter _) ?_
    intro r hr hn
    have := (List.mem_filter.1 hn).2
    simp [hr] at this
  covers := by
    intro r hr
    rw [State.settle_list]
    rw [State.settle_part] at hr
    by_cases hm : r ∈ s.bus.list
    · exact List.mem_append_left _ hm
    · refine List.mem_append_right _ (List.mem_filter.2 ⟨mem_allRecords r, ?_⟩)
      simp [hm]
      exact hr

theorem State.event_listCovers (s : State) (act : Part → Part) (h : s.bus.list.Nodup)
    (hb : s.bus.snapshot = none ↔ s.bus.list = []) : (s.event act).listCovers := by
  unfold State.event
  exact State.settle_listCovers _ h hb

/-! ## Shown marks leave no dirty mark -/

@[simp] theorem Part.mark_zero_dirtyOf (p : Part) (r q : RecordId) : (p.mark r 0).dirtyOf q = p.dirtyOf q := by
  rw [Part.dirtyOf_mark]; split <;> simp

theorem bankChanges_shown (x : Bank) (r t : Bool) : bankChanges x { x with recordShown := r, thresholdShown := t } = 0 := by
  simp [bankChanges, wordBit]

theorem Part.setBank_shown_dirtyOf (p : Part) (b : BankId) (r t : Bool) (q : RecordId) :
    (p.setBank b { p.bank b with recordShown := r, thresholdShown := t }).dirtyOf q = p.dirtyOf q := by
  unfold Part.setBank
  rw [bankChanges_shown]
  exact Part.mark_zero_dirtyOf _ _ _

@[simp] theorem Part.showItems_dirtyOf (p : Part) (r q : RecordId) : (p.showItems r).dirtyOf q = p.dirtyOf q := by
  unfold Part.showItems
  split
  · dsimp only
    split
    · exact p.setBank_shown_dirtyOf _ _ _ q
    · rfl
  · split <;> rfl
  all_goals rfl

theorem Part.showItems_other (p : Part) (r : RecordId) :
    (p.showItems r).chans = p.chans ∧ (p.showItems r).zones = p.zones ∧ (p.showItems r).ga = p.ga ∧
      (p.showItems r).lines = p.lines ∧ (p.showItems r).weather = p.weather ∧ (p.showItems r).globals = p.globals ∧
      (p.showItems r).cmd = p.cmd ∧ (p.showItems r).notices = p.notices ∧ (p.showItems r).noticeAcks = p.noticeAcks ∧
      (p.showItems r).now = p.now := by
  unfold Part.showItems
  split
  · dsimp only
    split <;> simp
  · split <;> simp
  all_goals simp

/-! ## A write-back cycle (R162) -/

theorem dropWord_ne_zero {m : BitVec 8} {k : Fin 8} (h : dropWord m k ≠ 0) : m ≠ 0 := by
  intro e
  exact h (by simp [e, dropWord])

@[simp] theorem State.writeWordBack_dirtyOf (s : State) (r q : RecordId) (k : Fin 8) :
    (s.writeWordBack r k).part.dirtyOf q = if q = r then dropWord (s.part.dirtyOf r) k else s.part.dirtyOf q := by
  unfold State.writeWordBack Part.dirtyOf
  by_cases h : q = r
  · subst h; simp
  · have : (recordIndex r).val ≠ (recordIndex q).val := fun e => h (recordNumber_injective q r e.symm)
    simp [h, this]

theorem State.writeWordBack_list (s : State) (r : RecordId) (k : Fin 8) :
    (s.writeWordBack r k).bus.list = s.bus.list := rfl

theorem State.endSnapshot_listCovers {s : State} {r : RecordId} {rest : List RecordId} (hs : s.bus.list = r :: rest)
    (h : s.listCovers) : (s.endSnapshot r rest).listCovers := by
  have nd := h.nodup
  rw [hs] at nd
  have nd' := List.nodup_cons.1 nd
  constructor
  · show (if s.part.dirtyOf r = 0 then rest else rest ++ [r]).Nodup
    split
    · exact nd'.2
    · refine List.Nodup.append nd'.2 (by simp) ?_
      intro q hq hr
      simp at hr
      exact nd'.1 (hr ▸ hq)
  · intro q hq
    have hq' : s.part.dirtyOf q ≠ 0 := by
      have e : (s.endSnapshot r rest).part.dirtyOf q = s.part.dirtyOf q := Part.showItems_dirtyOf _ _ _
      rw [← e]; exact hq
    have hm := h.covers q hq'
    rw [hs] at hm
    show q ∈ (if s.part.dirtyOf r = 0 then rest else rest ++ [r])
    rcases List.mem_cons.1 hm with e | hm
    · subst e; rw [if_neg hq']; simp
    · split
      · exact hm
      · exact List.mem_append_left _ hm
  · exact beginHead_eq_none _ _

theorem State.writeWordBack_listCovers {s : State} (h : s.listCovers) (r : RecordId) (k : Fin 8) :
    (s.writeWordBack r k).listCovers where
  nodup := h.nodup
  begun := h.begun
  covers := by
    intro q hq
    refine h.covers q ?_
    rw [State.writeWordBack_dirtyOf] at hq
    split at hq
    · rename_i e; subst e; exact dropWord_ne_zero hq
    · exact hq

/-- R161, R162: a write-back cycle keeps the list free of repetition and covering every dirty record. -/
theorem State.writeBackCycle_listCovers {s : State} (h : s.listCovers) : s.writeBackCycle.listCovers := by
  unfold State.writeBackCycle
  split
  · exact h
  · rename_i r rest hl
    split
    · rename_i k _
      dsimp only
      have h1 := State.writeWordBack_listCovers h r k
      split
      · exact State.endSnapshot_listCovers hl h1
      · refine ⟨h1.nodup, h1.covers, ?_⟩
        show some _ = none ↔ s.bus.list = []
        rw [hl]; simp
    · exact State.endSnapshot_listCovers hl h

/-- A write-back cycle keeps the memory canonical. -/
theorem State.writeBackCycle_wf {s : State} (h : s.bus.mem.wf) : s.writeBackCycle.bus.mem.wf := by
  unfold State.writeBackCycle
  split
  · exact h
  · split
    · dsimp only
      split <;> exact Memory.writeWord_wf h _ _ _
    · exact h

/-- A write-back cycle changes nothing of the part but dirty marks and shown marks. -/
theorem State.writeBackCycle_part (s : State) :
    s.writeBackCycle.part.chans = s.part.chans ∧ s.writeBackCycle.part.zones = s.part.zones ∧
      s.writeBackCycle.part.ga = s.part.ga ∧ s.writeBackCycle.part.lines = s.part.lines ∧
      s.writeBackCycle.part.weather = s.part.weather ∧ s.writeBackCycle.part.globals = s.part.globals ∧
      s.writeBackCycle.part.cmd = s.part.cmd ∧ s.writeBackCycle.part.notices = s.part.notices ∧
      s.writeBackCycle.part.noticeAcks = s.part.noticeAcks ∧ s.writeBackCycle.part.now = s.part.now := by
  unfold State.writeBackCycle
  split
  · simp
  · split
    · dsimp only
      split
      · exact Part.showItems_other _ _
      · simp [State.writeWordBack]
    · exact Part.showItems_other _ _

/-- The straps, RSTN, the queue and the number of power-ons stand through a write-back cycle. -/
theorem State.writeBackCycle_bus (s : State) :
    s.writeBackCycle.bus.straps = s.bus.straps ∧ s.writeBackCycle.bus.rstn = s.bus.rstn ∧
      s.writeBackCycle.bus.powerOns = s.bus.powerOns ∧ s.writeBackCycle.bus.readData = s.bus.readData ∧
      s.writeBackCycle.pending = s.pending := by
  unfold State.writeBackCycle
  split
  · simp
  · split
    · dsimp only
      split <;> simp [State.writeWordBack, State.endSnapshot]
    · simp [State.endSnapshot]

/-! ## The grant (R163, R164) -/

/-- A grant runs at most one write-back cycle. -/
theorem State.grant_cases (s : State) :
    (s.contested = false ∧ s.grant = { s with bus := { s.bus with waited := false, lastCycle := .host } }) ∨
      (s.contested = true ∧
        s.grant = { s.writeBackCycle with bus := { s.writeBackCycle.bus with waited := true, lastCycle := .host } }) := by
  unfold State.grant
  cases h : s.contested <;> simp

theorem State.grant_listCovers {s : State} (h : s.listCovers) : s.grant.listCovers := by
  rcases s.grant_cases with ⟨_, e⟩ | ⟨_, e⟩
  · rw [e]; exact ⟨h.nodup, h.covers, h.begun⟩
  · have k := State.writeBackCycle_listCovers h
    rw [e]; exact ⟨k.nodup, k.covers, k.begun⟩

theorem State.grant_wf {s : State} (h : s.bus.mem.wf) : s.grant.bus.mem.wf := by
  rcases s.grant_cases with ⟨_, e⟩ | ⟨_, e⟩
  · rw [e]; exact h
  · rw [e]; exact State.writeBackCycle_wf h

/-- A grant changes nothing of the part but dirty marks and shown marks. -/
theorem State.grant_part (s : State) :
    s.grant.part.chans = s.part.chans ∧ s.grant.part.zones = s.part.zones ∧ s.grant.part.ga = s.part.ga ∧
      s.grant.part.lines = s.part.lines ∧ s.grant.part.weather = s.part.weather ∧
      s.grant.part.globals = s.part.globals ∧ s.grant.part.cmd = s.part.cmd ∧
      s.grant.part.notices = s.part.notices ∧ s.grant.part.noticeAcks = s.part.noticeAcks ∧
      s.grant.part.now = s.part.now := by
  rcases s.grant_cases with ⟨_, e⟩ | ⟨_, e⟩
  · rw [e]; simp
  · rw [e]; exact s.writeBackCycle_part

theorem State.grant_bus (s : State) :
    s.grant.bus.straps = s.bus.straps ∧ s.grant.bus.rstn = s.bus.rstn ∧ s.grant.bus.powerOns = s.bus.powerOns ∧
      s.grant.bus.readData = s.bus.readData ∧ s.grant.pending = s.pending ∧ s.grant.bus.lastCycle = .host := by
  rcases s.grant_cases with ⟨_, e⟩ | ⟨_, e⟩
  · rw [e]; simp
  · rw [e]
    have h := s.writeBackCycle_bus
    exact ⟨h.1, h.2.1, h.2.2.1, h.2.2.2.1, h.2.2.2.2, rfl⟩

@[simp] theorem State.grant_chan (s : State) (n : ChannelId) : s.grant.part.chan n = s.part.chan n := by
  unfold Part.chan; simp [s.grant_part.1]
@[simp] theorem State.grant_zone (s : State) (z : ZoneId) : s.grant.part.zone z = s.part.zone z := by
  unfold Part.zone; simp [s.grant_part.2.1]
@[simp] theorem State.grant_line (s : State) (l : LineId) : s.grant.part.line l = s.part.line l := by
  unfold Part.line; simp [s.grant_part.2.2.2.1]
@[simp] theorem State.grant_cmd (s : State) : s.grant.part.cmd = s.part.cmd := s.grant_part.2.2.2.2.2.2.1
@[simp] theorem State.grant_straps (s : State) : s.grant.bus.straps = s.bus.straps := s.grant_bus.1
@[simp] theorem State.grant_pending (s : State) : s.grant.pending = s.pending := s.grant_bus.2.2.2.2.1

end Sys2Proof.Machine
end

