-- ==== Sys2Proof/Laws/Arbiter.lean ====
section
/-! SUPPORT. The Motion Unit's operations for one channel leave the records of the others alone; a recomputation gives its
channel the result of the governing order and leaves the others alone (R33, R100). -/

set_option linter.unusedTactic false
set_option linter.unreachableTactic false

namespace Sys2Proof.Machine

/-- Only one channel's record may differ. -/
def Part.OnlyChan (n : ChannelId) (p q : Part) : Prop := ∀ m : ChannelId, m ≠ n → q.chan m = p.chan m

section
variable {p q : Part} {n : ChannelId}

theorem Part.OnlyChan.refl (p : Part) : p.OnlyChan n p := fun _ _ => rfl

theorem Part.OnlyChan.trans {r : Part} (h : p.OnlyChan n q) (k : q.OnlyChan n r) : p.OnlyChan n r :=
  fun m hm => (k m hm).trans (h m hm)

theorem Part.OnlyChan.modChan (hk : p.OnlyChan n q) (f : Channel → Channel) : p.OnlyChan n (q.modChan n f) :=
  fun m hm => by rw [Part.chan_modChan, if_neg hm]; exact hk m hm

theorem Part.OnlyChan.modLine (hk : p.OnlyChan n q) (l : LineId) (f : Line → Line) : p.OnlyChan n (q.modLine l f) :=
  fun m hm => hk m hm

theorem Part.OnlyChan.modTest (hk : p.OnlyChan n q) (l : LineId) (f : LineTest → LineTest) :
    p.OnlyChan n (q.modTest l f) := fun m hm => hk m hm

theorem Part.OnlyChan.record (hk : p.OnlyChan n q) (b : BankId) (e : ErrorRecord) : p.OnlyChan n (q.record b e) :=
  fun m hm => hk m hm

theorem Part.OnlyChan.recordFaulted (hk : p.OnlyChan n q) (k : ChannelId) (f : FaultCode) :
    p.OnlyChan n (q.recordFaulted k f) := fun m hm => hk m hm

theorem Part.OnlyChan.recordOffline (hk : p.OnlyChan n q) (k : ChannelId) : p.OnlyChan n (q.recordOffline k) :=
  fun m hm => hk m hm

theorem Part.OnlyChan.joinNotices (hk : p.OnlyChan n q) (k : ChannelId) : p.OnlyChan n (q.joinNotices k) :=
  fun m hm => hk m hm

theorem Part.OnlyChan.advanceTo (hk : p.OnlyChan n q) (t : Nat) : p.OnlyChan n (q.advanceTo t) :=
  fun m hm => hk m hm

theorem Part.OnlyChan.setMotion (hk : p.OnlyChan n q) (m : Motion) : p.OnlyChan n (q.setMotion n m) := by
  unfold Part.setMotion
  try dsimp only
  repeat' first
    | with_reducible exact hk
    | with_reducible apply Part.OnlyChan.modChan
    | split

theorem Part.OnlyChan.stopTravel (hk : p.OnlyChan n q) : p.OnlyChan n (q.stopTravel n) := by
  unfold Part.stopTravel
  try dsimp only
  repeat' first
    | with_reducible exact hk
    | with_reducible apply Part.OnlyChan.modChan
    | split

theorem Part.OnlyChan.removeOrder (hk : p.OnlyChan n q) : p.OnlyChan n (q.removeOrder n) := by
  unfold Part.removeOrder
  try dsimp only
  repeat' first
    | with_reducible exact hk
    | with_reducible apply Part.OnlyChan.modLine
    | split

theorem Part.OnlyChan.joinOrder (hk : p.OnlyChan n q) (target : Nat) : p.OnlyChan n (q.joinOrder n target) := by
  unfold Part.joinOrder
  try dsimp only
  repeat' first
    | with_reducible exact hk
    | with_reducible apply Part.OnlyChan.modLine
    | split

theorem Part.OnlyChan.testIdle (hk : p.OnlyChan n q) : p.OnlyChan n (q.testIdle n) := by
  unfold Part.testIdle
  try dsimp only
  repeat' first
    | with_reducible exact hk
    | with_reducible apply Part.OnlyChan.setMotion
    | with_reducible apply Part.OnlyChan.joinOrder
    | split

theorem Part.OnlyChan.supersede (hk : p.OnlyChan n q) (target : Nat) : p.OnlyChan n (q.supersede n target) := by
  unfold Part.supersede
  try dsimp only
  repeat' first
    | with_reducible exact hk
    | with_reducible apply Part.OnlyChan.modLine
    | with_reducible apply Part.OnlyChan.removeOrder
    | with_reducible apply Part.OnlyChan.joinOrder
    | split

theorem Part.OnlyChan.notice (hk : p.OnlyChan n q) : p.OnlyChan n (q.notice n) := by
  unfold Part.notice
  try dsimp only
  repeat' first
    | with_reducible exact hk
    | with_reducible apply Part.OnlyChan.modChan
    | with_reducible apply Part.OnlyChan.modLine
    | with_reducible apply Part.OnlyChan.setMotion
    | with_reducible apply Part.OnlyChan.removeOrder
    | with_reducible apply Part.OnlyChan.testIdle
    | with_reducible apply Part.OnlyChan.supersede
    | split

theorem Part.OnlyChan.dropWork (hk : p.OnlyChan n q) : p.OnlyChan n (q.dropWork n) := by
  unfold Part.dropWork
  try dsimp only
  repeat' first
    | with_reducible exact hk
    | with_reducible apply Part.OnlyChan.modChan
    | with_reducible apply Part.OnlyChan.removeOrder
    | split

theorem Part.OnlyChan.enterFaulted (hk : p.OnlyChan n q) (f : FaultCode) : p.OnlyChan n (q.enterFaulted n f) := by
  unfold Part.enterFaulted
  try dsimp only
  repeat' first
    | with_reducible exact hk
    | with_reducible apply Part.OnlyChan.modChan
    | with_reducible apply Part.OnlyChan.recordFaulted
    | with_reducible apply Part.OnlyChan.setMotion
    | split

theorem Part.OnlyChan.faultChannel (hk : p.OnlyChan n q) (f : FaultCode) : p.OnlyChan n (q.faultChannel n f) := by
  unfold Part.faultChannel
  try dsimp only
  repeat' first
    | with_reducible exact hk
    | with_reducible apply Part.OnlyChan.dropWork
    | with_reducible apply Part.OnlyChan.enterFaulted
    | split

theorem Part.OnlyChan.forgetPosition (hk : p.OnlyChan n q) : p.OnlyChan n (q.forgetPosition n) := by
  unfold Part.forgetPosition
  try dsimp only
  repeat' first
    | with_reducible exact hk
    | with_reducible apply Part.OnlyChan.modChan
    | split

theorem Part.OnlyChan.goOffline (hk : p.OnlyChan n q) : p.OnlyChan n (q.goOffline n) := by
  unfold Part.goOffline
  try dsimp only
  repeat' first
    | with_reducible exact hk
    | with_reducible apply Part.OnlyChan.recordOffline
    | with_reducible apply Part.OnlyChan.setMotion
    | with_reducible apply Part.OnlyChan.dropWork
    | with_reducible apply Part.OnlyChan.forgetPosition
    | split

theorem Part.OnlyChan.leaveFaulted (hk : p.OnlyChan n q) : p.OnlyChan n (q.leaveFaulted n) := by
  unfold Part.leaveFaulted
  try dsimp only
  repeat' first
    | with_reducible exact hk
    | with_reducible apply Part.OnlyChan.modChan
    | with_reducible apply Part.OnlyChan.recordOffline
    | with_reducible apply Part.OnlyChan.setMotion
    | with_reducible apply Part.OnlyChan.testIdle
    | with_reducible apply Part.OnlyChan.forgetPosition
    | split

theorem Part.OnlyChan.settleAttempt (l : LineId) (o : Order) (hk : p.OnlyChan o.channel q) : p.OnlyChan o.channel (q.settleAttempt l o) := by
  unfold Part.settleAttempt
  try dsimp only
  repeat' first
    | with_reducible exact hk
    | with_reducible apply Part.OnlyChan.modLine
    | with_reducible apply Part.OnlyChan.setMotion
    | with_reducible apply Part.OnlyChan.stopTravel
    | split

theorem Part.OnlyChan.orderFailed (l : LineId) (o : Order) (f : Failure) (hk : p.OnlyChan o.channel q) : p.OnlyChan o.channel (q.orderFailed l o f) := by
  unfold Part.orderFailed
  try dsimp only
  repeat' first
    | with_reducible exact hk
    | with_reducible apply Part.OnlyChan.enterFaulted
    | with_reducible apply Part.OnlyChan.faultChannel
    | exact Part.OnlyChan.settleAttempt l o hk
    | exact Part.OnlyChan.settleAttempt l { o with retriesLeft := o.retriesLeft - 1 } hk
    | split

theorem Part.OnlyChan.queryMissed (hk : p.OnlyChan n q) : p.OnlyChan n (q.queryMissed n) := by
  unfold Part.queryMissed
  try dsimp only
  repeat' first
    | with_reducible exact hk
    | with_reducible apply Part.OnlyChan.modChan
    | with_reducible apply Part.OnlyChan.forgetPosition
    | with_reducible apply Part.OnlyChan.goOffline
    | split

theorem Part.OnlyChan.clearMiss (hk : p.OnlyChan n q) : p.OnlyChan n (q.clearMiss n) := by
  unfold Part.clearMiss
  try dsimp only
  repeat' first
    | with_reducible exact hk
    | with_reducible apply Part.OnlyChan.modChan
    | split

theorem Part.OnlyChan.orderAccepted (o : Order) (hk : p.OnlyChan o.channel q) : p.OnlyChan o.channel (q.orderAccepted o) := by
  unfold Part.orderAccepted
  try dsimp only
  repeat' first
    | with_reducible exact hk
    | with_reducible apply Part.OnlyChan.modChan
    | with_reducible apply Part.OnlyChan.setMotion
    | with_reducible apply Part.OnlyChan.enterFaulted
    | with_reducible apply Part.OnlyChan.clearMiss
    | split

theorem Part.OnlyChan.orderBusy (l : LineId) (o : Order) (hk : p.OnlyChan o.channel q) : p.OnlyChan o.channel (q.orderBusy l o) := by
  unfold Part.orderBusy
  try dsimp only
  repeat' first
    | with_reducible exact hk
    | with_reducible apply Part.OnlyChan.clearMiss
    | exact Part.OnlyChan.settleAttempt l { o with backoff := some q.now } (Part.OnlyChan.clearMiss hk)
    | split

theorem Part.OnlyChan.orderRefused (o : Order) (reason : Byte) (hk : p.OnlyChan o.channel q) : p.OnlyChan o.channel (q.orderRefused o reason) := by
  unfold Part.orderRefused
  try dsimp only
  repeat' first
    | with_reducible exact hk
    | with_reducible apply Part.OnlyChan.enterFaulted
    | with_reducible apply Part.OnlyChan.faultChannel
    | with_reducible apply Part.OnlyChan.clearMiss
    | split

theorem Part.OnlyChan.takeStatus (hk : p.OnlyChan n q) (position : Word) (m : NodeMotion) (motion : Byte) : p.OnlyChan n (q.takeStatus n position m motion) := by
  unfold Part.takeStatus
  try dsimp only
  repeat' first
    | with_reducible exact hk
    | with_reducible apply Part.OnlyChan.modChan
    | split

theorem Part.OnlyChan.haltStatus (o : Order) (expiry : Nat) (position : Word) (m : NodeMotion) (motion : Byte) (hk : p.OnlyChan o.channel q) : p.OnlyChan o.channel (q.haltStatus o expiry position m motion) := by
  unfold Part.haltStatus
  try dsimp only
  repeat' first
    | with_reducible exact hk
    | with_reducible apply Part.OnlyChan.enterFaulted
    | with_reducible apply Part.OnlyChan.takeStatus
    | split

theorem Part.OnlyChan.complete (hk : p.OnlyChan n q) : p.OnlyChan n (q.complete n) := by
  unfold Part.complete
  try dsimp only
  repeat' first
    | with_reducible exact hk
    | with_reducible apply Part.OnlyChan.modChan
    | with_reducible apply Part.OnlyChan.joinNotices
    | with_reducible apply Part.OnlyChan.setMotion
    | with_reducible apply Part.OnlyChan.removeOrder
    | with_reducible apply Part.OnlyChan.testIdle
    | split

theorem Part.OnlyChan.shortTravel (hk : p.OnlyChan n q) (target : Nat) : p.OnlyChan n (q.shortTravel n target) := by
  unfold Part.shortTravel
  try dsimp only
  repeat' first
    | with_reducible exact hk
    | with_reducible apply Part.OnlyChan.modChan
    | with_reducible apply Part.OnlyChan.modLine
    | with_reducible apply Part.OnlyChan.setMotion
    | with_reducible apply Part.OnlyChan.faultChannel
    | split

theorem Part.OnlyChan.queryStatus (hk : p.OnlyChan n q) (position : Word) (m : NodeMotion) (motion faults : Byte) : p.OnlyChan n (q.queryStatus n position m motion faults) := by
  unfold Part.queryStatus
  try dsimp only
  repeat' first
    | with_reducible exact hk
    | with_reducible apply Part.OnlyChan.setMotion
    | with_reducible apply Part.OnlyChan.testIdle
    | with_reducible apply Part.OnlyChan.faultChannel
    | with_reducible apply Part.OnlyChan.takeStatus
    | with_reducible apply Part.OnlyChan.complete
    | with_reducible apply Part.OnlyChan.shortTravel
    | split

theorem Part.OnlyChan.abandon (hk : p.OnlyChan n q) (l : LineId) : p.OnlyChan n (q.abandon l) := by
  unfold Part.abandon
  try dsimp only
  repeat' first
    | with_reducible exact hk
    | with_reducible apply Part.OnlyChan.modLine
    | split

theorem Part.OnlyChan.abandonFor (hk : p.OnlyChan n q) (l : LineId) : p.OnlyChan n (q.abandonFor l n) := by
  unfold Part.abandonFor
  try dsimp only
  repeat' first
    | with_reducible exact hk
    | with_reducible apply Part.OnlyChan.abandon
    | split

theorem Part.OnlyChan.expireTravel (hk : p.OnlyChan n q) (elapsed : Nat) : p.OnlyChan n (q.expireTravel n elapsed) := by
  unfold Part.expireTravel
  try dsimp only
  repeat' first
    | with_reducible exact hk
    | with_reducible apply Part.OnlyChan.modChan
    | with_reducible apply Part.OnlyChan.modLine
    | with_reducible apply Part.OnlyChan.setMotion
    | with_reducible apply Part.OnlyChan.removeOrder
    | with_reducible apply Part.OnlyChan.faultChannel
    | with_reducible apply Part.OnlyChan.abandonFor
    | split

end

/-! ## Recomputation (R33, R40) -/

/-- The result of the governing order depends on the weather, the zone, and the channel's configuration, captured target
and freeze, and, where the freeze is absent, on its granted target. -/
theorem governs_congr (w : Weather) (z : Zone) {c d : Channel} (hcfg : d.cfg = c.cfg) (hr : d.requested = c.requested)
    (hf : d.freeze = c.freeze) (hg : d.granted = c.granted) : governs w z d = governs w z c := by
  simp [governs, smokeTarget, comfortTarget, reachingOverride, hcfg, hr, hf, hg]

/-- The governing order is stable: once its result stands, it gives the same again. -/
theorem governs_stable (w : Weather) (z : Zone) (c : Channel) :
    governs w z { c with governing := (governs w z c).1, granted := (governs w z c).2 } = governs w z c := by
  cases hc : c.cfg.cls <;> cases ho : z.override <;> cases hl : z.latch <;> cases hs : c.cfg.smokeAction <;>
    cases hw : weatherApplies w c.cfg <;>
    simp [governs, reachingOverride, smokeTarget, comfortTarget, hc, ho, hl, hs, hw] <;>
    cases c.freeze <;> simp

section
variable {p : Part}

/-- R100: a notice changes neither grant, configuration, captured words nor freeze of any channel. -/
theorem Part.notice_keepsGrants (p : Part) (n : ChannelId) : p.KeepsGrants (p.notice n) :=
  (Part.KeepsGrants.refl p).notice n

/-- R33: after its recomputation a channel holds the result of the governing order. -/
theorem Part.recompute_self (p : Part) (n : ChannelId) :
    (((p.recompute n).chan n).governing, ((p.recompute n).chan n).granted) = p.governs n := by
  unfold Part.recompute
  dsimp only
  split
  · rename_i h; rw [h.1, h.2]
  · have k := Part.notice_keepsGrants (Part.mark (p.modChan n (fun c =>
      { c with governing := (p.governs n).1, granted := (p.governs n).2 })) (.channel n) (wordBit true 2 ||| wordBit true 3)) n
    rw [k.governing n, k.granted n]
    simp

/-- R33: a recomputation leaves the records of the other channels alone. -/
theorem Part.recompute_onlyChan (p : Part) (n : ChannelId) : p.OnlyChan n (p.recompute n) := by
  unfold Part.recompute
  dsimp only
  split
  · exact .refl p
  · exact Part.OnlyChan.notice (fun m hm => by rw [Part.mark_chan, Part.chan_modChan, if_neg hm])

/-- R33: a recomputation changes no configuration, captured word or freeze, and no other unit. -/
theorem Part.recompute_keeps (p : Part) (n : ChannelId) :
    (∀ m, ((p.recompute n).chan m).cfg = (p.chan m).cfg ∧ ((p.recompute n).chan m).requested = (p.chan m).requested ∧
      ((p.recompute n).chan m).notifyWord = (p.chan m).notifyWord ∧ ((p.recompute n).chan m).freeze = (p.chan m).freeze) ∧
      (p.recompute n).zones = p.zones ∧ (p.recompute n).ga = p.ga ∧ (p.recompute n).weather = p.weather ∧
      (p.recompute n).globals = p.globals ∧ (p.recompute n).cmd = p.cmd := by
  unfold Part.recompute
  dsimp only
  split
  · exact ⟨fun _ => ⟨rfl, rfl, rfl, rfl⟩, rfl, rfl, rfl, rfl, rfl⟩
  · have k := Part.notice_keepsGrants (Part.mark (p.modChan n (fun c =>
      { c with governing := (p.governs n).1, granted := (p.governs n).2 })) (.channel n) (wordBit true 2 ||| wordBit true 3)) n
    refine ⟨fun m => ?_, k.zones, k.ga, k.weather, k.globals, k.cmd⟩
    rw [k.cfg m, k.captures.requested m, k.captures.notifyWord m, k.freeze m, Part.mark_chan, Part.chan_modChan]
    split
    · rename_i e; subst e; exact ⟨rfl, rfl, rfl, rfl⟩
    · exact ⟨rfl, rfl, rfl, rfl⟩

/-- What a run of recomputations leaves as it was. -/
structure Part.OnlyGrants (p q : Part) : Prop where
  cfg : ∀ m, (q.chan m).cfg = (p.chan m).cfg
  requested : ∀ m, (q.chan m).requested = (p.chan m).requested
  notifyWord : ∀ m, (q.chan m).notifyWord = (p.chan m).notifyWord
  freeze : ∀ m, (q.chan m).freeze = (p.chan m).freeze
  zones : q.zones = p.zones
  ga : q.ga = p.ga
  weather : q.weather = p.weather
  globals : q.globals = p.globals
  cmd : q.cmd = p.cmd

theorem Part.OnlyGrants.refl (p : Part) : p.OnlyGrants p :=
  ⟨fun _ => rfl, fun _ => rfl, fun _ => rfl, fun _ => rfl, rfl, rfl, rfl, rfl, rfl⟩

theorem Part.OnlyGrants.trans {p q r : Part} (h : p.OnlyGrants q) (k : q.OnlyGrants r) : p.OnlyGrants r :=
  ⟨fun m => (k.cfg m).trans (h.cfg m), fun m => (k.requested m).trans (h.requested m),
   fun m => (k.notifyWord m).trans (h.notifyWord m), fun m => (k.freeze m).trans (h.freeze m), k.zones.trans h.zones,
   k.ga.trans h.ga, k.weather.trans h.weather, k.globals.trans h.globals, k.cmd.trans h.cmd⟩

theorem Part.recompute_onlyGrants (p : Part) (n : ChannelId) : p.OnlyGrants (p.recompute n) :=
  have k := p.recompute_keeps n
  ⟨fun m => (k.1 m).1, fun m => (k.1 m).2.1, fun m => (k.1 m).2.2.1, fun m => (k.1 m).2.2.2, k.2.1, k.2.2.1, k.2.2.2.1,
   k.2.2.2.2.1, k.2.2.2.2.2⟩

/-- A channel's grant is the result of the governing order. -/
def Part.Settled (p : Part) (n : ChannelId) : Prop :=
  ((p.chan n).governing, (p.chan n).granted) = Machine.governs p.weather (p.zone (p.chan n).cfg.zone) (p.chan n)

theorem Part.recompute_settled (p : Part) (n : ChannelId) : (p.recompute n).Settled n := by
  have k := p.recompute_onlyGrants n
  unfold Part.Settled
  rw [p.recompute_self n]
  have hz : (p.recompute n).zone = p.zone := by funext z; unfold Part.zone; simp [k.zones]
  rw [k.weather, hz, k.cfg n]
  have e := p.recompute_self n
  have h1 : ((p.recompute n).chan n).governing = (p.governs n).1 := congrArg Prod.fst e
  have h2 : ((p.recompute n).chan n).granted = (p.governs n).2 := congrArg Prod.snd e
  refine ((governs_congr p.weather (p.zone (p.chan n).cfg.zone)
    (c := { p.chan n with governing := (p.governs n).1, granted := (p.governs n).2 })
    (k.cfg n) (k.requested n) (k.freeze n) h2).trans ?_).symm
  exact governs_stable p.weather (p.zone (p.chan n).cfg.zone) (p.chan n)

theorem Part.recompute_keeps_settled (p : Part) (n m : ChannelId) (h : p.Settled m) : (p.recompute n).Settled m := by
  by_cases e : m = n
  · subst e; exact p.recompute_settled m
  · have k := p.recompute_onlyGrants n
    unfold Part.Settled at *
    have hz : (p.recompute n).zone = p.zone := by funext z; unfold Part.zone; simp [k.zones]
    rw [p.recompute_onlyChan n m e, k.weather, hz]
    exact h

/-- R40: after the recomputations of one input change, every channel it covers holds the result of the governing order. -/
theorem Part.recomputeList_settled (ns : List ChannelId) (p : Part) (m : ChannelId) (h : m ∈ ns ∨ p.Settled m) :
    (p.forEach ns (fun n q => q.recompute n)).Settled m := by
  induction ns generalizing p with
  | nil => simpa [Part.forEach] using h
  | cons n ns ih =>
    refine ih (p.recompute n) ?_
    rcases h with h | h
    · rcases List.mem_cons.1 h with e | h
      · subst e; exact .inr (p.recompute_settled m)
      · exact .inl h
    · exact .inr (p.recompute_keeps_settled n m h)

theorem Part.recomputeList_onlyGrants (ns : List ChannelId) (p : Part) :
    p.OnlyGrants (p.forEach ns (fun n q => q.recompute n)) :=
  foldl_keeps Part.OnlyGrants.refl Part.OnlyGrants.trans (fun q n => q.recompute_onlyGrants n) ns p

/-- Channels outside the list are untouched. -/
theorem Part.recomputeList_other (ns : List ChannelId) (p : Part) (m : ChannelId) (h : m ∉ ns) :
    (p.forEach ns (fun n q => q.recompute n)).chan m = p.chan m := by
  induction ns generalizing p with
  | nil => rfl
  | cons n ns ih =>
    have hm : m ≠ n := fun e => h (e ▸ List.mem_cons_self)
    exact (ih (p.recompute n) (fun k => h (List.mem_cons_of_mem _ k))).trans (p.recompute_onlyChan n m hm)

theorem Part.recomputeAll_settled (p : Part) (m : ChannelId) : p.recomputeAll.Settled m :=
  Part.recomputeList_settled _ p m (.inl (List.mem_finRange m))

theorem Part.recomputeZone_settled (p : Part) (z : ZoneId) (m : ChannelId) (h : (p.chan m).cfg.zone = z) :
    (p.recomputeZone z).Settled m :=
  Part.recomputeList_settled _ p m (.inl (List.mem_filter.2 ⟨List.mem_finRange m, by simpa using h⟩))

end

end Sys2Proof.Machine
end

