-- ==== Sys2Proof/Laws/Receiver.lean ====
section
/-! SUPPORT. What the end of a frame does to a line's watch and receiver (R120, R136, R137), and to nothing else. -/

namespace Sys2Proof.Machine

@[simp] theorem Watch.restart_off (now : Nat) : Watch.off.restart now = .off := rfl
@[simp] theorem Watch.restart_stuck (since now : Nat) : (Watch.stuck since).restart now = .stuck now := rfl
@[simp] theorem Watch.restart_recovery (since now : Nat) : (Watch.recovery since).restart now = .recovery now := rfl
@[simp] theorem Watch.dominant_stuck (since now : Nat) : (Watch.stuck since).dominant now = .stuck since := rfl
@[simp] theorem Watch.dominant_recovery (since now : Nat) : (Watch.recovery since).dominant now = .recovery now := rfl

/-- A frame carried changes a line's watch and receiver alone. -/
theorem Line.carried_eq (x : Line) (now : Nat) :
    x.carried now = { x with watch := x.watch.restart now, receiver := (x.carried now).receiver } := rfl

/-- A reception changes a line's watch and receiver alone. -/
theorem Line.receive_eq (x : Line) (h : Reception) (now : Nat) :
    x.receive h now = { x with watch := (x.receive h now).watch, receiver := (x.receiver.hear h).after } := rfl

section
variable (p : Part) (l : LineId)

/-- The end of a frame reaches the watch and the receiver of its line, while that line listens. -/
theorem Part.frameSeen_line (k : LineId) :
    (p.frameSeen l).line k =
      if k = l ∧ (p.line l).listens = true then { p.line l with watch := (p.line l).watch.restart p.now, receiver := .looking }
      else p.line k := by
  unfold Part.frameSeen
  by_cases h : (p.line l).listens = true
  · rw [if_pos h, Part.line_modLine]
    by_cases e : k = l
    · simp [e, h]
    · simp [e]
  · simp [h]

theorem Part.frameSeen_line_of_ne {k : LineId} (h : k ≠ l) : (p.frameSeen l).line k = p.line k := by
  rw [Part.frameSeen_line, if_neg (fun e => h e.1)]

/-- Every field of the line but the watch and the receiver stands. -/
theorem Part.frameSeen_line_fields :
    let x := p.line l
    let y := (p.frameSeen l).line l
    y.state = x.state ∧ y.urgent = x.urgent ∧ y.routine = x.routine ∧ y.exchange = x.exchange ∧ y.pollPos = x.pollPos ∧
      y.supPos = x.supPos ∧ y.retake = x.retake ∧ y.clock = x.clock ∧ y.window = x.window ∧ y.answer = x.answer ∧
      y.freeAt = x.freeAt ∧ y.receiving = x.receiving ∧ y.wire = x.wire ∧ y.test = x.test := by
  intro x y
  have hy : y = _ := Part.frameSeen_line p l l
  rw [hy]; split <;> exact ⟨rfl, rfl, rfl, rfl, rfl, rfl, rfl, rfl, rfl, rfl, rfl, rfl, rfl, rfl⟩

@[simp] theorem Part.frameSeen_now : (p.frameSeen l).now = p.now := by unfold Part.frameSeen; split <;> rfl
@[simp] theorem Part.frameSeen_chan (n : ChannelId) : (p.frameSeen l).chan n = p.chan n := by
  unfold Part.frameSeen; split <;> rfl
@[simp] theorem Part.frameSeen_zone (z : ZoneId) : (p.frameSeen l).zone z = p.zone z := by
  unfold Part.frameSeen; split <;> rfl
@[simp] theorem Part.frameSeen_bank (b : BankId) : (p.frameSeen l).bank b = p.bank b := by
  unfold Part.frameSeen; split <;> rfl
@[simp] theorem Part.frameSeen_globals : (p.frameSeen l).globals = p.globals := by unfold Part.frameSeen; split <;> rfl
@[simp] theorem Part.frameSeen_weather : (p.frameSeen l).weather = p.weather := by unfold Part.frameSeen; split <;> rfl
@[simp] theorem Part.frameSeen_cmd : (p.frameSeen l).cmd = p.cmd := by unfold Part.frameSeen; split <;> rfl
@[simp] theorem Part.frameSeen_notices : (p.frameSeen l).notices = p.notices := by unfold Part.frameSeen; split <;> rfl

end

/-! ## The receiver (R120) -/

/-- A receiver that looks reads every reception. -/
@[simp] theorem Receiver.hear_looking (h : Reception) : Receiver.looking.hear h = readReception h := rfl

/-- A receiver that passes a reception over stays as it is, but for one that waited and saw the line end recessive. -/
theorem Receiver.pass_after (r : Receiver) (h : Reception) :
    (r.pass h).after = r ∨ r = .waiting ∧ h.ending = .recessive ∧ (r.pass h).after = .looking := by
  obtain ⟨gap, bytes, ending⟩ := h
  cases r with
  | looking => exact .inl rfl
  | discarding => exact .inl rfl
  | waiting =>
    cases ending with
    | recessive => exact .inr ⟨rfl, rfl, rfl⟩
    | dominantStop _ => exact .inl rfl

/-- A discarding receiver passes over every reception that no 1 ms recessive precedes, and goes on discarding. -/
theorem Receiver.hear_discarding_of_gap (h : Reception) (hg : h.gap ≠ .idle) :
    Receiver.discarding.hear h = ⟨.nothing, .discarding⟩ := by
  obtain ⟨gap, bytes, ending⟩ := h
  cases gap with
  | idle => exact absurd rfl hg
  | short => rfl
  | none => rfl

/-- However many such receptions follow one another, the receiver still discards after them. -/
theorem Receiver.discarding_until_idle (hs : List Reception) (hg : ∀ h ∈ hs, h.gap ≠ .idle) :
    hs.foldl (fun r h => (r.hear h).after) Receiver.discarding = .discarding := by
  induction hs with
  | nil => rfl
  | cons h hs ih =>
    rw [List.foldl_cons, Receiver.hear_discarding_of_gap h (hg h List.mem_cons_self)]
    exact ih (fun k hk => hg k (List.mem_cons_of_mem h hk))

/-- A damaged frame is no valid one. -/
theorem damagedBy_isFrame (lead : Byte) (items : List Byte) : (damagedBy lead items).isFrame = false := by
  unfold damagedBy; split <;> rfl

end Sys2Proof.Machine
end

