-- ==== Sys2Proof/Tests/Slice0.lean ====
section
/-! SUPPORT. The model's own tests: ill-formed operands refused, worked values of the spec, and for each statement a concrete
state that meets its hypotheses, clause by clause. -/

namespace Sys2Proof.Tests

open Sys2Proof.Machine

set_option Elab.async false

/-! ## Helpers: small states and one step -/

/-- The state after reset with its part changed. -/
def withPart (f : Part → Part) : State := { State.reset with part := f State.reset.part }
def withChan (n : ChannelId) (f : Channel → Channel) : State := withPart (fun p => p.modChan n f)
def withLine (l : LineId) (f : Line → Line) : State := withPart (fun p => p.modLine l f)
def withZone (z : ZoneId) (f : Zone → Zone) : State := withPart (fun p => p.modZone z f)
def withCmd (f : CommandUnit → CommandUnit) : State := withPart (fun p => p.setCmd (f p.cmd))
def withBank (b : BankId) (f : Bank → Bank) : State := withPart (fun p => p.setBank b (f (p.bank b)))

/-- The state after reset with the list empty and nothing dirty. -/
def quietBus (s : State) : State :=
  { s with part := { s.part with dirty := Vector.replicate 73 0 }, bus := { s.bus with list := [], pass := none } }

/-- The arguments of a command. -/
def withArgs (a b c : Word) (s : State) : State := { s with part := s.part.setCmd { s.part.cmd with args := #v[a, b, c] } }

/-- A command answers a next state that meets a condition. -/
def gives (s : State) (c : Instr) (q : State → Bool) : Bool :=
  match exec c s with
  | .next t => q t
  | .fault _ => false
  | .refused _ => false

def both : ByteEnables := ⟨true, true⟩
def upper : ByteEnables := ⟨true, false⟩
def neither : ByteEnables := ⟨false, false⟩

/-- An order for a target. -/
def orderTo (n : ChannelId) (target : Nat) (cls : OrderClass) : Order := ⟨.move target, n, cls, 3, 3, false, none⟩
def haltOf (n : ChannelId) : Order := ⟨.halt 120, n, .urgent, 3, 3, false, none⟩

/-- Line A with an exchange, sent at an instant. -/
def inFlight (k : ExchangeKind) (node : BitVec 4) (sentAt : Option Nat) (x : Line) : Line :=
  { x with exchange := some ⟨k, node, sentAt⟩ }

def ones : Pattern := #v[1, 2, 3, 4, 5, 6, 7, 8]

/-! ## Well-formedness -/

theorem test_write_without_enables_is_ill_formed :
    (Instr.requestedTargetWrite 0 neither 0).wellFormed = false ∧ (Instr.notifyWrite 0 neither 0).wellFormed = false ∧
    (Instr.configurationWrite 0 neither 0).wellFormed = false ∧ (Instr.argumentWrite 0 neither 0).wellFormed = false ∧
    (Instr.patternWrite 0 0 neither 0).wellFormed = false ∧ (Instr.enableWordWrite .gate neither 0).wellFormed = false ∧
    (Instr.acknowledgeWordWrite .gate neither 0).wellFormed = false ∧
    (Instr.counterStartWrite .gate neither 0).wellFormed = false ∧
    (Instr.noticeAcknowledgeWrite 0 neither 0).wellFormed = false ∧
    (Instr.ownedWordWrite 2 neither 0).wellFormed = false := by decide
theorem test_owned_write_of_another_class_is_ill_formed :
    (Instr.ownedWordWrite 0 both 0).wellFormed = false ∧ (Instr.ownedWordWrite 2 both 0).wellFormed = true := by
  decide +kernel
theorem test_unknown_command_with_a_known_code_is_ill_formed :
    (Instr.unknownCommand 1).wellFormed = false ∧ (Instr.unknownCommand 8).wellFormed = false ∧
    (Instr.unknownCommand 0).wellFormed = true ∧ (Instr.unknownCommand 9).wellFormed = true := by decide
theorem test_echo_of_a_wrong_length_is_ill_formed :
    (Instr.testEcho 0 1 (List.replicate 9 0) false).wellFormed = false ∧
    (Instr.testEcho 0 1 [1] true).wellFormed = false ∧ (Instr.testEcho 0 1 [1] false).wellFormed = true := by decide

/-! ## Worked values of the spec -/

/-- R119: the QUERY to node 5 is 0x55 0xAC. -/
theorem test_crc_of_a_query : (Frame.query 5).bytes = [0x55, 0xAC] := by decide
/-- R117: ten levels a byte, and where a QUERY that meets a KEY frame sees it: its second data bit. -/
theorem test_levels_of_a_byte :
    byteLevels 0x55 = [.dominant, .dominant, .recessive, .dominant, .recessive, .dominant, .recessive, .dominant, .recessive,
      .recessive] ∧
    (levelsOf (Frame.query 5).bytes).length = 20 ∧
    lossBit (levelsOf (Frame.query 5).bytes) (levelsOf (Frame.key 14 1 1).bytes) = some 2 := by decide +kernel
/-- R142: the first bytes of a SEQUENCE frame. -/
theorem test_sequence_starts : (seqBytes 0b1111111).toList.take 3 = [0xFE, 0x04, 0x18] := by decide +kernel
/-- R172: the default configuration passes validation, and reads back as the power-on configuration. -/
theorem test_defaults_validate : validate State.reset.part.cmd.pending = none := by decide +kernel
theorem test_defaults_read_back :
    pendingChannel State.reset.part.cmd.pending 47 = (State.reset.part.chan 47).cfg ∧
    pendingGlobals State.reset.part.cmd.pending = State.reset.part.globals := by decide +kernel
/-- R155, R156: a byte write merges with the captured value, and above 1,000 it is clamped. -/
theorem test_merge_and_clamp :
    merge upper 0x04FF 0x00C8 = 0x04C8 ∧ clampTarget 0x04C8 = 1000 ∧ clampTarget 1000 = 1000 := by decide
/-- R76: the Gray code of the vane. -/
theorem test_vane_sectors : [0, 1, 3, 2, 6, 7, 5, 4].map (fun v => sectorOfVane (BitVec.ofNat 3 v)) = [0, 1, 2, 3, 4, 5, 6, 7] := by
  decide
theorem test_a_word_spells_no_command : decodeTableWord 16 0x1234 = none ∧
    State.reset.withFetchWord 16 0x1234 = State.reset := ⟨rfl, rfl⟩

/-! ## The queue -/

theorem test_step_takes_the_front :
    (match step { State.reset with pending := [.anemometerPulse, .rstnDeassertion] } with
      | .next t => decide (t.part.weather.pulses = 1 ∧ t.pending = [.rstnDeassertion])
      | _ => false) = true := by decide +kernel
theorem test_idle_step_passes_a_millisecond :
    (match step State.reset with | .next t => decide (t.part.now = 1) | _ => false) = true := by decide +kernel
theorem test_invariants_have_a_state : State.reset.bus.mem.wf ∧ State.reset.part.cmd.count < 128 ∧
    State.reset.bus.list.Nodup ∧ (∀ r ∈ allRecords, r ∈ State.reset.bus.list) := by decide +kernel
/-- Word 2 of channel 0 written back, every other owned word dirty. -/
def oneWordClean : State :=
  { State.reset with
    part := { State.reset.part with dirty := State.reset.part.dirty.set 0 0xF8 }
    bus := { State.reset.bus with mem := ⟨[(4, 0), (5, 0)]⟩ } }
theorem test_coherence_has_a_state : oneWordClean.coherent := by
  have h : ∀ r ∈ allRecords, ∀ k : Fin 8, (ownedMask r).getLsbD k.val = true →
      (oneWordClean.part.dirtyOf r).getLsbD k.val = false →
      oneWordClean.bus.wordAt (oneWordClean.bus.addressOf (recordOffset r + k.val)) = oneWordClean.part.wordOf r k.val := by
    decide +kernel
  exact fun r => h r (mem_allRecords r)
/-- Channel 0 QUEUED with an order on line A, channel 12 ORDERING with its ORDER sent on line B, channel 24 HALTING with its HALT
in flight on line C, line D DISABLED. -/
def fitting : Part :=
  let p := (((State.reset.part.modChan 0 (fun c => { c with motion := .queued })).modChan 12
    (fun c => { c with motion := .ordering, travel := some 3 })).modChan 24 (fun c => { c with motion := .halting }))
  (((p.modLine 0 (fun x => { x with urgent := [orderTo 0 9 .urgent] })).modLine 1
    (inFlight (.order { orderTo 12 9 .routine with sent := true }) 1 (some 5))).modLine 2
      (inFlight (.order (haltOf 24)) 1 none)).modLine 3 (fun x => { x with state := .disabled })
theorem fitting_channel (n : ChannelId) : (fitting.chan n).fits := by
  have h : ∀ n : ChannelId, (fitting.chan n).cfg.cls ≠ .unused ∧ (fitting.chan n).motion ≠ .unused ∧
      (fitting.chan n).fault = none ∧ (fitting.chan n).motion ≠ .faulted ∧ (fitting.chan n).motion ≠ .moving ∧
      (fitting.chan n).accepted = none ∧ (fitting.chan n).position = none ∧ (fitting.chan n).report = none ∧
      ((fitting.chan n).travel ≠ none → (fitting.chan n).motion = .ordering) := by decide +kernel
  obtain ⟨h1, h2, h3, h4, h5, h6, h7, h8, h9⟩ := h n
  exact ⟨by simp [h1, h2], by simp [h3, h4], fun h => .inr (.inl (h9 h)), fun h => absurd h h5, fun h => absurd h6 h,
    fun _ => ⟨h7, h8⟩⟩
theorem fitting_line (l : LineId) : fitting.lineFits l := by
  have queue : ∀ l : LineId, (fitting.line l).urgent ++ (fitting.line l).routine = if l = 0 then [orderTo 0 9 .urgent] else [] := by
    decide +kernel
  have flight : ∀ l : LineId, (fitting.line l).exchange =
      if l = 1 then some ⟨.order { orderTo 12 9 .routine with sent := true }, 1, some 5⟩
      else if l = 2 then some ⟨.order (haltOf 24), 1, none⟩ else none := by decide +kernel
  have states : ∀ l : LineId, (fitting.line l).retake = none ∧
      (fitting.line l).state = if l = 3 then .disabled else .run := by decide +kernel
  have chans : (fitting.chan 0).boundTo 0 = true ∧ (fitting.chan 0).motion = .queued ∧
      (fitting.chan 12).boundTo 1 = true ∧ (fitting.chan 12).motion = .ordering ∧ (fitting.chan 12).travel = some 3 ∧
      (fitting.chan 12).accepted = none ∧ (fitting.chan 24).boundTo 2 = true ∧ (fitting.chan 24).motion = .halting ∧
      (fitting.line 2).queued 24 = none ∧
      ∀ n : ChannelId, (fitting.chan n).boundTo 3 = true → (fitting.chan n).motion = .offline := by decide +kernel
  obtain ⟨c1, c2, c3, c4, c5, c6, c7, c8, c9, c10⟩ := chans
  refine ⟨?_, ?_, ?_, ?_, ?_, ?_, ?_, ?_⟩
  · rw [queue]; split <;> simp
  · intro o ho
    rw [queue] at ho
    split at ho <;> simp at ho
    subst_vars
    exact ⟨c1, fun _ => .inl c2, fun _ h => by simp [orderTo] at h, fun h => by simp [orderTo, Order.isHalt] at h⟩
  · intro e o he hk
    rw [flight] at he
    split at he
    · subst_vars; cases he; cases hk
      exact ⟨c3, fun _ => c4, fun _ _ => ⟨by simp [orderTo, c5], c6⟩, fun h => by simp [orderTo, Order.isHalt] at h⟩
    · split at he
      · subst_vars; cases he; cases hk
        exact ⟨c7, fun h => by simp [haltOf, Order.isHalt] at h, fun h => by simp [haltOf, Order.isHalt] at h, fun _ => ⟨c8, c9⟩⟩
      · cases he
  · intro e o he hk hs
    rw [flight] at he
    split at he
    · cases he; cases hk; rfl
    · split at he <;> cases he
      exact absurd rfl hs
  · intro e n poll he hk
    rw [flight] at he
    split at he
    · cases he; cases hk
    · split at he <;> cases he
      cases hk
  · intro r hr
    rw [(states l).1] at hr
    cases hr
  · intro h
    rw [(states l).2] at h
    split at h <;> simp at h
  · intro h
    rw [(states l).2] at h
    split at h <;> simp at h
    subst_vars
    exact ⟨by rw [flight]; rfl, fun n hn => .inl (c10 n hn)⟩
theorem fitting_work (n : ChannelId) : fitting.workFits n := by
  have h : ∀ n : ChannelId, ((fitting.chan n).motion = .queued → n = 0) ∧ ((fitting.chan n).motion = .ordering → n = 12) ∧
      ((fitting.chan n).motion = .halting → n = 24) := by decide +kernel
  have w : fitting.queuedOf 0 = some (orderTo 0 9 .urgent) ∧ (fitting.chan 0).travel = none ∧
      (fitting.line (fitting.lineOf 12)).inFlight 12 = some { orderTo 12 9 .routine with sent := true } ∧
      (fitting.line (fitting.lineOf 24)).inFlight 24 = some (haltOf 24) := by decide +kernel
  refine ⟨fun hm => ?_, fun hm => ?_, fun hm => ?_⟩
  · obtain rfl := (h n).1 hm
    exact ⟨_, w.1, fun ht => absurd w.2.1 ht⟩
  · obtain rfl := (h n).2.1 hm
    exact ⟨_, w.2.2.1, rfl, fun _ => .inl rfl⟩
  · obtain rfl := (h n).2.2 hm
    exact .inr ⟨_, w.2.2.2, rfl⟩
theorem test_motion_fits_has_a_state : fitting.motionFits := ⟨fitting_channel, fitting_line, fitting_work⟩
theorem test_ranges_have_a_state : fitting.inRange := by
  have h : ∀ b ∈ allBanks, (fitting.bank b).counter = 0 ∧ (fitting.bank b).lastStart = 0 ∧ (fitting.bank b).overflow = false ∧
      (fitting.bank b).safetyLost = false := by decide +kernel
  have g : (∀ n : ChannelId, (fitting.chan n).requested = 0) ∧ fitting.cmd.count = 0 ∧
      ∀ l : LineId, (fitting.line l).state ≠ .quieting := by decide +kernel
  refine ⟨fun n => by simp [g.1 n], by simp [g.2.1], fun b => ?_, fun l h => absurd h (g.2.2 l)⟩
  obtain ⟨h1, h2, h3, h4⟩ := h b (mem_allBanks b)
  exact ⟨by simp [h1], by simp [h2], fun _ => ⟨h3, h4⟩⟩

/-! ## Host accesses -/

theorem test_target_write_at_its_limit :
    State.reset.bus.rstn = false ∧ both.some = true ∧
    gives State.reset (.requestedTargetWrite 3 both 1000) (fun t =>
      decide ((t.part.chan 3).requested = 1000 ∧ (t.part.chan 3).governing = .comfort ∧ (t.part.chan 3).granted = some 0 ∧ (t.part.bank .gate).record = none)) ∧
    gives State.reset (.requestedTargetWrite 3 both 1001) (fun t =>
      decide ((t.part.chan 3).requested = 1000 ∧ (t.part.bank .gate).record.isSome = true)) := by decide +kernel
/-- Channel 3 in a motion state at position 0, its comfort limit raised. -/
def grantable (m : Motion) (x : Line → Line) : State :=
  withPart (fun p => (p.modChan 3 (fun c =>
    { c with motion := m, position := some 0, accepted := some 500, cfg := { c.cfg with comfortLimit := 1000 } })).modLine 0 x)
/-- R98 to R101: a grant notice on an IDLE, a QUEUED and a MOVING channel. -/
theorem test_grant_notices :
    gives (grantable .idle id) (.requestedTargetWrite 3 both 500) (fun t => decide ((t.part.chan 3).motion = .queued ∧
      (t.part.line 0).routine = [orderTo 3 500 .routine])) ∧
    gives (grantable .queued (fun x => { x with routine := [orderTo 3 800 .routine, orderTo 4 7 .routine] }))
      (.requestedTargetWrite 3 both 500) (fun t =>
        decide ((t.part.line 0).routine = [orderTo 3 500 .routine, orderTo 4 7 .routine])) ∧
    gives (grantable .queued (fun x => { x with urgent := [orderTo 3 800 .urgent], routine := [orderTo 4 7 .routine] }))
      (.requestedTargetWrite 3 both 500) (fun t => decide ((t.part.line 0).urgent = [] ∧
        (t.part.line 0).routine = [orderTo 4 7 .routine, orderTo 3 500 .routine])) ∧
    gives (grantable .queued (fun x => { x with routine := [orderTo 3 800 .routine] })) (.requestedTargetWrite 3 both 10)
      (fun t => decide ((t.part.chan 3).motion = .idle ∧ (t.part.line 0).routine = [])) ∧
    gives (grantable .moving (fun x => { x with routine := [orderTo 3 800 .routine] })) (.requestedTargetWrite 3 both 500)
      (fun t => decide ((t.part.chan 3).motion = .moving ∧ (t.part.line 0).routine = [])) ∧
    gives (grantable .moving id) (.requestedTargetWrite 3 both 600) (fun t =>
      decide ((t.part.line 0).routine = [orderTo 3 600 .routine])) := by decide +kernel
/-- Channel 3 under a fire in its zone, with a class and a smoke action. -/
def underFire (k : ChannelClass) (a : SmokeAction) : Channel :=
  { initialChannel 3 with
    cfg := { defaultChannelConfig 3 with cls := k, smokeAction := a, facing := 1, comfortLimit := 300 },
    requested := 500, freeze := some 70 }
/-- R26 to R29, R32: the governing order, entry by entry. -/
theorem test_governing_order :
    (let dry : Weather := initialWeather false
      let gale : Weather := { dry with storm := true, smokeWind := true, settled := some 0 }
      let calm : Zone := initialZone
      let fire : Zone := { calm with latch := true }
      let key (v : OverrideValue) : Zone := { fire with override := some ⟨v, 0, 14⟩ }
      governs gale (key .opens) (underFire .unused .opens) = (.none, none) ∧
      governs gale (key .opens) (underFire .vent .closes) = (.manual, some 1000) ∧
      governs gale (key .closes) (underFire .dual .opens) = (.manual, some 0) ∧
      governs gale (key .closes) (underFire .window .holds) = (.smoke, some 70) ∧
      governs gale fire (underFire .dual .opens) = (.smoke, some 0) ∧
      governs { gale with settled := some 1 } fire (underFire .dual .opens) = (.smoke, some 1000) ∧
      governs dry fire (underFire .dual .closes) = (.smoke, some 0) ∧
      governs gale calm (underFire .dual .opens) = (.weather, some 0) ∧
      governs dry calm (underFire .vent .opens) = (.comfort, some 0) ∧
      governs dry calm (underFire .window .opens) = (.comfort, some 300)) := by decide +kernel
theorem test_captured_words :
    gives State.reset (.notifyWrite 47 upper 0x0100) (fun t => (t.part.chan 47).notify) ∧
    gives State.reset (.configurationWrite 208 both 7) (fun t => decide (t.part.cmd.pending[208] = 7)) ∧
    gives State.reset (.argumentWrite 2 both 9) (fun t => decide (t.part.cmd.args[2] = 9)) ∧
    gives State.reset (.patternWrite 3 3 both 5) (fun t => decide ((t.part.line 3).test.pattern[3] = 5)) ∧
    gives State.reset (.enableWordWrite .input both 3) (fun t => (t.part.bank .input).reports && (t.part.bank .input).counts) := by
  decide +kernel
/-- R7, R197: notify is off at 0 alone; report enable is bit 0 of an enable word and count enable bit 1. -/
theorem test_captured_bits :
    gives (withChan 0 (fun c => { c with notifyWord := 0x0101 })) (.notifyWrite 0 upper 0) (fun t => (t.part.chan 0).notify) ∧
    gives (withChan 0 (fun c => { c with notifyWord := 0x0100 })) (.notifyWrite 0 upper 0) (fun t =>
      !(t.part.chan 0).notify) ∧
    gives State.reset (.enableWordWrite .input both 1) (fun t =>
      (t.part.bank .input).reports && !(t.part.bank .input).counts) ∧
    gives State.reset (.enableWordWrite .input both 0xFFFE) (fun t =>
      !(t.part.bank .input).reports && (t.part.bank .input).counts) := by decide +kernel
/-- R151: a write with neither byte enable captures nothing and writes no byte. -/
theorem test_write_without_enables_has_no_effect :
    [Instr.requestedTargetWrite 3 neither 7, .notifyWrite 47 neither 7, .configurationWrite 208 neither 7,
      .argumentWrite 2 neither 7, .patternWrite 3 3 neither 7, .enableWordWrite .gate neither 7,
      .acknowledgeWordWrite .gate neither 7, .counterStartWrite .gate neither 7, .noticeAcknowledgeWrite 0 neither 7,
      .ownedWordWrite 2 neither 7].all (fun c => gives (quietBus State.reset) c (fun t =>
        decide (t = (quietBus State.reset).grant))) = true := by decide +kernel
/-- A captured record of the INPUT bank, for the acknowledgements. -/
def loopOpenHeld : State := withBank .input (fun b => { b with record := some ⟨.fault, .loopOpen, some .ga, none⟩ })
theorem test_acknowledge_outcomes :
    gives loopOpenHeld (.acknowledgeWordWrite .input both (BitVec.ofNat 16 (errorKindCode .loopOpen))) (fun t =>
      decide ((t.part.bank .input).record = none)) ∧
    gives loopOpenHeld (.acknowledgeWordWrite .input both 0) (fun t =>
      decide ((t.part.bank .input).record.isSome = true ∧ (t.part.bank .gate).record.isSome = true)) ∧
    gives State.reset (.acknowledgeWordWrite .gate both 0x1FF) (fun t =>
      decide ((t.part.bank .gate).lastAck = some (0xFF, .empty) ∧ (t.part.bank .gate).record = none)) := by decide +kernel
theorem test_counter_start_is_capped :
    gives State.reset (.counterStartWrite .zone both 4096) (fun t => decide ((t.part.bank .zone).counter = 4095)) ∧
    gives State.reset (.counterStartWrite .zone both 4094) (fun t => decide ((t.part.bank .zone).counter = 4094)) := by
  decide +kernel
theorem test_notice_acknowledge :
    gives (withPart (fun p => { p with notices := 0x800000000001 })) (.noticeAcknowledgeWrite 2 both 0xFFFF) (fun t =>
      decide (t.part.notices = 1 ∧ t.part.noticeAcks[2] = 0x8000)) ∧
    (let s := withPart (fun p => { p with notices := 0x20001, noticesShown := true });
      gives s (.noticeAcknowledgeWrite 1 both 2) (fun t => t.part.noticesShown) ∧
      gives { s with part := { s.part with notices := 2 } } (.noticeAcknowledgeWrite 0 both 2) (fun t =>
        !t.part.noticesShown)) := by decide +kernel
theorem test_dropped_writes :
    both.some = true ∧ (windowWord 2).cls = .partOwned ∧
    gives State.reset (.ownedWordWrite 2 both 5) (fun t => decide ((t.part.bank .gate).record =
      some ⟨.notice, .ownedWordWrite, some (.offset 2), none⟩ ∧ t.bus.mem = State.reset.bus.mem)) ∧
    gives State.reset (.commandByteWrite .lower 6) (fun t => decide ((t.part.bank .gate).record =
      some ⟨.notice, .commandByteWrite, some (.offset 0x1D0), none⟩ ∧ t.part.cmd.count = 0)) := by decide +kernel
/-- R167: a repeated write of a PART-OWNED word that changes no field of the bank marks the record and lists it, begun. -/
theorem test_repeated_owned_write_is_a_change :
    gives (quietBus (withBank .gate (fun b =>
      { b with record := some ⟨.notice, .ownedWordWrite, some (.offset 2), none⟩, overflow := true })))
      (.ownedWordWrite 2 both 5) (fun t => decide (t.bus.list = [.bank .gate] ∧ t.part.dirtyOf (.bank .gate) = 0xEF)) ∧
    gives { quietBus State.reset with bus := { (quietBus State.reset).bus with snapshot := none } } (.ownedWordWrite 2 both 5)
      (fun t => decide (t.bus.snapshot = some 0xEF)) := by decide +kernel
/-- R159, R167 (log 51): a write to a word of the GATE record marks that record's words all the same, and no other record. -/
theorem test_owned_write_to_the_gate_record :
    (windowWord 0x305).cls = .partOwned ∧
    gives (quietBus State.reset) (.ownedWordWrite 0x305 both 5) (fun t => decide (t.part.dirtyOf (.bank .gate) = 0xEF ∧
      t.part.dirtyOf (.channel 0) = 0 ∧ t.part.dirtyOf (.line 0) = 0 ∧ (t.part.bank .gate).counter = 0)) := by decide +kernel
theorem test_forwarded_write_outside_the_window :
    State.reset.bus.offsetOf 0x400 = none ∧ State.reset.bus.offsetOf 0x3FF = some 0x3FF ∧ windowWord 0x3FF = .free ∧
    gives (quietBus State.reset) (.forwardedWrite 0x400 upper 0xAB12) (fun t =>
      decide (t.bus.mem.cells = [(0x801, 0xAB)])) := by decide +kernel
/-- A dirty word is read from the part, a clean one from the RAM. -/
theorem test_reads :
    State.reset.bus.offsetOf 2 = some 2 ∧ (windowWord 2).dirtyPlace = some (.channel 0, 2) ∧
    gives State.reset (.hostRead 10 both) (fun t => decide (t.bus.readData = ⟨some 0, some 0⟩)) ∧
    gives { quietBus State.reset with bus := { (quietBus State.reset).bus with mem := ⟨[(20, 0x34), (21, 0x12)]⟩ } }
      (.hostRead 10 upper) (fun t => decide (t.bus.readData = ⟨some 0x12, none⟩)) := by decide +kernel
/-- R197: words of a channel, a zone, a line and its test. -/
theorem test_words_of_channel_zone_and_line :
    (let p := (((State.reset.part.modChan 1 (fun c => { c with
          motion := .faulted, governing := .manual, report := some ⟨.closing, true, false⟩, travel := some 119,
          fault := some (.shortTravel none), lastFault := some (.nodeFault 5) })).modZone 5 (fun x => { x with
          latch := true, loop := { x.loop with state := .shortCircuit }, deadline := .missed, overrunRunning := true,
          override := some ⟨.closes, 3, 15⟩ })).modLine 2 (fun x => { x with
          state := .test, urgent := [haltOf 24], test := { x.test with
            kind := some .pattern, target := some 12, result := some .aborted, errors := 255, pair := some (1, 0xFF) } }));
      [2, 3, 4, 5, 6, 7].map (p.wordOf (.channel 1)) = [0, 0x0305, 0xFFFF, 0x6077, 0x5FFF, 0x2005] ∧
      [0, 1, 2, 4, 5].map (p.wordOf (.zone 5)) = [0x0303, 0x0301, 0xFFFF, 0x0203, 15] ∧
      [0, 1, 2].map (p.wordOf (.line 2)) = [3, 1, 0] ∧
      [4, 5, 6, 7].map (p.wordOf (.test 2)) = [0x020C, 0x02FF, 0, 0x01FF] ∧
      [4, 5, 7].map (p.wordOf (.test 0)) = [0xFFFF, 0xFF00, 0xFFFF] ∧
      p.wordOf (.channel 0) 5 = 0xFFFF) := by decide +kernel
/-- R197: words of the command status, the global status, the notices and a bank. -/
theorem test_words_of_status_notices_and_banks :
    (let p := { State.reset.part with
          notices := 0x800000000001
          cmd := { State.reset.part.cmd with
            last := some 9, outcome := .refused, reason := some .badArg, count := 127, resultB := some 0,
            release := .zoned 0 1 }
          weather := { State.reset.part.weather with storm := true, settled := some 7 } }
      let q := p.setBank (.line 3) { p.bank (.line 3) with
          record := some ⟨.notice, .keyRefused, some (.line 3), some .malformed⟩, overflow := true, counter := 4095,
          lastAck := some (0xFF, .mismatch) }
      [4, 5, 6].map (q.wordOf .command) = [0x08FF, 0xFFFF, 0] ∧ q.wordOf .command 4 = 0x08FF ∧
      State.reset.part.wordOf .command 4 = 0xF380 ∧
      [2, 3, 4, 5].map (q.wordOf .global) = [2, 2, 7, 0xFFFF] ∧ [0, 1, 2].map (q.wordOf .notice) = [1, 0, 0x8000] ∧
      [0, 1, 2, 3, 5, 6].map (q.wordOf (.bank (.line 3))) = [3, 20, 0x3003, 4, 4095, 0x40FF] ∧
      [0, 1, 2, 3, 6].map (q.wordOf (.bank .gate)) = [0, 0xFFFF, 0xFFFF, 0xFFFF, 0xFFFF]) := by decide +kernel
theorem test_no_access_under_rstn :
    hostAccess (.hostRead 0 both) = true ∧
    exec (.hostRead 0 both) { State.reset with bus := { State.reset.bus with rstn := true } } =
      .next { State.reset with bus := { State.reset.bus with rstn := true } } := ⟨rfl, rfl⟩
theorem test_arbiter_both_sides_of_its_limit :
    State.reset.bus.offsetOf 0x400 = none ∧ 48 ≤ State.reset.bus.list.length ∧ State.reset.bus.lastCycle = .host ∧
    gives State.reset (.forwardedWrite 0x400 neither 0) (fun t => t.bus.waited) ∧
    (let s : State := { State.reset with bus := { State.reset.bus with list := allRecords.take 47 } };
      s.bus.list.length < 48 ∧ gives s (.forwardedWrite 0x400 neither 0) (fun t => !t.bus.waited)) := by decide +kernel
theorem test_write_back_of_the_head :
    State.reset.bus.list = .channel 0 :: allRecords.tail ∧
    (State.reset.part.dirtyOf (.channel 0)).getLsbD 2 = true ∧
    (∀ j : Fin 8, j < 2 → (State.reset.part.dirtyOf (.channel 0)).getLsbD j.val = false) ∧
    gives State.reset .writeBackCycle (fun t => decide (t.part.dirtyOf (.channel 0) = 0xF8 ∧
      t.bus.mem.cells = [(4, 0), (5, 0)])) ∧
    gives { State.reset with bus := { State.reset.bus with snapshot := some 0x80 } } .writeBackCycle (fun t =>
      decide (t.bus.list = allRecords.tail ++ [.channel 0] ∧ t.bus.pass = some allRecords.tail ∧
        t.bus.snapshot = some 0xFC)) := by decide +kernel

/-! ## Resets and outputs -/

theorem test_power_on_samples :
    gives State.reset (.powerOnReset 5 #v[.alarm, .openCircuit, .normal, .normal, .normal, .shortCircuit] .alarm true) (fun t =>
      decide (t.bus.straps = 5 ∧ (t.part.zone 0).loop.timer = some (.level, 0) ∧ t.part.ga.timer = some (.level, 0) ∧
        (t.part.bank .input).record = some ⟨.fault, .loopOpen, some (.zone 1), none⟩ ∧
        t.part.weather.rainState = .wetting)) := by decide +kernel
theorem test_rstn :
    gives (withCmd (fun u => { u with release := .begun 3, count := 9 })) (.rstn 7) (fun t =>
      decide (t.bus.straps = 7 ∧ t.bus.rstn = true ∧ t.part.cmd.release = .idle ∧ t.part.cmd.count = 0)) ∧
    gives { State.reset with bus := { State.reset.bus with rstn := true } } .rstnDeassertion (fun t => !t.bus.rstn) := by
  decide +kernel
/-- A bank that counts, two errors short of its threshold, with a record. -/
def countingBank (k : Nat) (r : Option ErrorRecord) : State :=
  withBank .input (fun b => { b with enable := 3, counter := k, record := r })
theorem test_threshold_is_reached_once :
    ((countingBank 4093 none).part.bank .input).counts = true ∧
    gives (countingBank 4093 none) (.loopChange .ga .openCircuit) (fun t =>
      decide ((t.part.bank .input).counter = 4094 ∧ (t.part.bank .input).reached = false)) ∧
    gives (countingBank 4094 none) (.loopChange .ga .openCircuit) (fun t =>
      decide ((t.part.bank .input).counter = 4095 ∧ (t.part.bank .input).reached = true)) ∧
    gives (countingBank 4095 none) (.loopChange .ga .openCircuit) (fun t =>
      decide ((t.part.bank .input).counter = 4095 ∧ (t.part.bank .input).reached = false)) := by decide +kernel
theorem test_severities_rise : [Severity.notice, .fault, .safety].map severityRank = [0, 1, 2] := by decide
theorem test_a_bank_keeps_its_enables :
    (let s := withBank .input (fun b =>
        { b with enable := 3, lastAck := some (5, .empty), lastStart := 9, recordShown := true, thresholdShown := true });
      gives s (.loopChange .ga .openCircuit) (fun t => decide ({ t.part.bank .input with
        record := none, counter := 0 } = s.part.bank .input))) := by decide +kernel
theorem test_bank_by_severity :
    gives (countingBank 0 (some ⟨.notice, .loopOpen, none, none⟩)) (.loopChange .ga .openCircuit) (fun t =>
      decide ((t.part.bank .input).record = some ⟨.fault, .loopOpen, some .ga, none⟩ ∧
        (t.part.bank .input).overflow = true)) ∧
    gives (countingBank 0 (some ⟨.safety, .loopShort, none, none⟩)) (.loopChange .ga .openCircuit) (fun t =>
      decide ((t.part.bank .input).record = some ⟨.safety, .loopShort, none, none⟩ ∧
        (t.part.bank .input).overflow = true ∧ (t.part.bank .input).safetyLost = false)) := by decide +kernel
/-- ATTN: the INPUT bank reports, its record is being written back, and its last word completes the report. -/
def reportDue : State :=
  let s := countingBank 0 (some ⟨.fault, .loopOpen, some .ga, none⟩)
  { s with part := { s.part with dirty := Vector.replicate 73 0 },
           bus := { s.bus with list := [.bank .input], pass := none, snapshot := some 0x80 } }
theorem test_attn_after_the_report :
    reportDue.attn = false ∧ reportDue.bus.list = [.bank .input] ∧
    reportDue.bus.snapshot = some (BitVec.ofNat 8 (2 ^ (7 : Fin 8).val)) ∧
    gives reportDue .writeBackCycle (fun t => t.attn && (t.part.bank .input).recordShown) := by decide +kernel
/-- The notices item is shown at the report of the notice record, unless a set word is dirty again. -/
def noticesDue (dirty : BitVec 8) : State :=
  let s := withPart (fun p => { p with notices := 1, dirty := (Vector.replicate 73 0).set (recordIndex .notice).val dirty })
  { s with bus := { s.bus with list := [.notice], pass := none, snapshot := some 1 } }
theorem test_notices_item_is_shown :
    gives (noticesDue 1) .writeBackCycle (fun t => t.part.noticesShown && t.attn) ∧
    gives (noticesDue 3) .writeBackCycle (fun t => !t.part.noticesShown) := by decide +kernel
theorem test_fault_output : State.reset.part.faultOutput = true := by decide +kernel

/-! ## Commands -/

theorem test_command_codes :
    [commandCodeOf .configCommit, commandCodeOf .releaseEnd, commandCodeOf (.unknownCommand 9)] = [some 1, some 8, some 9] := by
  decide
theorem test_release_begin :
    gives (withCmd (fun u => { u with count := 127 })) .releaseBegin (fun t =>
      decide (t.part.cmd.release = .begun 0 ∧ t.part.cmd.count = 0 ∧ t.part.cmd.outcome = .done)) := by decide +kernel
/-- RELEASE_ZONES in the three states, at both ends of its argument's range. -/
theorem test_release_zones :
    gives (withArgs 1 0 0 State.reset) .releaseZones (fun t => decide (t.part.cmd.reason = some .sequence)) ∧
    gives (withArgs 63 0 0 (withCmd (fun u => { u with release := .begun 0 }))) .releaseZones (fun t =>
      decide (t.part.cmd.release = .zoned 0 63)) ∧
    gives (withArgs 64 0 0 (withCmd (fun u => { u with release := .begun 0 }))) .releaseZones (fun t =>
      decide (t.part.cmd.reason = some .badArg ∧ t.part.cmd.release = .idle)) ∧
    gives (withArgs 0 0 0 (withCmd (fun u => { u with release := .begun 0 }))) .releaseZones (fun t =>
      decide (t.part.cmd.reason = some .badArg ∧ t.part.cmd.release = .idle)) ∧
    gives (withArgs 1 0 0 (withCmd (fun u => { u with release := .zoned 0 1 }))) .releaseZones (fun t =>
      decide (t.part.cmd.reason = some .sequence ∧ t.part.cmd.release = .idle)) := by decide +kernel
/-- Zones 0 and 5 latched and named; the loop of zone 5 is in alarm in LEVEL mode. -/
def releaseHeld : State :=
  let s := withCmd (fun u => { u with release := .zoned 0 0x21 })
  let p := s.part.modZone 0 (fun x => { x with latch := true })
  { s with part := p.modZone 5 (fun x => { x with latch := true, loop := { x.loop with state := .alarm } }) }
theorem test_release_end :
    releaseHeld.part.cmd.release = .zoned 0 0x21 ∧
    gives releaseHeld .releaseEnd (fun t => decide (t.part.cmd.resultA = some 1 ∧ t.part.cmd.resultB = some 0x20 ∧
      (t.part.zone 0).latch = false ∧ (t.part.zone 5).latch = true)) := by decide +kernel
/-- R65: a loop change taken between zones 0 and 5 reaches zone 5 alone. -/
theorem test_loop_change_within_a_release :
    gives releaseHeld (.releaseEnd [⟨5, .zone 5, .normal⟩]) (fun t => decide (t.part.cmd.resultA = some 0x21)) ∧
    gives releaseHeld (.releaseEnd [⟨5, .zone 5, .normal⟩, ⟨5, .ga, .alarm⟩, ⟨3, .ga, .shortCircuit⟩]) (fun t =>
      decide (t.part.cmd.resultA = some 1 ∧ t.part.cmd.resultB = some 0x20 ∧ t.part.ga.state = .alarm ∧
        (t.part.bank .input).record = none)) := by decide +kernel
theorem test_release_end_out_of_turn :
    gives State.reset .releaseEnd (fun t => decide (t.part.cmd.reason = some .sequence)) ∧
    gives (withCmd (fun u => { u with release := .begun 0 })) .releaseEnd (fun t =>
      decide (t.part.cmd.reason = some .sequence ∧ (t.part.bank .gate).overflow = true)) := by decide +kernel
/-- R65: RELEASE_REFUSED names the zone. -/
theorem test_release_refused_is_recorded :
    gives releaseHeld .releaseEnd (fun t => decide ((t.part.bank .zone).record =
      some ⟨.notice, .releaseRefused, some (.zone 5), none⟩ ∧ (t.part.bank .zone).overflow = false)) := by decide +kernel
/-- R181: a sequence begun is abandoned before any other command is decided, DONE or refused. -/
theorem test_abandonment_comes_first :
    (let begun := withCmd (fun u => { u with release := .begun 0 });
      gives (withArgs 0 0 0 begun) .faultClear (fun t => decide ((t.part.bank .gate).record =
        some ⟨.notice, .releaseAbandoned, none, none⟩ ∧ (t.part.bank .gate).overflow = false)) ∧
      gives (withArgs 48 0 0 begun) .faultClear (fun t => decide ((t.part.bank .gate).record =
        some ⟨.notice, .releaseAbandoned, none, none⟩ ∧ (t.part.bank .gate).overflow = true)) ∧
      gives { begun with part := begun.part.modZone 0 (fun x => { x with latch := true }) } .configCommit (fun t =>
        decide ((t.part.bank .gate).record = some ⟨.fault, .commitRefused, none, some (.reason .smokeActive)⟩ ∧
          (t.part.bank .gate).overflow = true ∧ t.part.cmd.release = .idle))) := by decide +kernel
theorem test_release_timer :
    gives (withCmd (fun u => { u with release := .zoned 5 1 })) .releaseTimerExpiry (fun t =>
      decide (t.part.cmd.release = .idle ∧ t.part.now = 10005)) := by decide +kernel
theorem test_unknown_command :
    gives State.reset (.unknownCommand 0) (fun t => decide (t.part.cmd.reason = some .badArg)) ∧
    gives State.reset (.unknownCommand 9) (fun t => decide (t.part.cmd.reason = some .badArg)) := by decide +kernel
/-- A FAULTED channel at position 0, granted 0. -/
def faultedChannel : State := withChan 47 (fun c =>
  { c with motion := .faulted, fault := some (.refused 2), position := some 0, miss := 2 })
theorem test_fault_clear :
    gives (withArgs 47 0 0 faultedChannel) .faultClear (fun t => decide ((t.part.chan 47).motion = .idle ∧
      (t.part.chan 47).lastFault = some (.refused 2) ∧ (t.part.chan 47).miss = 0)) ∧
    gives (withArgs 255 0 0 faultedChannel) .faultClear (fun t => decide ((t.part.chan 47).motion = .idle)) ∧
    gives (withArgs 48 0 0 faultedChannel) .faultClear (fun t => decide (t.part.cmd.reason = some .badArg)) := by decide +kernel
/-- Line D QUIET, for the tests. -/
def quietLine : State := withLine 3 (fun x => { x with state := .quiet, clock := none })
/-- R18: on a line out of service the channel cleared becomes OFFLINE, and that is recorded. -/
theorem test_fault_clear_out_of_service :
    (let s := withArgs 255 0 0 faultedChannel;
      gives { s with part := s.part.modLine 3 (fun x => { x with state := .failed }) } .faultClear (fun t =>
        decide ((t.part.chan 47).motion = .offline ∧
          (t.part.bank .channel).record = some ⟨.fault, .channelOffline, some (.channel 47), none⟩))) := by decide +kernel
/-- R175 to R177: arguments that name no line, state, kind or target. -/
theorem test_line_commands_with_bad_arguments :
    [(4, 0, 0, Instr.lineStateRun), (0, 3, 0, .lineStateQuiet), (4, 2, 0, .lineStateDisabled), (4, 1, 0, .testStart),
      (3, 3, 0, .testStart), (3, 0, 0, .testStart), (3, 1, 13, .testStart), (4, 0, 0, .testStop)].all (fun c =>
        gives (withArgs c.1 c.2.1 c.2.2.1 quietLine) c.2.2.2 (fun t => decide (t.part.cmd.reason = some .badArg ∧
          t.part.lines = quietLine.part.lines ∧
          (t.part.bank .gate).record = some ⟨.notice, .commandRefused, none, some (.reason .badArg)⟩))) = true := by
  decide +kernel
theorem test_line_state_run :
    gives (withArgs 0 0 0 (withLine 0 (fun x => { x with state := .disabled }))) .lineStateRun (fun t =>
      decide ((t.part.line 0).state = .run)) ∧
    gives (withArgs 3 0 0 (withLine 3 (fun x => { x with state := .failed }))) .lineStateRun (fun t =>
      decide (t.part.cmd.reason = some .wrongState)) := by decide +kernel
/-- R126, R137: the window clock and the watch at the entry into RUN. -/
theorem test_line_state_run_clock_and_watch :
    (let s (f : Line → Line) : State :=
        let t := withArgs 0 0 0 (withLine 0 f)
        { t with part := { t.part with now := 70 } };
      gives (s (fun x => { x with state := .disabled, clock := none, watch := .off })) .lineStateRun (fun t =>
        decide ((t.part.line 0).clock = some 320 ∧ (t.part.line 0).watch = .stuck 70)) ∧
      [LineState.quieting, .quiet].all (fun st => gives (s (fun x =>
        { x with state := st, clock := some 99, watch := .stuck 5, exchange := some ⟨.query 0 true, 1, some 60⟩ })) .lineStateRun
          (fun t => decide ((t.part.line 0).clock = some 320 ∧ (t.part.line 0).watch = .stuck 5))) = true) := by decide +kernel
theorem test_line_state_quiet :
    gives (withArgs 3 1 0 State.reset) .lineStateQuiet (fun t => decide ((t.part.line 3).state = .quiet)) ∧
    gives (withArgs 0 1 0 (withLine 0 (inFlight (.query 0 false) 1 (some 0)))) .lineStateQuiet (fun t =>
      decide ((t.part.line 0).state = .quieting)) ∧
    gives (withArgs 0 1 0 (withZone 0 (fun x => { x with latch := true }))) .lineStateQuiet (fun t =>
      decide (t.part.cmd.reason = some .smokeActive)) := by decide +kernel
/-- R134: QUIET in QUIETING, with a channel still moving and at rest. -/
theorem test_line_state_quiet_in_quieting :
    (let s := withArgs 0 1 0 (withLine 0 (fun x => { x with state := .quieting }));
      gives { s with part := s.part.modChan 0 (fun c => { c with motion := .moving }) } .lineStateQuiet (fun t =>
        decide (t.part.cmd.outcome = .done ∧ (t.part.line 0).state = .quieting)) ∧
      gives s .lineStateQuiet (fun t => decide (t.part.cmd.outcome = .done ∧ (t.part.line 0).state = .quiet))) := by
  decide +kernel
theorem test_line_state_disabled :
    gives (withArgs 0 2 0 (withChan 0 (fun c => { c with motion := .idle, position := some 0 }))) .lineStateDisabled (fun t =>
      decide ((t.part.line 0).state = .disabled ∧ (t.part.chan 0).motion = .offline ∧
        (t.part.chan 0).position = none)) := by decide +kernel
theorem test_test_start :
    gives (withArgs 3 1 0 quietLine) .testStart (fun t => decide ((t.part.line 3).state = .test ∧
      (t.part.line 3).test.kind = some .sequence ∧ (t.part.line 3).test.target = some 0)) ∧
    gives (withArgs 3 2 12 quietLine) .testStart (fun t => decide ((t.part.line 3).test.target = some 12)) ∧
    gives (withArgs 0 2 12 quietLine) .testStart (fun t => decide (t.part.cmd.reason = some .wrongState)) := by decide +kernel
/-- R20, R149: DISABLED from TEST records TEST_ABORTED, and CHANNEL_OFFLINE of a working channel. -/
theorem test_line_state_disabled_records :
    (let s := withArgs 0 2 0 (withLine 0 (fun x => { x with state := .test }));
      gives { s with part := s.part.modChan 11 (fun c => { c with motion := .idle, governing := .smoke }) }
        .lineStateDisabled (fun t => decide (
          (t.part.bank (.line 0)).record = some ⟨.notice, .testAborted, some (.line 0), none⟩ ∧
          (t.part.bank .channel).record = some ⟨.safety, .channelOffline, some (.channel 11), none⟩))) := by decide +kernel
/-- R141: the last exchange of an older test is marked not to be counted. -/
theorem test_test_start_discards_the_old_exchange :
    (let s := withArgs 3 1 0 quietLine;
      gives { s with part := s.part.modLine 3 (inFlight (.test ones false) 2 (some 0)) } .testStart (fun t =>
        decide ((t.part.line 3).exchange = some ⟨.test ones true, 2, some 0⟩))) := by decide +kernel
theorem test_test_stop :
    gives (withArgs 0 0 0 (withLine 0 (fun x => { x with state := .test }))) .testStop (fun t =>
      decide ((t.part.line 0).state = .quiet ∧ (t.part.line 0).test.result = some .stopped)) ∧
    gives (withArgs 3 0 0 State.reset) .testStop (fun t => decide (t.part.cmd.reason = some .wrongState)) := by decide +kernel
theorem test_config_commit :
    (∀ z : ZoneId, (State.reset.part.zone z).latch = false) ∧ validate State.reset.part.cmd.pending = none ∧
    gives State.reset .configCommit (fun t => decide (t.part.cmd.generation = 1 ∧ t.part.cmd.outcome = .done)) := by
  decide +kernel
/-- R21: channel 0 kept by a commit that brings tolerance 10 and travel limit 120 in force. -/
def keptChannel (m : Motion) (position : Nat) (travel : Option Nat) : State :=
  withPart (fun p => (p.modChan 0 (fun c =>
    { c with motion := m, position := some position, travel := travel, cfg := { c.cfg with tolerance := 50, travelLimit := 600 } })).setWeather
      { p.weather with pulses := 9 })
theorem test_commit_reviews_a_kept_channel :
    gives (keptChannel .idle 11 none) .configCommit (fun t => decide ((t.part.chan 0).motion = .queued ∧
      t.part.weather.pulses = 9)) ∧
    gives (keptChannel .queued 10 none) .configCommit (fun t => decide ((t.part.chan 0).motion = .idle)) ∧
    gives (keptChannel .queued 500 (some 120)) .configCommit (fun t =>
      decide ((t.part.chan 0).fault = some (.travelTimeout 120))) ∧
    gives (keptChannel .moving 500 (some 120)) .configCommit (fun t => decide ((t.part.chan 0).motion = .halting)) ∧
    gives (keptChannel .moving 500 (some 119)) .configCommit (fun t => decide ((t.part.chan 0).motion = .moving)) := by
  decide +kernel
/-- R80, R81: wind window and rain-on delay changed by the commit. -/
theorem test_commit_of_weather_items :
    (let s := withPart (fun p => { p.setWeather { p.weather with pulses := 9, rainState := .wetting, rainFrom := some 0 } with
        now := 5000, globals := { p.globals with windWindow := 3, rainOnDelay := 6 } });
      gives s .configCommit (fun t => decide (t.part.weather.pulses = 0 ∧ t.part.weather.windowStart = 5000 ∧
        t.part.weather.rainState = .wet))) := by decide +kernel
/-- A loop whose default configuration comes into force at a commit. -/
def recommitted (fault : Bool) (x : LoopState) (timer : Option (FireMode × Nat)) : State :=
  withPart (fun p => { p.setGa ⟨⟨.pulse, fault⟩, x, timer⟩ with now := 70 })
/-- R46: the timers of a loop at a commit that changes its configuration, and of one it leaves alone. -/
theorem test_commit_of_loops :
    gives (recommitted true .alarm (some (.pulse, 5))) .configCommit (fun t =>
      decide (t.part.ga = ⟨⟨.level, false⟩, .alarm, some (.level, 70)⟩)) ∧
    gives (recommitted true .openCircuit (some (.pulse, 5))) .configCommit (fun t => decide (t.part.ga.timer = none)) ∧
    gives (recommitted true .alarm none) .configCommit (fun t => decide (t.part.ga.timer = none)) ∧
    gives (withPart (fun p => p.setGa ⟨⟨.level, false⟩, .alarm, some (.level, 5)⟩)) .configCommit (fun t =>
      decide (t.part.ga.timer = some (.level, 5))) := by decide +kernel
/-- R23, R132: a channel rebound by the commit is recorded; a supervision timer that has reached the new interval is due. -/
theorem test_commit_of_bindings_and_interval :
    gives (withChan 0 (fun c => { c with motion := .idle, cfg := { c.cfg with node := 13 } })) .configCommit (fun t =>
      decide ((t.part.chan 0).motion = .offline ∧ (t.part.bank .channel).overflow = false ∧
        (t.part.bank .channel).record = some ⟨.fault, .channelOffline, some (.channel 0), none⟩)) ∧
    (let s := withPart (fun p => { p.modChan 0 (fun c => { c with motion := .idle, supFrom := some 5, supDue := false }) with
        now := 10005, globals := { p.globals with supervisionInterval := 60 } });
      gives s .configCommit (fun t => (t.part.chan 0).supDue) ∧
      gives { s with part := { s.part with now := 10004 } } .configCommit (fun t => !(t.part.chan 0).supDue)) := by
  decide +kernel
/-- Channels 0 to 2 on line A at node 13, which the default configuration rebinds, at 40 ms: channel 0 FAULTED, channel 1 QUEUED
with its order and a retake, channel 2 under a query sent at an instant or still being sent. -/
def leavingChannels (sentAt : Option Nat) : State :=
  let old (m : Motion) (c : Channel) : Channel :=
    { c with motion := m, miss := 2, shortMark := true, lastFault := some (.refused 2), cfg := { c.cfg with node := 13 } }
  withPart (fun p => { (((p.modChan 0 (fun c => { old .faulted c with fault := some (.nodeFault 5) })).modChan 1 (old .queued)).modChan
    2 (old .idle)).modLine 0 (fun x => { inFlight (.query 2 false) 13 sentAt x with
      urgent := [orderTo 1 9 .urgent], retake := some (.move 1) }) with now := 40 })
/-- The pending copy takes channels 0 to 2 out of use. -/
def madeUnused (s : State) : State :=
  { s with part := s.part.setCmd { s.part.cmd with pending := ((s.part.cmd.pending.set 0 0).set 4 0).set 8 0 } }
/-- R22, R23, R125: the faults, the order and the exchange of channels that leave their line. -/
def leave (m : Motion) (free : Nat) (t : State) : Bool :=
  decide ((t.part.chan 0).lastFault = some (.nodeFault 5) ∧ (t.part.chan 0).fault = none ∧ (t.part.chan 0).motion = m ∧
    (t.part.chan 1).lastFault = some (.refused 2) ∧ (t.part.chan 1).shortMark = false ∧ (t.part.line 0).queued 1 = none ∧
    (t.part.line 0).retake = none ∧ (t.part.line 0).exchange = none ∧ (t.part.line 0).freeAt = free)
theorem test_commit_of_rebound_channels :
    gives (leavingChannels (some 35)) .configCommit (leave .offline 45) := by decide +kernel
theorem test_commit_of_channels_become_unused :
    gives (madeUnused (leavingChannels none)) .configCommit (leave .unused 50) := by decide +kernel
/-- R172: which failure is named: the lowest word out of range, else the lowest clash, else the storm limits. -/
theorem test_validation_names_the_first_failure :
    (let d := State.reset.part.cmd.pending;
      validate ((d.set 13 0).set 7 0) = some ⟨some 1, 0x207⟩ ∧
      validate (d.set 0xC0 9) = some ⟨none, 0x2C0⟩ ∧ validate ((d.set 0xD0 61).set 21 d[1]) = some ⟨none, 0x2D0⟩ ∧
      validate ((d.set 21 d[1]).set 0xC9 101) = some ⟨some 5, 0x215⟩ ∧
      validate (d.set 0xC9 101) = some ⟨none, 0x2C9⟩ ∧ validate (d.set 0xC9 100) = none) := by
  decide +kernel
theorem test_config_commit_refused :
    gives (withZone 5 (fun x => { x with latch := true })) .configCommit (fun t =>
      decide (t.part.cmd.reason = some .smokeActive)) ∧
    (let s := withCmd (fun u => { u with pending := u.pending.set 0 0xFFFF });
      (validate s.part.cmd.pending).isSome = true ∧
      gives s .configCommit (fun t => decide (t.part.cmd.reason = some .configInvalid ∧ t.part.cmd.resultA = some 0 ∧
        t.part.cmd.resultB = some 0x200))) := by decide +kernel

/-! ## Fire and weather -/

theorem test_loop_change :
    gives State.reset (.loopChange (.zone 5) .alarm) (fun t => decide ((t.part.zone 5).loop.timer = some (.level, 0))) ∧
    gives State.reset (.loopChange .ga .shortCircuit) (fun t => decide (t.part.ga.timer = none ∧
      (t.part.bank .input).record = some ⟨.fault, .loopShort, some .ga, none⟩)) := by decide +kernel
/-- A loop in alarm with its timer running. -/
def alarmLoop (m : FireMode) : FireLoop := ⟨⟨m, false⟩, .alarm, some (m, 0)⟩
theorem test_level_timer :
    gives (withPart (fun p => p.setGa (alarmLoop .level))) (.levelTimerExpiry .ga) (fun t =>
      decide (t.part.now = 200 ∧ (∀ z : ZoneId, (t.part.zone z).latch = true) ∧ (t.part.zone 5).remaining = some 60 ∧
        (t.part.chan 0).governing = .smoke)) := by decide +kernel
theorem test_pulse_timer :
    gives (withZone 5 (fun x => { x with loop := alarmLoop .pulse })) (.pulseTimerExpiry (.zone 5)) (fun t =>
      decide (t.part.now = 50 ∧ (t.part.zone 5).latch = true ∧ (t.part.zone 4).latch = false)) := by decide +kernel
/-- Zone 0 latched, its deadline running, its channels not arrived. -/
def burning (d : Deadline) (r : Option Nat) (count : Nat) : State :=
  withPart (fun p => (p.modZone 0 (fun x =>
    { x with latch := true, deadline := d, remaining := r, overrun := count, overrunRunning := true })).modChan 0
      (fun c => { c with governing := .smoke, granted := some 1000 }))
theorem test_completeness :
    gives (burning .running (some 9) 0) (.completenessJudgement 0) (fun t =>
      decide ((t.part.zone 0).complete = false ∧ (t.part.zone 0).deadline = .running)) ∧
    gives (withZone 5 (fun x => { x with latch := true, deadline := .running, remaining := some 9 }))
      (.completenessJudgement 5) (fun t => decide ((t.part.zone 5).deadline = .met ∧ (t.part.zone 5).indicator = true)) := by
  decide +kernel
theorem test_deadline_second :
    gives (burning .running (some 2) 0) (.deadlineSecond 0) (fun t => decide ((t.part.zone 0).remaining = some 1)) ∧
    gives (burning .running (some 1) 0) (.deadlineSecond 0) (fun t => decide ((t.part.zone 0).deadline = .missed)) := by
  decide +kernel
theorem test_deadline_expiry :
    (burning .running (some 1) 0).part.zoneComplete 0 = false ∧
    gives (burning .running (some 1) 0) (.deadlineExpiry 0) (fun t => decide ((t.part.zone 0).deadline = .missed ∧
      (t.part.bank .zone).record = some ⟨.safety, .deadlineMissed, some (.zone 0), none⟩)) := by decide +kernel
theorem test_overrun_saturates :
    gives (burning .missed none 65534) (.overrunSecond 0) (fun t => decide ((t.part.zone 0).overrun = 65535)) ∧
    gives (burning .missed none 65535) (.overrunSecond 0) (fun t => decide ((t.part.zone 0).overrun = 65535)) := by
  decide +kernel
/-- A wind window with a pulse count. -/
def windy (k run : Nat) (storm : Bool) : State :=
  withPart (fun p => p.setWeather { p.weather with pulses := k, setRun := run, clearRun := run, storm := storm })
theorem test_pulse_count_saturates :
    gives (windy 65535 0 false) .anemometerPulse (fun t => decide (t.part.weather.pulses = 65535)) ∧
    gives (windy 65534 0 false) .anemometerPulse (fun t => decide (t.part.weather.pulses = 65535)) := by decide +kernel
theorem test_storm_limits :
    gives (windy 100 2 false) (.windowEnd 0 .stormSmokeSector) (fun t => t.part.weather.storm) ∧
    gives (windy 99 2 false) (.windowEnd 0 .sectorSmokeStorm) (fun t => !t.part.weather.storm) ∧
    gives (windy 60 29 true) (.windowEnd 0 .smokeStormSector) (fun t => t.part.weather.storm) ∧
    gives (windy 59 29 true) (.windowEnd 7 .smokeSectorStorm) (fun t => decide (t.part.weather.storm = false ∧
      t.part.weather.lastSample = some 5)) := by decide +kernel
/-- The rain debounce in a state with its timer. -/
def raining (r : RainState) : State :=
  withPart (fun p => p.setWeather { p.weather with rainState := r, rainFrom := some 0 })
theorem test_rain_contact :
    gives State.reset (.rainContactChange true) (fun t => decide (t.part.weather.rainFrom = some 0)) ∧
    gives (raining .wetting) (.rainContactChange false) (fun t => decide (t.part.weather.rainState = .dry)) ∧
    gives (raining .wet) (.rainContactChange false) (fun t => decide (t.part.weather.rainState = .drying)) ∧
    gives (raining .drying) (.rainContactChange true) (fun t => decide (t.part.weather.rainState = .wet)) := by decide +kernel
theorem test_rain_timer :
    gives (raining .wetting) .rainTimerExpiry (fun t => t.part.weather.rain && decide (t.part.now = 5000)) ∧
    gives (raining .drying) .rainTimerExpiry (fun t => !t.part.weather.rain && decide (t.part.now = 300000)) := by
  decide +kernel

/-! ## Field lines -/

theorem test_transaction_start_supervises_the_lowest :
    gives State.reset (.transactionStart 3) (fun t => decide ((t.part.line 3).exchange = some ⟨.query 36 false, 1, none⟩)) := by
  decide +kernel
/-- R130: an URGENT order before a due poll, a due poll before a ROUTINE order. -/
theorem test_transaction_order :
    (let s := withPart (fun p => (p.modChan 1 (fun c => { c with motion := .moving, pollDue := true })).modLine 0
        (fun x => { x with urgent := [orderTo 2 1000 .urgent], routine := [orderTo 3 0 .routine] }));
      gives s (.transactionStart 0) (fun t => decide ((t.part.chan 2).motion = .ordering ∧ (t.part.line 0).urgent = []))) ∧
    (let s := withPart (fun p => (p.modChan 1 (fun c => { c with motion := .moving, pollDue := true })).modLine 0
        (fun x => { x with routine := [orderTo 3 0 .routine] }));
      gives s (.transactionStart 0) (fun t => decide ((t.part.line 0).exchange = some ⟨.query 1 true, 2, none⟩))) := by
  decide +kernel
/-- R127, R130 to R132: the retake first, the first order without backoff, the polls in turn; in QUIETING a HALT only. -/
theorem test_transaction_choices :
    (let s := withPart (fun p => (p.modChan 5 (fun c => { c with motion := .idle })).modLine 0 (fun x =>
        { x with retake := some (.supervise 5), urgent := [orderTo 2 1000 .urgent] }));
      gives s (.transactionStart 0) (fun t => decide ((t.part.line 0).exchange = some ⟨.query 5 false, 6, none⟩ ∧
        (t.part.line 0).retake = none))) ∧
    gives (withLine 0 (fun x =>
        { x with urgent := [{ orderTo 1 9 .urgent with backoff := some 0 }, orderTo 2 9 .urgent, orderTo 3 9 .urgent] }))
      (.transactionStart 0) (fun t => decide ((t.part.chan 2).motion = .ordering)) ∧
    (let s := withPart (fun p => ((p.modChan 1 (fun c => { c with motion := .moving, pollDue := true })).modChan 4
        (fun c => { c with motion := .moving, pollDue := true })).modLine 0 (fun x => { x with pollPos := some 4 }));
      gives s (.transactionStart 0) (fun t => decide ((t.part.line 0).pollPos = some 1)))  ∧
    (let s := withPart (fun p => (p.modChan 2 (fun c => { c with motion := .halting })).modLine 0 (fun x =>
        { x with state := .quieting, urgent := [orderTo 1 9 .urgent, haltOf 2] }));
      gives s (.transactionStart 0) (fun t => decide ((t.part.line 0).wire = (Frame.halt 3).bytes))) ∧
    gives (withLine 0 (fun x => { x with receiving := true })) (.transactionStart 0) (fun t =>
      decide ((t.part.line 0).exchange = none)) := by decide +kernel
theorem test_send_of_an_order :
    gives (withLine 0 (inFlight (.order (orderTo 0 500 .urgent)) 1 none)) (.send 0) (fun t =>
      decide ((t.part.chan 0).travel = some 0 ∧ ((t.part.line 0).exchange.map (fun e => e.sentAt)) = some (some 0))) := by
  decide +kernel
theorem test_reply_timeout_of_the_third_query :
    (let s := withPart (fun p => (p.modChan 0 (fun c => { c with motion := .idle, miss := 2, position := some 5 })).modLine 0
        (inFlight (.query 0 false) 1 (some 0)));
      gives s (.replyTimeout 0) (fun t => decide ((t.part.chan 0).motion = .offline ∧ (t.part.chan 0).miss = 3 ∧
        t.part.now = 10))) := by decide +kernel
theorem test_damaged_frame_on_the_last_retry :
    gives (withLine 0 (inFlight (.order { orderTo 0 500 .urgent with retriesLeft := 1 }) 1 (some 0))) (.damagedFrame 0)
      (fun t => decide ((t.part.chan 0).fault = some (.checkError 3))) ∧
    gives (withLine 0 (inFlight (.order { orderTo 0 500 .urgent with retriesLeft := 2 }) 1 (some 0))) (.damagedFrame 0)
      (fun t => decide ((t.part.chan 0).motion = .queued ∧
        (t.part.line 0).urgent = [{ orderTo 0 500 .urgent with retriesLeft := 1 }])) := by decide +kernel
/-- R107, R123: a valid frame of another kind or address ends an ORDER as a failure. -/
theorem test_unexpected_frame_on_the_last_retry :
    (let s := withLine 0 (inFlight (.order { orderTo 0 500 .urgent with retriesLeft := 1 }) 1 (some 0));
      [Instr.accept 0 2, .busy 0 2, .refuse 0 2 1, .status 0 1 500 0 0, .testEcho 0 1 [1, 2, 3, 4, 5, 6, 7, 8] true,
        .key 0 13 1 1 true].all (fun c => gives s c (fun t => decide ((t.part.chan 0).fault = some (.noResponse 3) ∧
          (t.part.line 0).freeAt = 2 ∧
          (t.part.bank (.line 0)).record = some ⟨.notice, .unexpectedFrame, some (.channel 0), none⟩)))) = true := by
  decide +kernel
theorem test_failed_halt :
    gives (withLine 0 (inFlight (.order { haltOf 0 with retriesLeft := 1 }) 1 (some 0))) (.replyTimeout 0)
      (fun t => decide ((t.part.chan 0).fault = some (.haltUnconfirmed 3))) := by decide +kernel
/-- Channel 0 MOVING to 500 under a poll in flight. -/
def movingPolled (short : Bool) : State :=
  withPart (fun p => (p.modChan 0 (fun c =>
    { c with motion := .moving, accepted := some 500, travel := some 3, notifyWord := 1, granted := some 500,
             shortMark := short })).modLine 0 (inFlight (.query 0 true) 1 (some 0)))
/-- Tolerance 10: 510 completes, 511 is a short stop. -/
theorem test_status_of_a_moving_channel :
    gives (movingPolled false) (.status 0 1 510 0 0) (fun t => decide ((t.part.chan 0).motion = .idle ∧
      t.part.notices = 1)) ∧
    gives (movingPolled false) (.status 0 1 511 0 0) (fun t => decide ((t.part.chan 0).motion = .queued ∧
      (t.part.chan 0).shortMark = true)) ∧
    gives (movingPolled true) (.status 0 1 0xFFFF 0 0) (fun t =>
      decide ((t.part.chan 0).fault = some (.shortTravel none))) ∧
    gives (movingPolled false) (.status 0 1 500 0 1) (fun t => decide ((t.part.chan 0).fault = some (.nodeFault 1))) := by
  decide +kernel
theorem test_status_acquires :
    gives (withLine 0 (inFlight (.query 0 false) 1 (some 0))) (.status 0 1 10 4 0) (fun t =>
      decide ((t.part.chan 0).motion = .idle ∧ (t.part.chan 0).position = some 10)) ∧
    gives (withLine 0 (inFlight (.order (haltOf 0)) 1 (some 0))) (.status 0 1 1000 2 7) (fun t =>
      decide ((t.part.chan 0).fault = some (.travelTimeout 120))) := by decide +kernel
theorem test_accept :
    gives (withLine 0 (inFlight (.order (orderTo 0 500 .routine)) 1 (some 0))) (.accept 0 1) (fun t =>
      decide ((t.part.chan 0).motion = .moving ∧ (t.part.chan 0).accepted = some 500)) ∧
    gives State.reset (.accept 0 1) (fun t => decide ((t.part.bank (.line 0)).record =
      some ⟨.notice, .unexpectedFrame, some (.line 0), none⟩)) := by decide +kernel
/-- R124: frames with nothing in flight. -/
theorem test_unsolicited_frames :
    [(Instr.status 0 1 500 0 0, ErrorKind.unexpectedFrame), (.status 0 1 500 3 0, .checkError), (.damagedFrame 0, .checkError),
      (.testEcho 0 1 [1] false, .checkError), (.testEcho 0 1 [1, 2, 3, 4, 5, 6, 7, 8] true, .unexpectedFrame),
      (.key 0 13 1 1 true, .unexpectedFrame)].all (fun c => gives State.reset c.1 (fun t => decide (
        (t.part.bank (.line 0)).record = some ⟨.notice, c.2, some (.line 0), none⟩ ∧ (t.part.line 0).freeAt = 2))) = true := by
  decide +kernel
/-- R125: a frame heard in the wait after an abandonment does not cut the wait short. -/
theorem test_frame_in_the_wait :
    gives (withLine 0 (fun x => { x with freeAt := 10 })) (.accept 0 1) (fun t => decide ((t.part.line 0).freeAt = 10)) ∧
    gives (withLine 0 (fun x => { x with freeAt := 10 })) (.key 0 14 1 1 true) (fun t =>
      decide ((t.part.line 0).freeAt = 10 ∧ (t.part.line 0).answer = some ⟨14, true⟩)) := by decide +kernel
theorem test_busy :
    gives (withLine 0 (inFlight (.order (orderTo 0 500 .routine)) 1 (some 0))) (.busy 0 1) (fun t =>
      decide ((t.part.line 0).routine = [{ orderTo 0 500 .routine with backoff := some 0 }])) := by decide +kernel
theorem test_refuse :
    gives (withLine 0 (inFlight (.order (orderTo 0 500 .routine)) 1 (some 0))) (.refuse 0 1 3) (fun t =>
      decide ((t.part.chan 0).fault = some (.refused 3))) ∧
    gives (withLine 0 (inFlight (.order (haltOf 0)) 1 (some 0))) (.refuse 0 1 3) (fun t =>
      decide ((t.part.chan 0).fault = some (.haltUnconfirmed 3))) := by decide +kernel
theorem test_key :
    gives State.reset (.key 0 14 0x20 1 true) (fun t => decide ((t.part.zone 5).override = some ⟨.opens, 0, 14⟩ ∧
      (t.part.line 0).answer = some ⟨14, true⟩ ∧ (t.part.chan 40).governing = .manual)) ∧
    gives State.reset (.key 0 15 0xC0 3 true) (fun t => decide ((t.part.line 0).answer = some ⟨15, false⟩ ∧
      (t.part.bank (.line 0)).record.isSome = true)) := by decide +kernel
theorem test_key_in_flight_and_out_of_service :
    gives (withLine 0 (inFlight (.query 0 false) 1 (some 0))) (.key 0 14 1 2 false) (fun t =>
      decide ((t.part.zone 0).override = some ⟨.closes, 0, 14⟩ ∧ (t.part.line 0).exchange = none)) ∧
    gives (withLine 0 (fun x => { x with state := .failed })) (.key 0 14 1 2 false) (fun t =>
      decide ((t.part.zone 0).override = none)) := by decide +kernel
theorem test_station_answer :
    gives (withLine 0 (fun x => { x with answer := some ⟨14, false⟩, freeAt := 2 })) (.stationAnswer 0) (fun t =>
      decide ((t.part.line 0).answer = none ∧ t.part.now = 2 ∧ (t.part.line 0).wire = (Frame.refuse 14 4).bytes)) := by
  decide +kernel
theorem test_backoff_end :
    gives (withLine 0 (fun x => { x with routine := [{ orderTo 0 500 .routine with backoff := some 0 }] })) (.backoffEnd 0)
      (fun t => decide (t.part.queuedOf 0 = some (orderTo 0 500 .routine) ∧ t.part.now = 50)) := by decide +kernel
/-- Channel 0 with its travel timer in a motion state. -/
def travelling (m : Motion) (e : Nat) : State := withChan 0 (fun c => { c with motion := m, travel := some e, accepted := some 9 })
theorem test_travel_second :
    gives (travelling .moving 118) (.travelSecond 0) (fun t => decide ((t.part.chan 0).travel = some 119)) ∧
    gives (travelling .queued 119) (.travelSecond 0) (fun t =>
      decide ((t.part.chan 0).fault = some (.travelTimeout 120))) := by decide +kernel
theorem test_travel_expiry :
    gives (travelling .moving 119) (.travelExpiry 0) (fun t => decide ((t.part.chan 0).motion = .halting ∧
      (t.part.line 0).urgent = [haltOf 0])) ∧
    (let s := travelling .ordering 119;
      gives { s with part := s.part.modLine 0 (inFlight (.order (orderTo 0 9 .urgent)) 1 (some 0)) } (.travelExpiry 0)
        (fun t => decide ((t.part.chan 0).motion = .faulted ∧ (t.part.line 0).exchange = none ∧
          (t.part.line 0).freeAt = 10))) := by decide +kernel
theorem test_due_polls_and_supervisions :
    gives (withChan 0 (fun c => { c with motion := .moving, pollFrom := some 0 })) (.pollDue 0) (fun t =>
      (t.part.chan 0).pollDue && decide (t.part.now = 200)) ∧
    gives (withChan 0 (fun c => { c with supDue := false })) (.supervisionDue 0) (fun t =>
      (t.part.chan 0).supDue && decide (t.part.now = 10000)) := by decide +kernel
theorem test_station_window :
    gives State.reset (.stationWindowDue 0) (fun t => decide ((t.part.line 0).window = .inForce 250 ∧
      (t.part.line 0).clock = some 500)) ∧
    gives (withLine 0 (inFlight (.query 0 false) 1 none)) (.stationWindowDue 0) (fun t =>
      decide ((t.part.line 0).window = .due)) ∧
    gives (withLine 0 (fun x => { x with window := .inForce 250 })) (.stationWindowEnd 0) (fun t =>
      decide ((t.part.line 0).window = .none ∧ t.part.now = 270)) := by decide +kernel
/-- R126: a due window begins when the line is free after the exchange, or after the frame that won the line. -/
theorem test_due_window_begins :
    gives (withLine 0 (fun x => { inFlight (.query 0 false) 1 (some 0) x with window := .due })) (.replyTimeout 0) (fun t =>
      decide ((t.part.line 0).window = .inForce 10)) ∧
    gives (withLine 0 (fun x => { inFlight (.test ones false) 1 (some 0) x with state := .test, window := .due }))
      (.testEcho 0 1 [1] false) (fun t => decide ((t.part.line 0).window = .inForce 2)) ∧
    gives (withLine 0 (fun x => { inFlight (.query 0 false) 1 none x with window := .due })) (.arbitrationLoss 0 .lead ones)
      (fun t => decide ((t.part.line 0).window = .due ∧ (t.part.line 0).receiving = true)) ∧
    gives (withPart (fun p => { p.modLine 0 (fun x => { x with window := .due, receiving := true }) with now := 7 }))
      (.key 0 15 1 1 true) (fun t => decide ((t.part.line 0).window = .inForce 9 ∧ (t.part.line 0).receiving = false)) := by
  decide +kernel
theorem test_line_stuck :
    gives (withChan 0 (fun c => { c with motion := .idle, position := some 0 })) (.lineStuck 0) (fun t =>
      decide ((t.part.line 0).state = .failed ∧ (t.part.chan 0).motion = .offline ∧ t.part.now = 100 ∧
        (t.part.bank .channel).record = some ⟨.fault, .channelOffline, some (.channel 0), none⟩)) := by decide +kernel
theorem test_stuck_line_in_test :
    gives (withPart (fun p => (p.modLine 0 (fun x => { x with state := .test })).setBank (.line 0)
        { p.bank (.line 0) with enable := 2 })) (.lineStuck 0) (fun t =>
      decide ((t.part.bank (.line 0)).record = some ⟨.fault, .lineFailed, some (.line 0), none⟩ ∧
        (t.part.bank (.line 0)).overflow = true ∧ (t.part.bank (.line 0)).counter = 2 ∧
        (t.part.line 0).test.result = some .aborted)) := by decide +kernel
theorem test_line_recovery :
    gives (withLine 0 (fun x => { x with state := .failed, watch := .recovery 0 })) (.lineRecovery 0) (fun t =>
      decide ((t.part.line 0).state = .run ∧ t.part.now = 1000)) := by decide +kernel
/-- Line A under a test frame of its record. -/
def testing (node : BitVec 4) (sentAt : Option Nat) (errors : Nat) : State :=
  withLine 0 (fun x => { inFlight (.test ones false) node sentAt x with
    state := .test, test := { x.test with kind := some .pattern, target := some node, errors := errors } })
theorem test_test_frame_start :
    (let s := testing 3 none 0;
      gives { s with part := s.part.modLine 0 (fun x => { x with exchange := none }) } (.testFrameStart 0) (fun t =>
        decide ((t.part.line 0).exchange = some ⟨.test (Vector.replicate 8 0) false, 3, none⟩))) := by decide +kernel
/-- Line A in TEST, free, with a record. -/
def testReady (f : LineTest → LineTest) : State := withLine 0 (fun x => { x with state := .test, test := f x.test })
/-- R142: the second SEQUENCE frame begins with bit 64 of the sequence; a PATTERN frame carries the pattern words. -/
theorem test_test_frame_bytes :
    gives (testReady (fun r => { r with kind := some .sequence, target := some 0, seq := seqAdvance 64 0b1111111 }))
      (.testFrameStart 0) (fun t => decide ((t.part.line 0).wire.take 4 = [0x70, 0x1C, 0x49, 0xB5])) ∧
    gives (testReady (fun r =>
        { r with kind := some .pattern, target := some 12, pattern := #v[0x0102, 0x0304, 0x0506, 0x0708] }))
      (.testFrameStart 0) (fun t => decide ((t.part.line 0).exchange = some ⟨.test ones false, 12, none⟩)) := by
  decide +kernel
theorem test_local_echo :
    gives (testing 0 none 0) (.localEchoCheck 0 ones) (fun t => decide ((t.part.line 0).test.errors = 0 ∧
      (t.part.line 0).test.frames = 1)) ∧
    gives (testing 0 none 255) (.localEchoCheck 0 #v[1, 2, 3, 4, 5, 6, 7, 9]) (fun t =>
      decide ((t.part.line 0).test.errors = 255 ∧ (t.part.line 0).test.pair = some (8, 9))) := by decide +kernel
theorem test_node_echo :
    gives (testing 3 (some 0) 0) (.testEcho 0 3 [1, 2, 9] false) (fun t => decide ((t.part.line 0).test.errors = 6 ∧
      (t.part.line 0).test.pair = some (8, 0xFF))) ∧
    gives (testing 3 (some 0) 0) (.missingEcho 0) (fun t => decide ((t.part.line 0).test.errors = 8 ∧ t.part.now = 10)) := by
  decide +kernel
/-- R145: another frame is a missing echo and is taken for what it is. -/
theorem test_other_frame_for_an_echo :
    gives (testing 3 (some 0) 0) (.accept 0 3) (fun t => decide ((t.part.line 0).test.errors = 8 ∧
      (t.part.bank (.line 0)).record = some ⟨.notice, .unexpectedFrame, some (.line 0), none⟩)) ∧
    gives (testing 3 (some 0) 0) (.testEcho 0 4 [1] false) (fun t => decide ((t.part.line 0).test.frames = 1 ∧
      (t.part.bank (.line 0)).record = some ⟨.notice, .checkError, some (.line 0), none⟩)) ∧
    gives (testing 3 (some 0) 0) (.key 0 14 1 1 true) (fun t => decide ((t.part.line 0).test.errors = 8 ∧
      (t.part.line 0).answer = some ⟨14, true⟩ ∧ (t.part.zone 0).override = some ⟨.opens, 0, 14⟩)) := by decide +kernel
theorem test_arbitration_loss :
    gives (withLine 0 (inFlight (.order (orderTo 0 500 .routine)) 1 none)) (.arbitrationLoss 0 .lead ones) (fun t =>
      decide ((t.part.line 0).retake = some (.move 0) ∧ (t.part.line 0).routine = [orderTo 0 500 .routine])) ∧
    gives (testing 3 none 247) (.arbitrationLoss 0 (.pattern 0) ones) (fun t =>
      decide ((t.part.line 0).test.errors = 255 ∧ (t.part.line 0).test.frames = 1)) ∧
    gives (testing 3 none 0) (.arbitrationLoss 0 .lead ones) (fun t => decide ((t.part.line 0).test.frames = 0)) := by
  decide +kernel
/-- R143: a test frame lost in its third pattern byte, and in its CRC byte, with another byte read back in the second. -/
theorem test_arbitration_loss_is_counted_exactly :
    (let back : Pattern := #v[1, 9, 3, 4, 5, 6, 7, 8];
      gives (testing 3 none 0) (.arbitrationLoss 0 (.pattern 2) back) (fun t => decide ((t.part.line 0).test.errors = 7 ∧
        (t.part.line 0).test.pair = some (8, 0xFF) ∧
        (t.part.line 0).test.seq = seqAdvance 64 ((testing 3 none 0).part.line 0).test.seq)) ∧
      gives (testing 3 none 0) (.arbitrationLoss 0 .crc back) (fun t => decide ((t.part.line 0).test.errors = 1 ∧
        (t.part.line 0).test.pair = some (2, 9))) ∧
      gives (testing 3 none 0) (.arbitrationLoss 0 .crc ones) (fun t => decide ((t.part.line 0).test.errors = 0 ∧
        (t.part.line 0).test.pair = none ∧ (t.part.line 0).test.frames = 1))) := by decide +kernel
/-- R127, R128: an answer lost, and a loss with nothing being sent. -/
theorem test_arbitration_loss_of_an_answer :
    gives (withLine 0 (fun x => { x with answer := some ⟨14, true⟩, receiver := .discarding })) (.arbitrationLoss 0 .crc ones)
      (fun t => decide ((t.part.line 0).answer = none ∧ (t.part.line 0).receiving = true ∧
        (t.part.line 0).receiver = .looking)) ∧
    gives State.reset (.arbitrationLoss 0 .lead ones) (fun t => decide (t.part = State.reset.part)) := by decide +kernel
theorem test_status_with_motion_3_is_damaged :
    parseFrame (Frame.status 1 500 3 0).bytes = none ∧ parseFrame (Frame.status 1 500 2 0).bytes = some (.status 1 500 2 0) ∧
    gives (withLine 0 (inFlight (.query 0 false) 1 (some 0))) (.status 0 1 500 3 0) (fun t =>
      decide ((t.part.bank (.line 0)).record = some ⟨.notice, .checkError, some (.channel 0), none⟩)) := by decide +kernel

/-! ## The receiver -/

/-- R120: a DAMAGED_FRAME is a reception that the receiver does not take for a valid frame; the default has a bad CRC. -/
theorem test_damaged_frame_of_a_valid_frame_is_ill_formed :
    (Instr.damagedFrame 0 ⟨.idle, (Frame.accept 1).bytes, .recessive⟩).wellFormed = false ∧
    (Instr.damagedFrame 0).wellFormed = true ∧ (Frame.accept 1).bytes ≠ badCrcReception.bytes ∧
    readReception badCrcReception = ⟨.damaged, .looking⟩ := by decide +kernel
/-- Line A with an ORDER to node 1 sent, and a receiver; line B for the receptions with nothing in flight. -/
def hearing (r : Receiver) : State :=
  withLine 0 (fun x => { inFlight (.order (orderTo 0 500 .urgent)) 1 (some 0) x with receiver := r })
/-- R120, R123: an ACCEPT that is cut by a dominant stop bit, or by 1 ms recessive, or has a kind code of none, is damaged. -/
theorem test_ways_to_be_damaged :
    [(Reception.mk .idle [0xA1] (.dominantStop 0), Receiver.waiting), (⟨.idle, [0xA1], .recessive⟩, .looking),
      (⟨.short, [0x21, 5], .recessive⟩, .discarding), (⟨.none, [], .dominantStop 0xA1⟩, .waiting)].all (fun c =>
        gives (hearing .looking) (.damagedFrame 0 c.1) (fun t => decide ((t.part.line 0).receiver = c.2 ∧
          (t.part.line 0).exchange = none ∧ (t.part.bank (.line 0)).record =
            some ⟨.notice, .checkError, some (.channel 0), none⟩))) = true := by decide +kernel
/-- R120: a waiting receiver finds nothing before the line is recessive, a discarding one nothing before it is so for 1 ms. -/
theorem test_receiver_that_hears_nothing :
    [(Receiver.waiting, Reception.mk .none (Frame.accept 1).bytes (.dominantStop 0), Receiver.waiting),
      (.waiting, ⟨.none, [0xA1], .recessive⟩, .looking), (.discarding, ⟨.none, [], .dominantStop 0⟩, .discarding),
      (.discarding, ⟨.short, (Frame.accept 1).bytes, .recessive⟩, .discarding)].all (fun c =>
        gives (hearing c.1) (.damagedFrame 0 c.2.1) (fun t => decide ((t.part.line 0).receiver = c.2.2 ∧
          (t.part.line 0).exchange = ((hearing c.1).part.line 0).exchange ∧ t.part.chans = (hearing c.1).part.chans))) = true ∧
    (Receiver.waiting.hear ⟨.short, [0xA1], .recessive⟩).found = .damaged ∧
    (Receiver.discarding.hear ⟨.idle, [0xA1], .recessive⟩).found = .damaged := by decide +kernel
/-- R120: after the unused kind code 2, receptions less than 1 ms apart are discarded, one after another; the first after 1 ms
recessive is read. -/
theorem test_discard_until_one_millisecond_recessive :
    let discarding := (readReception ⟨.idle, [0x21], .recessive⟩).after
    let again := (discarding.hear ⟨.short, [0xA1, 0], .recessive⟩).after
    again.hear ⟨.short, [0xA1, 0], .recessive⟩ = ⟨.nothing, .discarding⟩ ∧
    again.hear ⟨.idle, [0xA1, 0], .recessive⟩ = ⟨.damaged, .looking⟩ := by decide +kernel
/-- A reception that is a valid frame is its row's, a KEY frame with the transaction's result first. -/
theorem test_reception_of_a_valid_frame :
    rowOf 0 (.accept 1) = some (.accept 0 1) ∧
    (Receiver.looking.hear ⟨.idle, (Frame.accept 1).bytes, .recessive⟩).found = .frame (.accept 1) ∧
    gives (hearing .looking) (.damagedFrame 0 ⟨.idle, (Frame.accept 1).bytes, .recessive⟩) (fun t =>
      decide ((t.part.chan 0).motion = .moving)) ∧
    gives (hearing .looking) (.damagedFrame 0 ⟨.idle, (Frame.key 14 1 1).bytes, .recessive⟩) (fun t =>
      decide ((t.part.line 0).answer = some ⟨14, true⟩ ∧ (t.part.chan 0).motion = .queued)) := by decide +kernel
/-- R120, R135: while the controller sends, and on a DISABLED line, nothing is heard. -/
theorem test_reception_unheard :
    gives (withLine 0 (fun x => { inFlight (.query 0 false) 1 none x with receiver := .waiting })) (.damagedFrame 0) (fun t =>
      decide ((t.part.line 0).receiver = .waiting)) ∧
    gives (withLine 0 (fun x => { x with state := .disabled, receiver := .discarding })) (.damagedFrame 0) (fun t =>
      decide ((t.part.line 0).receiver = .discarding ∧ (t.part.bank (.line 0)).record = none)) := by decide +kernel
/-- R145: what was received of a damaged echo is compared, the byte whose stop bit read dominant among it. -/
theorem test_damaged_echo_by_reception :
    (Receiver.looking.hear ⟨.idle, [0x73, 1, 2], .dominantStop 9⟩) = ⟨.damagedEcho 3 [1, 2, 9], .waiting⟩ ∧
    gives (testing 3 (some 0) 0) (.damagedFrame 0 ⟨.idle, [0x73, 1, 2], .dominantStop 9⟩) (fun t =>
      decide ((t.part.line 0).test.errors = 6 ∧ (t.part.line 0).test.pair = some (8, 0xFF))) ∧
    gives (testing 3 (some 0) 0) (.damagedFrame 0 ⟨.idle, [0x74, 1, 2], .recessive⟩) (fun t =>
      decide ((t.part.line 0).test.errors = 8 ∧ (t.part.bank (.line 0)).record.isSome = true)) := by decide +kernel
/-- Line A in a state at 300 ms, its watch from 0. -/
def watched (state : LineState) (w : Watch) : State :=
  withPart (fun p => { p.modLine 0 (fun x => { x with state := state, watch := w }) with now := 300 })
/-- R136, R137: a frame heard sets either measure back, and a KEY frame too that a FAILED line does not take; a reception in which
the line stays dominant sets back the recovery measure alone. -/
theorem test_measures_are_set_back :
    [Instr.status 0 1 500 0 0, .accept 0 1, .busy 0 1, .refuse 0 1 1, .key 0 14 1 1 true, .testEcho 0 1 [1] false,
      .damagedFrame 0].all (fun c =>
        gives (watched .failed (.recovery 0)) c (fun t => decide ((t.part.line 0).watch = .recovery 300)) &&
        gives (watched .run (.stuck 0)) c (fun t => decide ((t.part.line 0).watch = .stuck 300))) = true ∧
    gives (watched .failed (.recovery 0)) (.damagedFrame 0 ⟨.none, [], .dominantStop 0⟩) (fun t =>
      decide ((t.part.line 0).watch = .recovery 300)) ∧
    gives (watched .run (.stuck 0)) (.damagedFrame 0 ⟨.none, [], .dominantStop 0⟩) (fun t =>
      decide ((t.part.line 0).watch = .stuck 0)) := by decide +kernel
theorem test_frames_of_the_part_set_the_measure_back :
    (let s (sentAt : Option Nat) := { hearing .waiting with part := { (withLine 0 (fun x => { inFlight (.query 0 false) 1 sentAt x
        with receiver := .waiting })).part with now := 40 } };
      gives (s none) (.send 0) (fun t => decide ((t.part.line 0).watch = .stuck 40 ∧ (t.part.line 0).receiver = .looking))) ∧
    gives (withLine 0 (fun x => { x with answer := some ⟨14, false⟩, freeAt := 2, receiver := .discarding })) (.stationAnswer 0)
      (fun t => decide ((t.part.line 0).watch = .stuck 2 ∧ (t.part.line 0).receiver = .discarding)) := by decide +kernel
/-- R136, R137: the levels of the operand begin later than the last set-back, or not. -/
theorem test_measures_from_the_operand :
    gives State.reset (.lineStuck 0 70) (fun t => decide (t.part.now = 170)) ∧
    gives (withLine 0 (fun x => { x with watch := .stuck 90 })) (.lineStuck 0 70) (fun t => decide (t.part.now = 190)) ∧
    gives (withLine 0 (fun x => { x with state := .failed, watch := .recovery 0, receiver := .waiting })) (.lineRecovery 0 50)
      (fun t => decide (t.part.now = 1050 ∧ (t.part.line 0).receiver = .looking ∧
        (t.part.line 0).watch = .stuck 1050)) := by decide +kernel

end Sys2Proof.Tests
end

section
/-! SUPPORT. What every operation of the part does to its dirty marks (R16, R161): no mark is lost, and each part-owned word whose
value changes is marked. -/

namespace Sys2Proof.Machine

/-! ## Words whose fields differ -/

@[simp] theorem wordBit_getLsbD (changed : Bool) {i : Nat} (hi : i < 8) (k : Nat) :
    (wordBit changed i).getLsbD k = (changed && decide (i = k)) := by
  cases changed
  · simp [wordBit]
  · rw [wordBit, if_pos rfl, BitVec.getLsbD_ofNat, Nat.testBit_two_pow]
    by_cases h : i = k
    · simp [← h, hi]
    · simp [h]

/-- A word that the changes of a channel record leave out has its value. -/
theorem channelWord_eq (a b : Channel) (k : Fin 8) (h : (channelChanges a b).getLsbD k.val = false) :
    channelWord b k.val = channelWord a k.val := by
  rw [channelChanges] at h
  simp only [BitVec.getLsbD_or, wordBit_getLsbD, Nat.reduceLT] at h
  fin_cases k <;> simp at h <;> simp [channelWord, h]

theorem zoneWord_eq (a b : Zone) (k : Fin 8) (h : (zoneChanges a b).getLsbD k.val = false) :
    zoneWord b k.val = zoneWord a k.val := by
  rw [zoneChanges] at h
  simp only [BitVec.getLsbD_or, wordBit_getLsbD, Nat.reduceLT] at h
  fin_cases k <;> simp at h <;> simp only [zoneWord, h]
  all_goals cases ha : a.override <;> cases hb : b.override <;> simp_all [overrideCode]

theorem lineWord_eq (a b : Line) (k : Fin 8) (h : (lineChanges a b).getLsbD k.val = false) :
    lineWord b k.val = lineWord a k.val := by
  rw [lineChanges] at h
  simp only [BitVec.getLsbD_or, wordBit_getLsbD, Nat.reduceLT] at h
  fin_cases k <;> simp at h <;> simp [lineWord, h]

theorem testWord_eq (a b : LineTest) (k : Fin 8) (h : (testChanges a b).getLsbD k.val = false) :
    testWord b k.val = testWord a k.val := by
  rw [testChanges] at h
  simp only [BitVec.getLsbD_or, wordBit_getLsbD, Nat.reduceLT] at h
  fin_cases k <;> simp at h <;> simp [testWord, h]

theorem commandWord_eq (a b : CommandUnit) (k : Fin 8) (h : (statusChanges a b).getLsbD k.val = false) :
    commandWord b k.val = commandWord a k.val := by
  rw [statusChanges] at h
  simp only [BitVec.getLsbD_or, wordBit_getLsbD, Nat.reduceLT] at h
  fin_cases k <;> simp at h <;> simp [commandWord, h]

/-- Word 4 of a bank is its enable word, which the host writes. -/
theorem bankWord_eq (a b : Bank) (k : Fin 8) (hk : k ≠ 4) (h : (bankChanges a b).getLsbD k.val = false) :
    bankWord b k.val = bankWord a k.val := by
  rw [bankChanges] at h
  simp only [BitVec.getLsbD_or, wordBit_getLsbD, Nat.reduceLT] at h
  fin_cases k <;> simp at h <;> simp only [bankWord, h]
  · cases ha : a.record <;> cases hb : b.record <;> simp_all
  · exact absurd rfl hk

/-- The global status words follow the general alarm loop, the Command Unit and the Weather Unit. -/
theorem globalWord_eq_of_ga (p : Part) (g : FireLoop) (k : Fin 8)
    (h : (wordBit (decide (p.ga.state ≠ g.state)) 0).getLsbD k.val = false) :
    globalWord { p with ga := g } k.val = globalWord p k.val := by
  simp only [wordBit_getLsbD, Nat.reduceLT] at h
  fin_cases k <;> simp at h <;> simp [globalWord, h]

theorem globalWord_eq_of_cmd (p : Part) (c : CommandUnit) (k : Fin 8)
    (h : (commandGlobalChanges p.cmd c).getLsbD k.val = false) :
    globalWord { p with cmd := c } k.val = globalWord p k.val := by
  rw [commandGlobalChanges] at h
  simp only [BitVec.getLsbD_or, wordBit_getLsbD, Nat.reduceLT] at h
  fin_cases k <;> simp at h <;> simp [globalWord, h]

theorem globalWord_eq_of_weather (p : Part) (w : Weather) (k : Fin 8)
    (h : (weatherChanges p.weather w).getLsbD k.val = false) :
    globalWord { p with weather := w } k.val = globalWord p k.val := by
  rw [weatherChanges] at h
  simp only [BitVec.getLsbD_or, wordBit_getLsbD, Nat.reduceLT] at h
  fin_cases k <;> simp at h <;> simp [globalWord, h]

/-! ## Marks -/

/-- R16, R161: from `p` to `q` no dirty mark is lost, and every part-owned word without one has its value. -/
structure Part.Marks (p q : Part) : Prop where
  kept : ∀ (r : RecordId) (k : Fin 8), (q.dirtyOf r).getLsbD k.val = false → (p.dirtyOf r).getLsbD k.val = false
  clean : ∀ (r : RecordId) (k : Fin 8), (ownedMask r).getLsbD k.val = true → (q.dirtyOf r).getLsbD k.val = false →
    q.wordOf r k.val = p.wordOf r k.val

theorem Part.Marks.refl (p : Part) : p.Marks p := ⟨fun _ _ h => h, fun _ _ _ _ => rfl⟩

theorem Part.Marks.trans {p q r : Part} (h : p.Marks q) (k : q.Marks r) : p.Marks r where
  kept a i c := h.kept a i (k.kept a i c)
  clean a i o c := (k.clean a i o c).trans (h.clean a i o (k.kept a i c))

/-- A write that keeps every word but some of one record, which it marks. -/
theorem Part.Marks.of_mark {p q : Part} (r : RecordId) (w : BitVec 8) (hd : q.dirty = p.dirty)
    (hw : ∀ (a : RecordId) (k : Fin 8), (ownedMask a).getLsbD k.val = true → (a = r → w.getLsbD k.val = false) →
      q.wordOf a k.val = p.wordOf a k.val) : p.Marks (q.mark r w) := by
  have dirtyOf (a : RecordId) : (q.mark r w).dirtyOf a = if a = r then p.dirtyOf a ||| w else p.dirtyOf a := by
    rw [Part.dirtyOf_mark]; simp only [Part.dirtyOf, hd]
  refine ⟨fun a k c => ?_, fun a k o c => ?_⟩ <;> rw [dirtyOf] at c
  · split at c
    · rw [BitVec.getLsbD_or, Bool.or_eq_false_iff] at c; exact c.1
    · exact c
  · refine (show (q.mark r w).wordOf a k.val = q.wordOf a k.val by cases a <;> rfl).trans (hw a k o fun e => ?_)
    rw [if_pos e, BitVec.getLsbD_or, Bool.or_eq_false_iff] at c
    exact c.2

/-- A change of what no word shows. -/
theorem Part.Marks.of_same {p q : Part} (hd : q.dirty = p.dirty) (hw : ∀ r k, q.wordOf r k = p.wordOf r k) : p.Marks q where
  kept r k c := by simpa only [Part.dirtyOf, hd] using c
  clean r k _ _ := hw r k.val

section
variable {p q : Part}

theorem Part.Marks.mark (h : p.Marks q) (r : RecordId) (w : BitVec 8) : p.Marks (q.mark r w) :=
  h.trans (.of_mark r w rfl fun _ _ _ _ => rfl)

theorem Part.Marks.advanceTo (h : p.Marks q) (t : Nat) : p.Marks (q.advanceTo t) :=
  h.trans (.of_same rfl fun r _ => by cases r <;> rfl)

theorem Part.Marks.setGlobals (h : p.Marks q) (g : GlobalConfig) : p.Marks { q with globals := g } :=
  h.trans (.of_same rfl fun r _ => by cases r <;> rfl)

theorem Part.Marks.setChan (h : p.Marks q) (n : ChannelId) (c : Channel) : p.Marks (q.setChan n c) := by
  refine h.trans (.of_mark _ _ rfl fun a k _ hc => ?_)
  cases a with
  | channel m =>
    show channelWord ((q.setChan n c).chan m) k.val = _
    rw [Part.chan_setChan]
    split
    · rename_i e; subst e; exact channelWord_eq _ _ k (hc rfl)
    · rfl
  | _ => rfl

theorem Part.Marks.modChan (h : p.Marks q) (n : ChannelId) (f : Channel → Channel) : p.Marks (q.modChan n f) := h.setChan n _

theorem Part.Marks.setZone (h : p.Marks q) (z : ZoneId) (x : Zone) : p.Marks (q.setZone z x) := by
  refine h.trans (.of_mark _ _ rfl fun a k _ hc => ?_)
  cases a with
  | zone y =>
    show zoneWord ((q.setZone z x).zone y) k.val = _
    rw [Part.zone_setZone]
    split
    · rename_i e; subst e; exact zoneWord_eq _ _ k (hc rfl)
    · rfl
  | _ => rfl

theorem Part.Marks.modZone (h : p.Marks q) (z : ZoneId) (f : Zone → Zone) : p.Marks (q.modZone z f) := h.setZone z _

theorem Part.Marks.setGa (h : p.Marks q) (g : FireLoop) : p.Marks (q.setGa g) := by
  refine h.trans (.of_mark _ _ rfl fun a k _ hc => ?_)
  cases a with
  | global => exact globalWord_eq_of_ga q g k (hc rfl)
  | _ => rfl

theorem Part.Marks.setLoop (h : p.Marks q) (loop : LoopId) (g : FireLoop) : p.Marks (q.setLoop loop g) := by
  cases loop with
  | zone z => exact h.modZone z (fun x => { x with loop := g })
  | ga => exact h.setGa g

theorem Part.Marks.setWeather (h : p.Marks q) (w : Weather) : p.Marks (q.setWeather w) := by
  refine h.trans (.of_mark _ _ rfl fun a k _ hc => ?_)
  cases a with
  | global => exact globalWord_eq_of_weather q w k (hc rfl)
  | _ => rfl

theorem Part.Marks.setBank (h : p.Marks q) (b : BankId) (x : Bank) : p.Marks (q.setBank b x) := by
  refine h.trans (.of_mark _ _ rfl fun a k ho hc => ?_)
  cases a with
  | bank c =>
    show bankWord ((q.setBank b x).bank c) k.val = _
    rw [Part.bank_setBank]
    split
    · rename_i e; subst e
      exact bankWord_eq _ _ k (fun e => by subst e; exact absurd ho (by simp [ownedMask])) (hc rfl)
    · rfl
  | _ => rfl

theorem Part.Marks.record (h : p.Marks q) (b : BankId) (e : ErrorRecord) : p.Marks (q.record b e) := h.setBank b _

/-- The line record and its test record are marked one after the other. -/
theorem Part.Marks.setLine (h : p.Marks q) (l : LineId) (x : Line) : p.Marks (q.setLine l x) := by
  have line (k : LineId) : ({ q with lines := q.lines.set l.val x } : Part).line k = if k = l then x else q.line k :=
    q.line_setLine l k x
  have dirty : ∀ (r : RecordId) (k : Fin 8), ((q.setLine l x).dirtyOf r).getLsbD k.val = false →
      (q.dirtyOf r).getLsbD k.val = false ∧ (r = .line l → (lineChanges (q.line l) x).getLsbD k.val = false) ∧
        (r = .test l → (testChanges (q.line l).test x.test).getLsbD k.val = false) := by
    intro r k c
    unfold Part.setLine at c
    rw [Part.dirtyOf_mark, Part.dirtyOf_mark] at c
    by_cases h1 : r = .line l
    · subst h1; simpa [Part.dirtyOf] using c
    · by_cases h2 : r = .test l
      · subst h2; simpa [Part.dirtyOf] using c
      · simpa [h1, h2, Part.dirtyOf] using c
  refine h.trans ⟨fun r k c => (dirty r k c).1, fun r k _ c => ?_⟩
  obtain ⟨-, hl, ht⟩ := dirty r k c
  cases r with
  | line m =>
    show lineWord ((q.setLine l x).line m) k.val = _
    rw [Part.line_setLine]
    split
    · rename_i e; subst e; exact lineWord_eq _ _ k (hl rfl)
    · rfl
  | test m =>
    show testWord ((q.setLine l x).line m).test k.val = _
    rw [Part.line_setLine]
    split
    · rename_i e; subst e; exact testWord_eq _ _ k (ht rfl)
    · rfl
  | _ => rfl

theorem Part.Marks.modLine (h : p.Marks q) (l : LineId) (f : Line → Line) : p.Marks (q.modLine l f) := h.setLine l _
theorem Part.Marks.modTest (h : p.Marks q) (l : LineId) (f : LineTest → LineTest) : p.Marks (q.modTest l f) := h.modLine l _

/-- The command status and the global status are marked one after the other. -/
theorem Part.Marks.setCmd (h : p.Marks q) (c : CommandUnit) : p.Marks (q.setCmd c) := by
  have dirty : ∀ (r : RecordId) (k : Fin 8), ((q.setCmd c).dirtyOf r).getLsbD k.val = false →
      (q.dirtyOf r).getLsbD k.val = false ∧ (r = .command → (statusChanges q.cmd c).getLsbD k.val = false) ∧
        (r = .global → (commandGlobalChanges q.cmd c).getLsbD k.val = false) := by
    intro r k d
    unfold Part.setCmd at d
    rw [Part.dirtyOf_mark, Part.dirtyOf_mark] at d
    by_cases h1 : r = .command
    · subst h1; simpa [Part.dirtyOf] using d
    · by_cases h2 : r = .global
      · subst h2; simpa [Part.dirtyOf] using d
      · simpa [h1, h2, Part.dirtyOf] using d
  refine h.trans ⟨fun r k d => (dirty r k d).1, fun r k _ d => ?_⟩
  obtain ⟨-, hs, hg⟩ := dirty r k d
  cases r with
  | command => exact commandWord_eq _ _ k (hs rfl)
  | global => exact globalWord_eq_of_cmd q c k (hg rfl)
  | _ => rfl

theorem Part.Marks.setNotices (h : p.Marks q) (m : BitVec 48) : p.Marks (q.setNotices m) := by
  refine h.trans (.of_mark _ _ rfl fun a k _ hc => ?_)
  cases a with
  | notice =>
    have hc := hc rfl
    show noticeWord (q.setNotices m) k.val = noticeWord q k.val
    simp only [BitVec.getLsbD_or, wordBit_getLsbD, Nat.reduceLT] at hc
    fin_cases k <;> simp at hc <;> simp [noticeWord, Part.setNotices, hc]
  | _ => rfl

/-- R192: a notice acknowledge word that takes a value is marked. -/
theorem Part.Marks.setNoticeAck (h : p.Marks q) (i : Fin 3) (w : Word) :
    p.Marks (Part.mark { q with noticeAcks := q.noticeAcks.set i.val w } .notice (wordBit true (3 + i.val))) := by
  refine h.trans (.of_mark _ _ rfl fun a k _ hc => ?_)
  cases a with
  | notice =>
    have hc := hc rfl
    have hi : 3 + i.val < 8 := by omega
    simp only [wordBit_getLsbD _ hi, Bool.true_and, decide_eq_false_iff_not] at hc
    show noticeWord _ k.val = noticeWord q k.val
    unfold noticeWord
    split
    · rfl
    · split
      · exact Vector.getElem_set_ne i.isLt (by omega) (by omega)
      · rfl
  | _ => rfl

theorem Part.Marks.foldl {α : Type} (h : p.Marks q) (f : Part → α → Part) (step : ∀ (r : Part) (a : α), r.Marks (f r a))
    (l : List α) : p.Marks (l.foldl f q) := h.trans (foldl_keeps Part.Marks.refl Part.Marks.trans step l q)

theorem Part.Marks.forEach (h : p.Marks q) (ns : List ChannelId) (act : ChannelId → Part → Part)
    (step : ∀ (n : ChannelId) (r : Part), r.Marks (act n r)) : p.Marks (q.forEach ns act) :=
  h.foldl _ (fun r n => step n r) ns

end

end Sys2Proof.Machine
end

section
/-! SUPPORT. Every operation of the part keeps its dirty marks and marks what it changes (R16, R161), one lemma per operation. -/

namespace Sys2Proof.Machine

section
variable {p q : Part}

/-! ## Error Banks and notices -/

theorem Part.Marks.recordOffline (h : p.Marks q) (n : ChannelId) : p.Marks (q.recordOffline n) := h.record _ _
theorem Part.Marks.recordFaulted (h : p.Marks q) (n : ChannelId) (f : FaultCode) : p.Marks (q.recordFaulted n f) := h.record _ _
theorem Part.Marks.acknowledge (h : p.Marks q) (b : BankId) (code : Word) : p.Marks (q.acknowledge b code) := by
  grind [Part.acknowledge, setBank, mark, record]
theorem Part.Marks.startCounter (h : p.Marks q) (b : BankId) (w : Word) : p.Marks (q.startCounter b w) := (h.setBank _ _).mark _ _
theorem Part.Marks.acknowledgeNotices (h : p.Marks q) (k : Fin 3) (w : Word) : p.Marks (q.acknowledgeNotices k w) :=
  (h.setNotices _).setNoticeAck k _
theorem Part.Marks.joinNotices (h : p.Marks q) (n : ChannelId) : p.Marks (q.joinNotices n) := h.setNotices _
theorem Part.Marks.recordAtGate (h : p.Marks q) (kind : ErrorKind) (subject : Subject) : p.Marks (q.recordAtGate kind subject) :=
  (h.record _ _).mark _ _

/-! ## The Motion Unit -/

theorem Part.Marks.setMotion (h : p.Marks q) (n : ChannelId) (m : Motion) : p.Marks (q.setMotion n m) := h.modChan n _
theorem Part.Marks.stopTravel (h : p.Marks q) (n : ChannelId) : p.Marks (q.stopTravel n) := h.modChan n _
theorem Part.Marks.removeOrder (h : p.Marks q) (n : ChannelId) : p.Marks (q.removeOrder n) := h.modLine _ _
theorem Part.Marks.joinOrder (h : p.Marks q) (n : ChannelId) (t : Nat) : p.Marks (q.joinOrder n t) := h.modLine _ _
theorem Part.Marks.testIdle (h : p.Marks q) (n : ChannelId) : p.Marks (q.testIdle n) := by
  grind [Part.testIdle, setMotion, joinOrder]
theorem Part.Marks.supersede (h : p.Marks q) (n : ChannelId) (t : Nat) : p.Marks (q.supersede n t) := by
  grind [Part.supersede, modLine, removeOrder, joinOrder]
theorem Part.Marks.notice (h : p.Marks q) (n : ChannelId) : p.Marks (q.notice n) := by
  grind [Part.notice, modLine, modChan, removeOrder, testIdle, setMotion, supersede]
theorem Part.Marks.dropWork (h : p.Marks q) (n : ChannelId) : p.Marks (q.dropWork n) := (h.removeOrder n).modChan n _
theorem Part.Marks.enterFaulted (h : p.Marks q) (n : ChannelId) (f : FaultCode) : p.Marks (q.enterFaulted n f) :=
  ((h.modChan n _).setMotion n _).recordFaulted n f
theorem Part.Marks.faultChannel (h : p.Marks q) (n : ChannelId) (f : FaultCode) : p.Marks (q.faultChannel n f) :=
  (h.dropWork n).enterFaulted n f
theorem Part.Marks.forgetPosition (h : p.Marks q) (n : ChannelId) : p.Marks (q.forgetPosition n) := h.modChan n _
theorem Part.Marks.goOffline (h : p.Marks q) (n : ChannelId) : p.Marks (q.goOffline n) :=
  (((h.dropWork n).forgetPosition n).setMotion n _).recordOffline n
theorem Part.Marks.leaveFaulted (h : p.Marks q) (n : ChannelId) : p.Marks (q.leaveFaulted n) := by
  grind [Part.leaveFaulted, modChan, forgetPosition, setMotion, recordOffline, testIdle]
theorem Part.Marks.settleAttempt (h : p.Marks q) (l : LineId) (o : Order) : p.Marks (q.settleAttempt l o) := by
  grind [Part.settleAttempt, modLine, setMotion, stopTravel]
theorem Part.Marks.orderFailed (h : p.Marks q) (l : LineId) (o : Order) (f : Failure) : p.Marks (q.orderFailed l o f) := by
  unfold Part.orderFailed
  dsimp only
  split
  · split
    · exact h.settleAttempt l o
    · split
      · exact h.faultChannel _ _
      · exact h.settleAttempt l _
  · split
    · exact h.enterFaulted _ _
    · exact h.settleAttempt l _
theorem Part.Marks.queryMissed (h : p.Marks q) (n : ChannelId) : p.Marks (q.queryMissed n) := by
  grind [Part.queryMissed, modChan, forgetPosition, goOffline]
theorem Part.Marks.clearMiss (h : p.Marks q) (n : ChannelId) : p.Marks (q.clearMiss n) := h.modChan n _
theorem Part.Marks.orderAccepted (h : p.Marks q) (o : Order) : p.Marks (q.orderAccepted o) := by
  grind [Part.orderAccepted, clearMiss, enterFaulted, modChan, setMotion]
theorem Part.Marks.orderBusy (h : p.Marks q) (l : LineId) (o : Order) : p.Marks (q.orderBusy l o) :=
  (h.clearMiss _).settleAttempt l _
theorem Part.Marks.orderRefused (h : p.Marks q) (o : Order) (reason : Byte) : p.Marks (q.orderRefused o reason) := by
  grind [Part.orderRefused, clearMiss, enterFaulted, faultChannel]
theorem Part.Marks.takeStatus (h : p.Marks q) (n : ChannelId) (position : Word) (m : NodeMotion) (motion : Byte) :
    p.Marks (q.takeStatus n position m motion) := h.modChan n _
theorem Part.Marks.haltStatus (h : p.Marks q) (o : Order) (expiry : Nat) (position : Word) (m : NodeMotion) (motion : Byte) :
    p.Marks (q.haltStatus o expiry position m motion) := (h.takeStatus _ _ _ _).enterFaulted _ _
theorem Part.Marks.complete (h : p.Marks q) (n : ChannelId) : p.Marks (q.complete n) := by
  have ended := h.modChan n fun c => { c with accepted := none, travel := none, shortMark := false }
  unfold Part.complete
  extract_lets p1 p2
  have noticed : p.Marks p2 := by unfold p2; split; exacts [ended.joinNotices n, ended]
  grind [removeOrder, setMotion, testIdle]
theorem Part.Marks.shortTravel (h : p.Marks q) (n : ChannelId) (t : Nat) : p.Marks (q.shortTravel n t) := by
  grind [Part.shortTravel, faultChannel, modChan, modLine, setMotion]
theorem Part.Marks.queryStatus (h : p.Marks q) (n : ChannelId) (position : Word) (m : NodeMotion) (motion faults : Byte) :
    p.Marks (q.queryStatus n position m motion faults) := by
  have taken := h.takeStatus n position m motion
  unfold Part.queryStatus
  extract_lets p1 c
  have taken : p.Marks p1 := taken
  split
  · exact taken.faultChannel n _
  · split
    · split
      · split
        · exact taken.complete n
        · exact taken.shortTravel n _
      · exact taken
    · exact (taken.setMotion n _).testIdle n
    · exact taken.testIdle n
    all_goals exact taken
theorem Part.Marks.abandon (h : p.Marks q) (l : LineId) : p.Marks (q.abandon l) := by
  grind [Part.abandon, modLine]
theorem Part.Marks.abandonFor (h : p.Marks q) (l : LineId) (n : ChannelId) : p.Marks (q.abandonFor l n) := by
  grind [Part.abandonFor, abandon]
theorem Part.Marks.expireTravel (h : p.Marks q) (n : ChannelId) (elapsed : Nat) : p.Marks (q.expireTravel n elapsed) := by
  grind [Part.expireTravel, abandonFor, faultChannel, modChan, modLine, removeOrder, setMotion]

/-! ## The Source Arbiter -/

theorem Part.Marks.recompute (h : p.Marks q) (n : ChannelId) : p.Marks (q.recompute n) := by
  grind [Part.recompute, mark, modChan, notice]
theorem Part.Marks.recomputeZone (h : p.Marks q) (z : ZoneId) : p.Marks (q.recomputeZone z) :=
  h.forEach _ _ fun n r => (refl r).recompute n
theorem Part.Marks.recomputeAll (h : p.Marks q) : p.Marks q.recomputeAll := h.forEach _ _ fun n r => (refl r).recompute n
theorem Part.Marks.takeFreezes (h : p.Marks q) (z : ZoneId) : p.Marks (q.takeFreezes z) :=
  h.forEach _ _ fun n r => by split; exacts [(refl r).modChan n _, refl r]
theorem Part.Marks.dropFreezes (h : p.Marks q) (z : ZoneId) : p.Marks (q.dropFreezes z) :=
  h.forEach _ _ fun n r => (refl r).modChan n _

/-! ## The Field Line Controllers -/

theorem Part.Marks.enterLine (h : p.Marks q) (l : LineId) (s : LineState) : p.Marks (q.enterLine l s) := h.modLine l _
theorem Part.Marks.abortTest (h : p.Marks q) (l : LineId) : p.Marks (q.abortTest l) := by
  grind [Part.abortTest, modTest, record]
theorem Part.Marks.outOfService (h : p.Marks q) (n : ChannelId) : p.Marks (q.outOfService n) := by
  grind [Part.outOfService, clearMiss, goOffline]
theorem Part.Marks.clearLine (h : p.Marks q) (l : LineId) : p.Marks (q.clearLine l) :=
  (((h.abandon l).modLine l _).forEach _ _ fun n r => (refl r).outOfService n).abortTest l
theorem Part.Marks.disableLine (h : p.Marks q) (l : LineId) : p.Marks (q.disableLine l) := by
  grind [Part.disableLine, clearLine, enterLine]
theorem Part.Marks.failLine (h : p.Marks q) (l : LineId) : p.Marks (q.failLine l) := by
  grind [Part.failLine, clearLine, enterLine, record]
theorem Part.Marks.dueAtOnce (h : p.Marks q) (n : ChannelId) : p.Marks (q.dueAtOnce n) := by grind [Part.dueAtOnce, modChan]
theorem Part.Marks.restartLine (h : p.Marks q) (l : LineId) : p.Marks (q.restartLine l) :=
  ((h.modLine l _).enterLine l _).forEach _ _ fun n r => (refl r).dueAtOnce n
theorem Part.Marks.latchLine (h : p.Marks q) (l : LineId) : p.Marks (q.latchLine l) := by
  grind [Part.latchLine, abandon, abortTest, enterLine]
theorem Part.Marks.completeQuieting (h : p.Marks q) : p.Marks q.completeQuieting :=
  h.foldl _ (fun r l => by split; exacts [(refl r).enterLine l _, refl r]) _
theorem Part.Marks.startExchange (h : p.Marks q) (l : LineId) (node : BitVec 4) (k : ExchangeKind) :
    p.Marks (q.startExchange l node k) := h.modLine l _
theorem Part.Marks.startChoice (h : p.Marks q) (l : LineId) (c : Choice) : p.Marks (q.startChoice l c) := by
  have forgotten := h.modLine l fun x => { x with retake := none }
  cases c with
  | order o =>
    have sent := (forgotten.modLine l fun x => x.take o.channel).startExchange l (q.chan o.channel).cfg.node (.order o)
    unfold Part.startChoice
    dsimp only
    split
    · exact sent
    · exact sent.setMotion o.channel _
  | poll n => exact ((forgotten.modLine l _).modChan n _).startExchange l _ _
  | supervise n => exact ((forgotten.modLine l _).modChan n _).startExchange l _ _
theorem Part.Marks.startTransaction (h : p.Marks q) (l : LineId) : p.Marks (q.startTransaction l) := by
  grind [Part.startTransaction, advanceTo, startChoice]
theorem Part.Marks.frameSeen (h : p.Marks q) (l : LineId) : p.Marks (q.frameSeen l) := by grind [Part.frameSeen, modLine]
theorem Part.Marks.firstSend (h : p.Marks q) (n : ChannelId) : p.Marks (q.firstSend n) := h.modChan n _
theorem Part.Marks.sendFrame (h : p.Marks q) (l : LineId) : p.Marks (q.sendFrame l) := by
  grind [Part.sendFrame, modLine, firstSend]
theorem Part.Marks.endExchange (h : p.Marks q) (l : LineId) (free : Nat) : p.Marks (q.endExchange l free) := by
  grind [Part.endExchange, modLine, modChan]
theorem Part.Marks.failExchange (h : p.Marks q) (l : LineId) (f : Failure) (free : Nat) : p.Marks (q.failExchange l f free) := by
  grind [Part.failExchange, endExchange, orderFailed, queryMissed, record]
theorem Part.Marks.countFrame (h : p.Marks q) (l : LineId) (bytes : Pattern) (discarded : Bool) (back : List (Option Byte)) :
    p.Marks (q.countFrame l bytes discarded back) := by grind [Part.countFrame, modTest]
theorem Part.Marks.countTest (h : p.Marks q) (l : LineId) (bytes : Pattern) (discarded : Bool) (back : List (Option Byte))
    (free : Nat) : p.Marks (q.countTest l bytes discarded back free) := (h.endExchange l free).countFrame l bytes discarded back
theorem Part.Marks.startTestFrame (h : p.Marks q) (l : LineId) : p.Marks (q.startTestFrame l) := by
  grind [Part.startTestFrame, advanceTo, startExchange]
theorem Part.Marks.checkLocalEcho (h : p.Marks q) (l : LineId) (readBack : Pattern) : p.Marks (q.checkLocalEcho l readBack) := by
  grind [Part.checkLocalEcho, countTest, modLine]
theorem Part.Marks.missEcho (h : p.Marks q) (l : LineId) : p.Marks (q.missEcho l) := by
  grind [Part.missEcho, advanceTo, countTest]
theorem Part.Marks.recordHeard (h : p.Marks q) (l : LineId) (k : Heard) : p.Marks (q.recordHeard l k) := h.record _ _
theorem Part.Marks.lineBusyUntilGap (h : p.Marks q) (l : LineId) : p.Marks (q.lineBusyUntilGap l) := h.modLine l _
theorem Part.Marks.hearOther (h : p.Marks q) (l : LineId) (k : Heard) : p.Marks (q.hearOther l k) := by
  unfold Part.hearOther
  dsimp only
  split
  · exact h
  · split
    · exact (h.lineBusyUntilGap l).recordHeard l k
    · split
      · exact h
      · split
        · exact h.failExchange l _ _
        · exact h.failExchange l _ _
        · exact (h.countTest l _ _ _ _).recordHeard l k
theorem Part.Marks.hearStatus (h : p.Marks q) (l : LineId) (addr : BitVec 4) (position : Word) (motion faults : Byte) :
    p.Marks (q.hearStatus l addr position motion faults) := by
  unfold Part.hearStatus
  split
  · exact h.hearOther l _
  · split
    · exact (h.endExchange l _).queryStatus _ _ _ _ _
    · split
      · exact (h.endExchange l _).haltStatus _ _ _ _ _
      · exact h.hearOther l _
    all_goals exact h.hearOther l _
theorem Part.Marks.hearAccept (h : p.Marks q) (l : LineId) (addr : BitVec 4) : p.Marks (q.hearAccept l addr) := by
  grind [Part.hearAccept, endExchange, hearOther, orderAccepted]
theorem Part.Marks.hearBusy (h : p.Marks q) (l : LineId) (addr : BitVec 4) : p.Marks (q.hearBusy l addr) := by
  grind [Part.hearBusy, endExchange, hearOther, orderBusy]
theorem Part.Marks.hearRefuse (h : p.Marks q) (l : LineId) (addr : BitVec 4) (reason : Byte) :
    p.Marks (q.hearRefuse l addr reason) := by
  grind [Part.hearRefuse, endExchange, hearOther, orderRefused]
theorem Part.Marks.hearEcho (h : p.Marks q) (l : LineId) (addr : BitVec 4) (received : List Byte) (crcGood : Bool) :
    p.Marks (q.hearEcho l addr received crcGood) := by
  grind [Part.hearEcho, countTest, hearOther]
theorem Part.Marks.timeOut (h : p.Marks q) (l : LineId) : p.Marks (q.timeOut l) := by
  grind [Part.timeOut, advanceTo, failExchange]
theorem Part.Marks.setRetake (h : p.Marks q) (l : LineId) (r : Retake) : p.Marks (q.setRetake l r) := by
  grind [Part.setRetake, modLine]
theorem Part.Marks.loseOrder (h : p.Marks q) (l : LineId) (o : Order) : p.Marks (q.loseOrder l o) := by
  grind [Part.loseOrder, modLine, settleAttempt, setRetake]
theorem Part.Marks.loseQuery (h : p.Marks q) (l : LineId) (n : ChannelId) (poll : Bool) : p.Marks (q.loseQuery l n poll) := by
  grind [Part.loseQuery, modLine, modChan, setRetake]
theorem Part.Marks.loseTest (h : p.Marks q) (l : LineId) (bytes : Pattern) (discarded : Bool) (place : LossPlace)
    (readBack : Pattern) : p.Marks (q.loseTest l bytes discarded place readBack) := by
  have lost := h.modLine l fun x => x.lose q.now
  cases place with
  | lead => exact lost
  | pattern _ => exact lost.countFrame l _ _ _
  | crc => exact lost.countFrame l _ _ _
theorem Part.Marks.loseArbitration (h : p.Marks q) (l : LineId) (place : LossPlace) (readBack : Pattern) :
    p.Marks (q.loseArbitration l place readBack) := by
  grind [Part.loseArbitration, loseOrder, loseQuery, loseTest, modLine, record]
theorem Part.Marks.sendAnswer (h : p.Marks q) (l : LineId) : p.Marks (q.sendAnswer l) := by
  grind [Part.sendAnswer, advanceTo, modLine]
theorem Part.Marks.endBackoff (h : p.Marks q) (n : ChannelId) : p.Marks (q.endBackoff n) := by
  grind [Part.endBackoff, advanceTo, modLine]
theorem Part.Marks.travelStep (h : p.Marks q) (n : ChannelId) (elapsed : Nat) : p.Marks (q.travelStep n elapsed) := by
  grind [Part.travelStep, advanceTo, expireTravel, modChan]
theorem Part.Marks.travelSecond (h : p.Marks q) (n : ChannelId) : p.Marks (q.travelSecond n) := by
  grind [Part.travelSecond, travelStep]
theorem Part.Marks.travelExpiry (h : p.Marks q) (n : ChannelId) : p.Marks (q.travelExpiry n) := by
  grind [Part.travelExpiry, travelStep]
theorem Part.Marks.pollFallsDue (h : p.Marks q) (n : ChannelId) : p.Marks (q.pollFallsDue n) := by
  grind [Part.pollFallsDue, advanceTo, modChan]
theorem Part.Marks.supervisionFallsDue (h : p.Marks q) (n : ChannelId) : p.Marks (q.supervisionFallsDue n) := by
  grind [Part.supervisionFallsDue, advanceTo, modChan]
theorem Part.Marks.windowFallsDue (h : p.Marks q) (l : LineId) : p.Marks (q.windowFallsDue l) := by
  grind [Part.windowFallsDue, advanceTo, modLine]
theorem Part.Marks.endWindow (h : p.Marks q) (l : LineId) : p.Marks (q.endWindow l) := by
  grind [Part.endWindow, advanceTo, modLine]
theorem Part.Marks.lineStuck (h : p.Marks q) (l : LineId) (t : Nat) : p.Marks (q.lineStuck l t) := by
  grind [Part.lineStuck, advanceTo, failLine]
theorem Part.Marks.lineRecovery (h : p.Marks q) (l : LineId) (t : Nat) : p.Marks (q.lineRecovery l t) := by
  grind [Part.lineRecovery, advanceTo, modLine, restartLine]

/-! ## The Zone Unit -/

theorem Part.Marks.changeLoop (h : p.Marks q) (loop : LoopId) (s : LoopState) : p.Marks (q.changeLoop loop s) := by
  grind [Part.changeLoop, record, setLoop]
theorem Part.Marks.freshAttempts (h : p.Marks q) (z : ZoneId) : p.Marks (q.freshAttempts z) :=
  h.forEach _ _ fun n r => by split; exacts [(refl r).leaveFaulted n, refl r]
theorem Part.Marks.latchLines (h : p.Marks q) : p.Marks q.latchLines := h.foldl _ (fun r l => (refl r).latchLine l) _
theorem Part.Marks.setLatch (h : p.Marks q) (z : ZoneId) : p.Marks (q.setLatch z) :=
  ((((h.modZone z _).takeFreezes z).recomputeZone z).freshAttempts z).latchLines
theorem Part.Marks.latchIfClear (h : p.Marks q) (z : ZoneId) : p.Marks (q.latchIfClear z) := by
  grind [Part.latchIfClear, setLatch]
theorem Part.Marks.qualify (h : p.Marks q) (loop : LoopId) : p.Marks (q.qualify loop) := by
  cases loop with
  | zone z => exact h.latchIfClear z
  | ga => exact h.foldl _ (fun r z => (refl r).latchIfClear z) _
theorem Part.Marks.loopTimerExpiry (h : p.Marks q) (loop : LoopId) (m : FireMode) : p.Marks (q.loopTimerExpiry loop m) := by
  grind [Part.loopTimerExpiry, advanceTo, setLoop, qualify]
theorem Part.Marks.judgeZone (h : p.Marks q) (z : ZoneId) : p.Marks (q.judgeZone z) := h.modZone z _
theorem Part.Marks.missDeadline (h : p.Marks q) (z : ZoneId) : p.Marks (q.missDeadline z) := (h.modZone z _).record _ _
theorem Part.Marks.lastSecond (h : p.Marks q) (z : ZoneId) : p.Marks (q.lastSecond z) := by
  grind [Part.lastSecond, missDeadline]
theorem Part.Marks.deadlineSecond (h : p.Marks q) (z : ZoneId) : p.Marks (q.deadlineSecond z) := by
  grind [Part.deadlineSecond, advanceTo, lastSecond, modZone]
theorem Part.Marks.deadlineExpiry (h : p.Marks q) (z : ZoneId) : p.Marks (q.deadlineExpiry z) := by
  grind [Part.deadlineExpiry, advanceTo, lastSecond]
theorem Part.Marks.overrunSecond (h : p.Marks q) (z : ZoneId) : p.Marks (q.overrunSecond z) := by
  grind [Part.overrunSecond, advanceTo, modZone]
theorem Part.Marks.executeRelease (h : p.Marks q) (z : ZoneId) : p.Marks (q.executeRelease z) :=
  ((h.modZone z _).dropFreezes z).recomputeZone z
theorem Part.Marks.releaseZone (h : p.Marks q) (z : ZoneId) : p.Marks (q.releaseZone z).1 := by
  grind [Part.releaseZone, executeRelease, record]
theorem Part.Marks.loopChangesAt (h : p.Marks q) (changes : List LoopReport) (z : ZoneId) :
    p.Marks (q.loopChangesAt changes z) :=
  h.foldl (fun (r : Part) (c : LoopReport) => r.changeLoop c.loop c.state) (fun r _ => (refl r).changeLoop _ _) _
theorem Part.Marks.releaseZones (h : p.Marks q) (zones : BitVec 6) (changes : List LoopReport) :
    p.Marks (q.releaseZones zones changes).part := by
  refine h.trans (foldl_keeps (R := fun a b : ReleaseResult => a.part.Marks b.part) (fun r => refl r.part)
    (fun h k => h.trans k) (fun r z => ?_) allZones ⟨q, 0, 0⟩)
  have step := ((refl r.part).loopChangesAt changes z).releaseZone z
  split
  · dsimp only; split <;> exact step
  · exact refl r.part
theorem Part.Marks.takeKey (h : p.Marks q) (zones : BitVec 6) (cmd : KeyCommand) (l : LineId) (station : BitVec 4) :
    p.Marks (q.takeKey zones cmd l station) :=
  h.foldl _ (fun r z => by split; exacts [((refl r).modZone z _).recomputeZone z, refl r]) _
theorem Part.Marks.answerKey (h : p.Marks q) (l : LineId) (addr : BitVec 4) (zones command : Byte) :
    p.Marks (q.answerKey l addr zones command) := by
  grind [Part.answerKey, lineBusyUntilGap, modLine, record, takeKey]
theorem Part.Marks.hearKey (h : p.Marks q) (l : LineId) (addr : BitVec 4) (zones command : Byte) (resultFirst : Bool) :
    p.Marks (q.hearKey l addr zones command resultFirst) := by
  unfold Part.hearKey
  dsimp only
  split
  · split <;> try exact h
    all_goals
      split
      · exact h.answerKey l _ _ _
      · split
        · exact h
        · split
          · exact (h.countTest l _ _ _ _).answerKey l _ _ _
          all_goals
            split
            · exact (h.failExchange l _ _).answerKey l _ _ _
            · exact (h.answerKey l _ _ _).failExchange l _ _
  · exact h.hearOther l _
theorem Part.Marks.takeFrame (h : p.Marks q) (l : LineId) (f : Frame) : p.Marks (q.takeFrame l f) := by
  cases f with
  | key a z c => exact h.hearKey l a z c true
  | status a x m y => exact h.hearStatus l a x m y
  | accept a => exact h.hearAccept l a
  | busy a => exact h.hearBusy l a
  | refuse a r => exact h.hearRefuse l a r
  | test a b => exact h.hearEcho l a _ true
  | order _ _ => exact h.hearOther l .valid
  | query _ => exact h.hearOther l .valid
  | halt _ => exact h.hearOther l .valid
theorem Part.Marks.takeFound (h : p.Marks q) (l : LineId) (found : Found) : p.Marks (q.takeFound l found) := by
  cases found with
  | nothing => exact h
  | frame f => exact h.takeFrame l f
  | damagedEcho a received => exact h.hearEcho l a received false
  | damaged => exact h.hearOther l .damaged
theorem Part.Marks.hearReception (h : p.Marks q) (l : LineId) (k : Reception) : p.Marks (q.hearReception l k) := by
  grind [Part.hearReception, modLine, takeFound]

/-! ## The Weather Unit -/

theorem Part.Marks.countPulse (h : p.Marks q) : p.Marks q.countPulse := h.setWeather _
theorem Part.Marks.publish (h : p.Marks q) (j : Judged) (c : Condition) : p.Marks (q.publish j c) := by
  grind [Part.publish, recomputeAll, setWeather]
theorem Part.Marks.endWindWindow (h : p.Marks q) (vane : BitVec 3) (order : PublicationOrder) :
    p.Marks (q.endWindWindow vane order) :=
  ((h.advanceTo _).setWeather _).foldl _ (fun r c => (refl r).publish _ c) _
theorem Part.Marks.changeRainContact (h : p.Marks q) (active : Bool) : p.Marks (q.changeRainContact active) := by
  unfold Part.changeRainContact
  dsimp only
  split <;> first | exact h | exact h.setWeather _
theorem Part.Marks.expireRain (h : p.Marks q) : p.Marks q.expireRain := by grind [Part.expireRain, recomputeAll, setWeather]
theorem Part.Marks.rainTimerExpiry (h : p.Marks q) : p.Marks q.rainTimerExpiry := by
  grind [Part.rainTimerExpiry, advanceTo, expireRain]

/-! ## The Command Unit -/

theorem Part.Marks.setRelease (h : p.Marks q) (r : Release) : p.Marks (q.setRelease r) := h.setCmd _
theorem Part.Marks.abandonRelease (h : p.Marks q) : p.Marks q.abandonRelease := (h.setRelease _).record _ _
theorem Part.Marks.nameReleaseZones (h : p.Marks q) : p.Marks q.nameReleaseZones.part := by
  grind [Part.nameReleaseZones, abandonRelease, setRelease, refused, done]
theorem Part.Marks.endRelease (h : p.Marks q) (changes : List LoopReport) : p.Marks (q.endRelease changes).part := by
  grind [Part.endRelease, abandonRelease, setRelease, refused, releaseZones]
theorem Part.Marks.releaseTimerExpiry (h : p.Marks q) : p.Marks q.releaseTimerExpiry := by
  grind [Part.releaseTimerExpiry, advanceTo, abandonRelease]
theorem Part.Marks.clearFault (h : p.Marks q) (n : ChannelId) : p.Marks (q.clearFault n) := by
  grind [Part.clearFault, leaveFaulted]
theorem Part.Marks.faultClear (h : p.Marks q) : p.Marks q.faultClear.part := by
  unfold Part.faultClear
  split
  · exact h.forEach _ _ fun n r => (refl r).clearFault n
  · exact h
theorem Part.Marks.lineToRun (h : p.Marks q) (l : LineId) : p.Marks (q.lineToRun l).part := by
  grind [Part.lineToRun, enterLine, restartLine, refused, done]
theorem Part.Marks.lineToQuiet (h : p.Marks q) (l : LineId) : p.Marks (q.lineToQuiet l).part := by
  grind [Part.lineToQuiet, enterLine, refused, done]
theorem Part.Marks.lineStateCommand (h : p.Marks q) : p.Marks q.lineStateCommand.part := by
  grind [Part.lineStateCommand, disableLine, lineToRun, lineToQuiet, refused, done]
theorem Part.Marks.startTest (h : p.Marks q) (l : LineId) (k : TestKind) (target : BitVec 4) :
    p.Marks (q.startTest l k target) := ((h.modLine l _).modTest l _).enterLine l _
theorem Part.Marks.testStartCommand (h : p.Marks q) : p.Marks q.testStartCommand.part := by
  grind [Part.testStartCommand, startTest, refused, done]
theorem Part.Marks.stopTest (h : p.Marks q) (l : LineId) : p.Marks (q.stopTest l) := (h.modTest l _).enterLine l _
theorem Part.Marks.testStopCommand (h : p.Marks q) : p.Marks q.testStopCommand.part := by
  grind [Part.testStopCommand, stopTest, refused, done]
theorem Part.Marks.leaveLine (h : p.Marks q) (n : ChannelId) : p.Marks (q.leaveLine n) :=
  ((h.abandonFor _ n).removeOrder n).modLine _ _
theorem Part.Marks.setConfig (h : p.Marks q) (n : ChannelId) (cfg : ChannelConfig) : p.Marks (q.setConfig n cfg) := h.modChan n _
theorem Part.Marks.commitOffline (h : p.Marks q) (n : ChannelId) (cfg : ChannelConfig) : p.Marks (q.commitOffline n cfg) :=
  (((h.modChan n _).setConfig n cfg).setMotion n _).dueAtOnce n
theorem Part.Marks.commitChannel (h : p.Marks q) (n : ChannelId) (cfg : ChannelConfig) : p.Marks (q.commitChannel n cfg) := by
  grind [Part.commitChannel, commitOffline, leaveLine, modChan, record, setConfig, setMotion]
theorem Part.Marks.commitExpiry (h : p.Marks q) (n : ChannelId) : p.Marks (q.commitExpiry n) := by
  grind [Part.commitExpiry, expireTravel]
theorem Part.Marks.commitReview (h : p.Marks q) (n : ChannelId) : p.Marks (q.commitReview n) := by
  grind [Part.commitReview, removeOrder, stopTravel, setMotion, testIdle]
theorem Part.Marks.commitLoops (h : p.Marks q) (words : ConfigWords) : p.Marks (q.commitLoops words) :=
  (h.foldl _ (fun r z => (refl r).modZone z _) _).setGa _
theorem Part.Marks.commitWind (h : p.Marks q) (old : GlobalConfig) : p.Marks (q.commitWind old) := by
  grind [Part.commitWind, setWeather]
theorem Part.Marks.commitRain (h : p.Marks q) (old : GlobalConfig) : p.Marks (q.commitRain old) := by
  grind [Part.commitRain, expireRain]
theorem Part.Marks.commitSupervision (h : p.Marks q) (old : GlobalConfig) : p.Marks (q.commitSupervision old) := by
  unfold Part.commitSupervision
  split
  · exact h
  · exact h.forEach _ _ fun n r => by grind [dueAtOnce, refl]
theorem Part.Marks.commit (h : p.Marks q) : p.Marks q.commit := by
  have configured := (h.forEach allChannels _ fun n r => (refl r).commitChannel n (pendingChannel q.cmd.pending n)).setGlobals
    (pendingGlobals q.cmd.pending)
  have reviewed := ((configured.forEach (allChannels.filter fun n =>
    decide (commitCase (q.chan n).cfg (pendingChannel q.cmd.pending n) = .kept)) _ fun n r =>
      (refl r).commitExpiry n).recomputeAll).forEach (allChannels.filter fun n =>
    decide (commitCase (q.chan n).cfg (pendingChannel q.cmd.pending n) = .kept)) _ fun n r => (refl r).commitReview n
  exact ((((reviewed.commitLoops q.cmd.pending).commitWind q.globals).commitRain q.globals).commitSupervision q.globals).setCmd _
theorem Part.Marks.configCommit (h : p.Marks q) : p.Marks q.configCommit.part := by
  grind [Part.configCommit, commit, refused, done]
theorem Part.Marks.decideCommand (h : p.Marks q) (changes : List LoopReport) (c : Option CommandCode) :
    p.Marks (q.decideCommand changes c).part := by
  unfold Part.decideCommand
  split
  · exact h.configCommit
  · exact h.faultClear
  · exact h.lineStateCommand
  · exact h.testStartCommand
  · exact h.testStopCommand
  · exact h.setRelease _
  · exact h.nameReleaseZones
  · exact h.endRelease changes
  · exact h
theorem Part.Marks.interrupt (h : p.Marks q) (c : Option CommandCode) : p.Marks (q.interrupt c) := by
  grind [Part.interrupt, abandonRelease]
theorem Part.Marks.takeCommand (h : p.Marks q) (code : Word) (changes : List LoopReport) :
    p.Marks (q.takeCommand code changes) := by
  have decided := (h.interrupt (commandOfCode code)).decideCommand changes (commandOfCode code)
  unfold Part.takeCommand Verdict.conclude
  dsimp only
  split
  · exact (decided.record _ _).setCmd _
  · exact decided.setCmd _

/-! ## Captures and first samples -/

theorem Part.Marks.captureTarget (h : p.Marks q) (n : ChannelId) (w : Word) : p.Marks (q.captureTarget n w) := by
  grind [Part.captureTarget, recordAtGate, modChan, recompute]
theorem Part.Marks.firstSamples (h : p.Marks q) (zoneLoops : Vector LoopState 6) (gaLoop : LoopState) :
    p.Marks (q.firstSamples zoneLoops gaLoop) :=
  (h.foldl _ (fun r _ => (refl r).changeLoop _ _) _).changeLoop _ _

end
end Sys2Proof.Machine
end

section
/-! SUPPORT. The write-back list, the marks and the coherence of memory through a step (R16, R160 to R162). -/

namespace Sys2Proof.Machine

/-! ## The addresses of the window -/

/-- The word at each place of a record that the part writes is marked there. -/
theorem dirtyPlace_owned (r : RecordId) (k : Fin 8) (h : (ownedMask r).getLsbD k.val = true) :
    (windowWord (BitVec.ofNat 10 (recordOffset r + k.val))).dirtyPlace = some (r, k) := by
  cases r with
  | channel n => revert n k; decide +kernel
  | zone z => revert z k; decide +kernel
  | line l => revert l k; decide +kernel
  | bank b => cases b with
    | line l => revert l k; decide +kernel
    | _ => revert k; decide +kernel
  | test l => revert l k; decide +kernel
  | _ => revert k; decide +kernel

theorem recordOffset_lt (r : RecordId) (k : Fin 8) : recordOffset r + k.val < 1024 := by
  cases r with
  | bank b => have := (bankIndex b).isLt; simp only [bankIndex] at this; simp only [recordOffset]; omega
  | _ => simp only [recordOffset]; omega

/-- Records stand at different offsets, eight words apart. -/
theorem recordOffset_inj {r q : RecordId} {j k : Fin 8} (h : recordOffset r + j.val = recordOffset q + k.val) :
    r = q ∧ j = k := by
  have eight (a : RecordId) : recordOffset a % 8 = 0 := by cases a <;> simp only [recordOffset] <;> omega
  have hr := eight r
  have hq := eight q
  have hjk : j = k := Fin.ext (by omega)
  have ho : recordOffset r = recordOffset q := by omega
  refine ⟨recordNumber_injective r q ?_, hjk⟩
  cases r <;> cases q <;> simp only [recordOffset] at ho <;> simp only [recordNumber] <;> omega

theorem Bus.addressOf_inj (b : Bus) {x y : Nat} (hx : x < 1024) (hy : y < 1024) (h : b.addressOf x = b.addressOf y) : x = y := by
  have hn : BitVec.ofNat 20 x = BitVec.ofNat 20 y := (BitVec.add_right_inj b.base).mp h
  have := congrArg BitVec.toNat hn
  simp only [BitVec.toNat_ofNat] at this
  omega

/-- The address of an offset of the window has that offset. -/
theorem Bus.offsetOf_addressOf (b : Bus) {x : Nat} (hx : x < 1024) : b.offsetOf (b.addressOf x) = some (BitVec.ofNat 10 x) := by
  have hd : b.addressOf x - b.base = BitVec.ofNat 20 x := by
    rw [Bus.addressOf, BitVec.add_comm, BitVec.add_sub_cancel]
  have hn : (BitVec.ofNat 20 x).toNat = x := by rw [BitVec.toNat_ofNat]; omega
  rw [Bus.offsetOf, hd, hn, if_pos hx]
  congr 1
  apply BitVec.eq_of_toNat_eq
  rw [BitVec.extractLsb'_toNat, hn, BitVec.toNat_ofNat, Nat.shiftRight_zero]

/-- The address of a place of a record is not that of a word which has no dirty mark. -/
theorem Bus.addressOf_owned_ne (b : Bus) (r : RecordId) (k : Fin 8) (ho : (ownedMask r).getLsbD k.val = true) {off : BitVec 10}
    (hw : (windowWord off).dirtyPlace = none) : b.addressOf (recordOffset r + k.val) ≠ b.addressOf off.toNat := by
  intro e
  have h := b.addressOf_inj (recordOffset_lt r k) off.isLt e
  have hp := dirtyPlace_owned r k ho
  rw [h, BitVec.ofNat_toNat, BitVec.setWidth_eq, hw] at hp
  exact absurd hp (by simp)

/-- A write cycle leaves every other word as it was. -/
theorem Bus.wordAt_writeWord_of_ne (b c : Bus) {a addr : Addr} (be : ByteEnables) (w : Word) (h : a ≠ addr)
    (hm : c.mem = b.mem.writeWord addr be w) (hp : c.powerOns = b.powerOns) : c.wordAt a = b.wordAt a := by
  have byte (lane : Lane) : c.byteAt (byteKey a lane) = b.byteAt (byteKey a lane) := by
    unfold Bus.byteAt
    rw [hm, hp, Memory.read_writeWord_of_ne _ _ _ _ (fun e => h (byteKey_inj e).1) (fun e => h (byteKey_inj e).1)]
  unfold Bus.wordAt
  rw [byte, byte]

theorem Memory.writeWord_none (m : Memory) (addr : Addr) {be : ByteEnables} (w : Word) (h : be.some = false) :
    m.writeWord addr be w = m := by
  obtain ⟨u, l⟩ := be
  obtain ⟨rfl, rfl⟩ : u = false ∧ l = false := by simpa [ByteEnables.some] using h
  rfl

/-! ## What a step does to list, marks and memory -/

/-- From `s` to `t` the write-back list stays covering, changes are marked, and memory stays coherent with clean words. -/
structure State.Upkeep (s t : State) : Prop where
  covers : s.listCovers → t.listCovers
  marked : s.ChangesMarked t
  coherent : s.coherent → t.coherent

theorem Part.Marks.changed {p q : Part} (h : p.Marks q) (r : RecordId) (k : Fin 8) (ho : (ownedMask r).getLsbD k.val = true)
    (hne : q.wordOf r k.val ≠ p.wordOf r k.val) : (q.dirtyOf r).getLsbD k.val = true := by
  by_contra hc
  exact hne (h.clean r k ho (Bool.not_eq_true _ ▸ hc))

/-- A step that marks what it changes and leaves the window's words in memory alone. -/
theorem State.Upkeep.of_marks {s t : State} (hl : s.listCovers → t.listCovers) (hm : s.part.Marks t.part)
    (hw : ∀ (r : RecordId) (k : Fin 8), (ownedMask r).getLsbD k.val = true →
      t.bus.wordAt (t.bus.addressOf (recordOffset r + k.val)) = s.bus.wordAt (s.bus.addressOf (recordOffset r + k.val))) :
    s.Upkeep t where
  covers := hl
  marked r k ho hne := hm.changed r k ho hne
  coherent h r k ho hc := by rw [hw r k ho, h r k ho (hm.kept r k hc), hm.clean r k ho hc]

/-- A step that begins by one that changes no word of the part. -/
theorem State.Upkeep.after {s u t : State} (h : s.Upkeep u) (k : u.Upkeep t)
    (hw : ∀ r k, u.part.wordOf r k = s.part.wordOf r k) : s.Upkeep t where
  covers c := k.covers (h.covers c)
  marked r i ho hne := k.marked r i ho (by rwa [hw])
  coherent c := k.coherent (h.coherent c)

/-- A step after which every word the part writes is dirty. -/
theorem State.Upkeep.of_allDirty {s t : State} (hl : t.listCovers)
    (hd : ∀ (r : RecordId) (k : Fin 8), (ownedMask r).getLsbD k.val = true → (t.part.dirtyOf r).getLsbD k.val = true) :
    s.Upkeep t where
  covers _ := hl
  marked r k ho _ := hd r k ho
  coherent _ r k ho hc := by rw [hd r k ho] at hc; exact Bool.noConfusion hc

theorem State.Upkeep.event (s : State) {act : Part → Part} (h : s.part.Marks (act s.part)) : s.Upkeep (s.event act) :=
  .of_marks (fun c => s.event_listCovers act c.nodup c.begun) (by rw [State.event_part]; exact h.completeQuieting)
    fun r k _ => by
      simp only [Bus.wordAt, Bus.byteAt, Bus.addressOf, Bus.base, State.event_mem, State.event_straps, State.event_powerOns]

/-- A change of the Bus Gate's own fields. -/
theorem State.Upkeep.bus (s : State) (b : Bus) (hl : b.list = s.bus.list) (hs : b.snapshot = s.bus.snapshot)
    (ht : b.straps = s.bus.straps) (hm : b.mem = s.bus.mem) (hp : b.powerOns = s.bus.powerOns) : s.Upkeep { s with bus := b } :=
  .of_marks (fun c => ⟨hl ▸ c.nodup, fun r hr => hl ▸ c.covers r hr, by show b.snapshot = none ↔ b.list = []; rw [hl, hs]; exact c.begun⟩)
    (.refl _) (fun r k _ => by simp only [Bus.wordAt, Bus.byteAt, Bus.addressOf, Bus.base, hm, hp, ht])

/-! ## Write-back cycles and the grant -/

/-- Shown marks are in no word. -/
theorem Part.showItems_wordOf (p : Part) (r q : RecordId) (k : Nat) : (p.showItems r).wordOf q k = p.wordOf q k := by
  have bank (b c : BankId) (x : Bank) (h : bankWord x k = bankWord (p.bank b) k) :
      bankWord ((p.setBank b x).bank c) k = bankWord (p.bank c) k := by
    rw [Part.bank_setBank]; split
    · rename_i e; subst e; exact h
    · rfl
  unfold Part.showItems
  split
  · rename_i b
    dsimp only
    split
    · cases q with
      | bank c => exact bank b c _ (by unfold bankWord; split <;> rfl)
      | _ => rfl
    · rfl
  · split <;> cases q <;> rfl
  all_goals rfl

theorem State.endSnapshot_wordOf (s : State) (r q : RecordId) (rest : List RecordId) (k : Nat) :
    (s.endSnapshot r rest).part.wordOf q k = s.part.wordOf q k := s.part.showItems_wordOf r q k

theorem State.writeBackCycle_wordOf (s : State) (q : RecordId) (k : Nat) : s.writeBackCycle.part.wordOf q k = s.part.wordOf q k := by
  have cycle (r : RecordId) (i : Fin 8) : (s.writeWordBack r i).part.wordOf q k = s.part.wordOf q k := by cases q <;> rfl
  unfold State.writeBackCycle
  split
  · rfl
  · split
    · dsimp only
      split
      · exact ((s.writeWordBack _ _).endSnapshot_wordOf _ q _ k).trans (cycle _ _)
      · exact cycle _ _
    · exact s.endSnapshot_wordOf _ q _ k

/-- Every bit but one. -/
theorem getLsbD_not_bit {i k : Fin 8} (h : i ≠ k) : (~~~ BitVec.ofNat 8 (2 ^ k.val)).getLsbD i.val = true := by
  revert i k; decide

/-- R162: the word written back is clean and reads in memory as the part's value; no other word changes. -/
theorem State.writeWordBack_coherent {s : State} (h : s.coherent) (r : RecordId) (k : Fin 8) : (s.writeWordBack r k).coherent := by
  intro q i ho hc
  rw [State.writeWordBack_dirtyOf] at hc
  show (s.writeWordBack r k).bus.wordAt (s.bus.addressOf (recordOffset q + i.val)) = s.part.wordOf q i.val
  by_cases e : s.bus.addressOf (recordOffset q + i.val) = s.bus.addressOf (recordOffset r + k.val)
  · obtain ⟨rfl, rfl⟩ := recordOffset_inj (s.bus.addressOf_inj (recordOffset_lt q i) (recordOffset_lt r k) e)
    exact Bus.wordAt_of_writeWord _ s.bus.mem _ _ rfl
  · rw [Bus.wordAt_writeWord_of_ne s.bus (s.writeWordBack r k).bus wholeWord (s.part.wordOf r k.val) e rfl rfl]
    refine h q i ho ?_
    split at hc
    · rename_i eq; subst eq
      have ne : i ≠ k := fun eq => e (by rw [eq])
      rw [dropWord, BitVec.getLsbD_and] at hc
      rwa [getLsbD_not_bit ne, Bool.and_true] at hc
    · exact hc

/-- The end of a snapshot touches neither memory nor marks. -/
theorem State.endSnapshot_coherent {s : State} (h : s.coherent) (r : RecordId) (rest : List RecordId) :
    (s.endSnapshot r rest).coherent := by
  intro q i ho hc
  have hd : (s.endSnapshot r rest).part.dirtyOf q = s.part.dirtyOf q := Part.showItems_dirtyOf _ _ _
  rw [hd] at hc
  rw [State.endSnapshot_wordOf]
  exact h q i ho hc

theorem State.writeBackCycle_coherent {s : State} (h : s.coherent) : s.writeBackCycle.coherent := by
  unfold State.writeBackCycle
  split
  · exact h
  · split
    · dsimp only
      have h1 := State.writeWordBack_coherent h
      split
      · exact State.endSnapshot_coherent (h1 _ _) _ _
      · exact h1 _ _
    · exact State.endSnapshot_coherent h _ _

theorem State.Upkeep.writeBackCycle (s : State) : s.Upkeep s.writeBackCycle where
  covers := State.writeBackCycle_listCovers
  marked r k _ hne := absurd (s.writeBackCycle_wordOf r k.val) hne
  coherent := State.writeBackCycle_coherent

theorem State.grant_wordOf (s : State) (r : RecordId) (k : Nat) : s.grant.part.wordOf r k = s.part.wordOf r k := by
  rcases s.grant_cases with ⟨_, e⟩ | ⟨_, e⟩ <;> rw [e]
  exact s.writeBackCycle_wordOf r k

theorem State.Upkeep.grant (s : State) : s.Upkeep s.grant := by
  rcases s.grant_cases with ⟨_, e⟩ | ⟨_, e⟩ <;> rw [e]
  · exact .bus s _ rfl rfl rfl rfl rfl
  · exact (State.Upkeep.writeBackCycle s).after (.bus s.writeBackCycle _ rfl rfl rfl rfl rfl) s.writeBackCycle_wordOf

/-! ## Host accesses -/

/-- A write cycle that reaches no word of the part. -/
theorem State.Upkeep.memoryWrite (s : State) (addr : Addr) (be : ByteEnables) (w : Word)
    (h : be.some = false ∨ ∀ (r : RecordId) (k : Fin 8), (ownedMask r).getLsbD k.val = true →
      s.bus.addressOf (recordOffset r + k.val) ≠ addr) : s.Upkeep (s.memoryWrite addr be w) := by
  refine .of_marks (fun c => ⟨c.nodup, c.covers, c.begun⟩) (.refl _) fun r k ho => ?_
  rcases h with hb | ha
  · show Bus.wordAt { s.bus with mem := s.bus.mem.writeWord addr be w } _ = _
    rw [Memory.writeWord_none _ _ _ hb]
    rfl
  · exact Bus.wordAt_writeWord_of_ne s.bus _ be w (ha r k ho) rfl rfl

theorem State.Upkeep.refl (s : State) : s.Upkeep s := .of_marks id (.refl _) fun _ _ _ => rfl

theorem State.Upkeep.forwardWrite (s : State) (addr : Addr) (be : ByteEnables) (data : Word)
    (h : be.some = false ∨ ∀ (r : RecordId) (k : Fin 8), (ownedMask r).getLsbD k.val = true →
      s.bus.addressOf (recordOffset r + k.val) ≠ addr) : s.Upkeep (s.forwardWrite addr be data) := by
  unfold State.forwardWrite
  split
  · exact .refl s
  · refine (State.Upkeep.grant s).after (.memoryWrite s.grant addr be data ?_) s.grant_wordOf
    simpa only [Bus.addressOf, Bus.base, State.grant_straps] using h

/-- A write of a word that has no dirty mark, followed by an event of the part. -/
theorem State.Upkeep.writeThenEvent (s : State) {off : BitVec 10} (hoff : (windowWord off).dirtyPlace = none)
    (be : ByteEnables) (w : Word) {act : Part → Part} (h : ∀ p : Part, p.Marks (act p)) :
    s.Upkeep ((s.grant.memoryWrite (s.bus.addressOf off.toNat) be w).event act) := by
  refine (State.Upkeep.grant s).after ?_ s.grant_wordOf
  have base : s.grant.bus.addressOf = s.bus.addressOf := by
    funext x; simp only [Bus.addressOf, Bus.base, State.grant_straps]
  refine (State.Upkeep.memoryWrite s.grant (s.bus.addressOf off.toNat) be w (.inr fun r k ho => ?_)).after
    (.event _ (h _)) fun _ _ => rfl
  rw [base]
  exact s.bus.addressOf_owned_ne r k ho hoff

theorem State.Upkeep.hostWritten (s : State) {off : Nat} (hlt : off < 1024)
    (hoff : (windowWord (BitVec.ofNat 10 off)).dirtyPlace = none) (be : ByteEnables) (data : Word)
    (captured : Part → Word) (check : Word → Word) {capture : Word → Part → Part} (h : ∀ w (p : Part), p.Marks (capture w p)) :
    s.Upkeep (s.hostWritten off be data captured check capture) := by
  have hn : (BitVec.ofNat 10 off).toNat = off := by rw [BitVec.toNat_ofNat]; omega
  unfold State.hostWritten
  split
  · exact .refl s
  · split
    · have k := State.Upkeep.writeThenEvent s hoff wholeWord (check (merge be data (captured s.part)))
        (h (merge be data (captured s.part)))
      rwa [hn] at k
    · rename_i hb
      exact .forwardWrite s _ be data (.inl (Bool.not_eq_true _ ▸ hb))

theorem State.Upkeep.noWaitEvent (s : State) {act : Part → Part} (h : ∀ p : Part, p.Marks (act p)) :
    s.Upkeep (s.noWait.event act) :=
  (State.Upkeep.bus s _ rfl rfl rfl rfl rfl : s.Upkeep s.noWait).after (.event _ (h _)) fun _ _ => rfl

theorem State.Upkeep.capturedOnly (s : State) (off : Nat) (be : ByteEnables) (data : Word) (r : RecordId) (k : Nat)
    {take : Word → Part → Part} (h : ∀ w (p : Part), p.Marks (take w p)) : s.Upkeep (s.capturedOnly off be data r k take) := by
  unfold State.capturedOnly
  split
  · exact .refl s
  · split
    · exact .noWaitEvent s (h _)
    · rename_i hb
      exact .forwardWrite s _ be data (.inl (Bool.not_eq_true _ ▸ hb))

theorem State.Upkeep.droppedWrite (s : State) (off : Nat) (be : ByteEnables) (data : Word) (kind : ErrorKind) :
    s.Upkeep (s.droppedWrite off be data kind) := by
  unfold State.droppedWrite
  split
  · exact .refl s
  · split
    · exact .noWaitEvent s fun p => (Part.Marks.refl p).recordAtGate _ _
    · rename_i hb
      exact .forwardWrite s _ be data (.inl (Bool.not_eq_true _ ▸ hb))

theorem State.Upkeep.writeTarget (s : State) (n : ChannelId) (be : ByteEnables) (data : Word) : s.Upkeep (s.writeTarget n be data) :=
  .hostWritten s (by unfold requestedOffset; omega) (by revert n; decide +kernel) be data _ _
    fun w p => (Part.Marks.refl p).captureTarget n w

theorem State.Upkeep.writeNotify (s : State) (n : ChannelId) (be : ByteEnables) (data : Word) : s.Upkeep (s.writeNotify n be data) :=
  .hostWritten s (by unfold notifyOffset; omega) (by revert n; decide +kernel) be data _ _
    fun _ p => (Part.Marks.refl p).modChan n _

theorem State.Upkeep.writeConfiguration (s : State) (i : Fin 209) (be : ByteEnables) (data : Word) :
    s.Upkeep (s.writeConfiguration i be data) :=
  .hostWritten s (by unfold configurationOffset; omega) (by revert i; decide +kernel) be data _ _
    fun _ p => (Part.Marks.refl p).setCmd _

theorem State.Upkeep.writeArgument (s : State) (i : Fin 3) (be : ByteEnables) (data : Word) : s.Upkeep (s.writeArgument i be data) :=
  .hostWritten s (by unfold argumentOffset; omega) (by revert i; decide +kernel) be data _ _
    fun _ p => (Part.Marks.refl p).setCmd _

theorem State.Upkeep.writePattern (s : State) (l : LineId) (i : Fin 4) (be : ByteEnables) (data : Word) :
    s.Upkeep (s.writePattern l i be data) :=
  .hostWritten s (by unfold patternOffset; omega) (by revert l i; decide +kernel) be data _ _
    fun _ p => (Part.Marks.refl p).modTest l _

theorem State.Upkeep.writeEnable (s : State) (b : BankId) (be : ByteEnables) (data : Word) : s.Upkeep (s.writeEnable b be data) :=
  .hostWritten s (by have := (bankIndex b).isLt; simp only [bankIndex] at this; unfold enableOffset; omega)
    (by cases b with
      | line l => revert l; decide +kernel
      | _ => decide +kernel) be data _ _
    fun _ p => (Part.Marks.refl p).setBank b _

theorem State.Upkeep.writeCommand (s : State) (code : Word) (changes : List LoopReport) : s.Upkeep (s.writeCommand code changes) := by
  unfold State.writeCommand
  split
  · exact .refl s
  · exact .writeThenEvent s (off := BitVec.ofNat 10 commandOffset) (by decide +kernel) wholeWord code
      fun p => (Part.Marks.refl p).takeCommand code changes

/-- A write by its class (R153): only words without a dirty mark are forwarded. -/
theorem State.Upkeep.windowWrite (s : State) (off : BitVec 10) (be : ByteEnables) (data : Word) :
    s.Upkeep (s.windowWrite off be data) := by
  have forward (h : (windowWord off).dirtyPlace = none) : s.Upkeep (s.forwardWrite (s.bus.addressOf off.toNat) be data) :=
    .forwardWrite s _ be data (.inr fun r k ho => s.bus.addressOf_owned_ne r k ho h)
  unfold State.windowWrite
  split
  · exact .writeTarget s _ be data
  · exact .writeNotify s _ be data
  · rename_i hw
    split
    · exact .writeCommand s data []
    · exact .droppedWrite s _ _ data _
    · exact .droppedWrite s _ _ data _
    · exact forward (by rw [hw]; rfl)
  · exact .writeArgument s _ be data
  · exact .capturedOnly s _ be data _ _ fun w p => (Part.Marks.refl p).acknowledgeNotices _ w
  · exact .writeConfiguration s _ be data
  · exact .writeEnable s _ be data
  · exact .capturedOnly s _ be data _ _ fun w p => (Part.Marks.refl p).acknowledge _ w
  · exact .capturedOnly s _ be data _ _ fun w p => (Part.Marks.refl p).startCounter _ w
  · exact .writePattern s _ _ be data
  · exact .droppedWrite s _ be data _
  · rename_i hw
    exact forward (by rw [hw]; rfl)

/-- An address outside the window is none of the window's. -/
theorem State.Upkeep.hostWrite (s : State) (addr : Addr) (be : ByteEnables) (data : Word) : s.Upkeep (s.hostWrite addr be data) := by
  unfold State.hostWrite
  split
  · exact .windowWrite s _ be data
  · rename_i hout
    refine .forwardWrite s addr be data (.inr fun r k _ e => ?_)
    rw [← e, Bus.offsetOf_addressOf _ (recordOffset_lt r k)] at hout
    exact absurd hout (by simp)

theorem State.Upkeep.hostRead (s : State) (addr : Addr) (be : ByteEnables) : s.Upkeep (s.hostRead addr be) := by
  unfold State.hostRead
  split
  · exact .refl s
  · exact (State.Upkeep.grant s).after (.bus s.grant _ rfl rfl rfl rfl rfl) s.grant_wordOf

/-! ## Resets -/

/-- R165: in a pass every word the part writes is dirty. -/
theorem Part.dirtyOf_allDirty {p : Part} (h : p.dirty = allDirty) (r : RecordId) : p.dirtyOf r = ownedMask r := by
  have place : ∀ r : RecordId, allRecords[recordNumber r]? = some r := by
    intro r
    cases r with
    | channel n => revert n; decide +kernel
    | zone z => revert z; decide +kernel
    | line l => revert l; decide +kernel
    | bank b => cases b with
      | line l => revert l; decide +kernel
      | _ => decide +kernel
    | test l => revert l; decide +kernel
    | _ => decide +kernel
  unfold Part.dirtyOf
  rw [h]
  simp only [allDirty, Vector.getElem_ofFn, recordIndex, place, Option.map_some, Option.getD_some]

theorem State.assertRstn_listCovers (s : State) (straps : BitVec 3) : (s.assertRstn straps).listCovers :=
  ⟨nodup_allRecords, fun r _ => mem_allRecords r, by simp [State.assertRstn, allRecords]⟩

theorem State.Upkeep.assertRstn (s : State) (straps : BitVec 3) : s.Upkeep (s.assertRstn straps) :=
  .of_allDirty (s.assertRstn_listCovers straps) fun r k ho => by
    rw [Part.dirtyOf_allDirty (p := (s.assertRstn straps).part) rfl]; exact ho

theorem State.Upkeep.powerOn (s : State) (straps : BitVec 3) (zoneLoops : Vector LoopState 6) (gaLoop : LoopState)
    (rainActive : Bool) : s.Upkeep (s.powerOn straps zoneLoops gaLoop rainActive) := by
  have marks := ((Part.Marks.refl (initialPart rainActive)).firstSamples zoneLoops gaLoop).completeQuieting
  unfold State.powerOn
  refine .of_allDirty (State.event_listCovers _ _ nodup_allRecords (by simp [initialBus, allRecords])) fun r k ho => ?_
  rw [State.event_part]
  by_contra hc
  have clean := marks.kept r k (Bool.not_eq_true _ ▸ hc)
  rw [Part.dirtyOf_allDirty rfl, ho] at clean
  exact Bool.noConfusion clean

/-! ## Every command -/

/-- A command's next state, by the kind of the command. -/
theorem exec_upkeep (c : Instr) (s t : State) (h : exec c s = .next t) : s.Upkeep t := by
  have ev {act : Part → Part} (hm : ∀ p : Part, p.Marks (act p)) : s.Upkeep (s.event act) := .event s (hm _)
  have m := Part.Marks.refl
  cases c <;> (injection h with h; subst h)
  case powerOnReset straps zs ga rain => exact .powerOn s straps zs ga rain
  case rstn straps => exact .assertRstn s straps
  case requestedTargetWrite n be data => exact .writeTarget s n be data
  case notifyWrite n be data => exact .writeNotify s n be data
  case configurationWrite i be data => exact .writeConfiguration s i be data
  case argumentWrite i be data => exact .writeArgument s i be data
  case patternWrite l i be data => exact .writePattern s l i be data
  case enableWordWrite b be data => exact .writeEnable s b be data
  case acknowledgeWordWrite b be data =>
    exact .capturedOnly s _ be data _ _ fun w p => (m p).acknowledge b w
  case counterStartWrite b be data =>
    exact .capturedOnly s _ be data _ _ fun w p => (m p).startCounter b w
  case noticeAcknowledgeWrite i be data =>
    exact .capturedOnly s _ be data _ _ fun w p => (m p).acknowledgeNotices i w
  case ownedWordWrite off be data => exact .windowWrite s off be data
  case commandByteWrite lane data => exact .droppedWrite s _ _ data _
  case forwardedWrite addr be data => exact .hostWrite s addr be data
  case writeBackCycle => exact .writeBackCycle s
  case hostRead addr be => exact .hostRead s addr be
  case rstnDeassertion => exact .bus s _ rfl rfl rfl rfl rfl
  case configCommit => exact .writeCommand s _ _
  case faultClear => exact .writeCommand s _ _
  case lineStateRun => exact .writeCommand s _ _
  case lineStateQuiet => exact .writeCommand s _ _
  case lineStateDisabled => exact .writeCommand s _ _
  case testStart => exact .writeCommand s _ _
  case testStop => exact .writeCommand s _ _
  case releaseBegin => exact .writeCommand s _ _
  case releaseZones => exact .writeCommand s _ _
  case releaseEnd changes => exact .writeCommand s _ _
  case unknownCommand code => exact .writeCommand s _ _
  case releaseTimerExpiry => exact ev fun p => (m p).releaseTimerExpiry
  case loopChange loop state => exact ev fun p => (m p).changeLoop _ _
  case levelTimerExpiry loop => exact ev fun p => (m p).loopTimerExpiry _ _
  case pulseTimerExpiry loop => exact ev fun p => (m p).loopTimerExpiry _ _
  case completenessJudgement z => exact ev fun p => (m p).judgeZone z
  case deadlineSecond z => exact ev fun p => (m p).deadlineSecond z
  case deadlineExpiry z => exact ev fun p => (m p).deadlineExpiry z
  case overrunSecond z => exact ev fun p => (m p).overrunSecond z
  case anemometerPulse => exact ev fun p => (m p).countPulse
  case windowEnd vane order => exact ev fun p => (m p).endWindWindow _ _
  case rainContactChange active => exact ev fun p => (m p).changeRainContact _
  case rainTimerExpiry => exact ev fun p => (m p).rainTimerExpiry
  case transactionStart l => exact ev fun p => (m p).startTransaction l
  case send l => exact ev fun p => (m p).sendFrame l
  case arbitrationLoss l place back => exact ev fun p => (m p).loseArbitration l _ _
  case replyTimeout l => exact ev fun p => (m p).timeOut l
  case damagedFrame l heard => exact ev fun p => (m p).hearReception l _
  case status l a x y z => exact ev fun p => ((m p).frameSeen l).hearStatus l _ _ _ _
  case accept l a => exact ev fun p => ((m p).frameSeen l).hearAccept l _
  case busy l a => exact ev fun p => ((m p).frameSeen l).hearBusy l _
  case refuse l a r => exact ev fun p => ((m p).frameSeen l).hearRefuse l _ _
  case key l a z k first => exact ev fun p => ((m p).frameSeen l).hearKey l _ _ _ _
  case stationAnswer l => exact ev fun p => (m p).sendAnswer l
  case backoffEnd n => exact ev fun p => (m p).endBackoff n
  case travelSecond n => exact ev fun p => (m p).travelSecond n
  case travelExpiry n => exact ev fun p => (m p).travelExpiry n
  case pollDue n => exact ev fun p => (m p).pollFallsDue n
  case supervisionDue n => exact ev fun p => (m p).supervisionFallsDue n
  case stationWindowDue l => exact ev fun p => (m p).windowFallsDue l
  case stationWindowEnd l => exact ev fun p => (m p).endWindow l
  case lineStuck l t => exact ev fun p => (m p).lineStuck l t
  case lineRecovery l t => exact ev fun p => (m p).lineRecovery l t
  case testFrameStart l => exact ev fun p => (m p).startTestFrame l
  case localEchoCheck l back => exact ev fun p => (m p).checkLocalEcho l _
  case testEcho l a r g => exact ev fun p => ((m p).frameSeen l).hearEcho l _ _ _
  case missingEcho l => exact ev fun p => (m p).missEcho l

/-- A step is a command's or a millisecond. -/
theorem step_cases {s t : State} (h : step s = .next t) :
    (s.pending = [] ∧ t = s.idle) ∨ ∃ c rest, s.pending = c :: rest ∧ exec c { s with pending := rest } = .next t := by
  unfold step at h
  split at h
  · rename_i e; injection h with h; exact .inl ⟨e, h.symm⟩
  · rename_i c rest e; exact .inr ⟨c, rest, e, h⟩

theorem step_upkeep {s t : State} (h : step s = .next t) : s.Upkeep t := by
  rcases step_cases h with ⟨_, rfl⟩ | ⟨c, rest, _, h⟩
  · exact .of_marks (fun c => ⟨c.nodup, c.covers, c.begun⟩) (.of_same rfl fun r _ => by cases r <;> rfl) fun _ _ _ => rfl
  · obtain ⟨covers, marked, coherent⟩ := exec_upkeep c { s with pending := rest } t h
    exact ⟨fun c => covers ⟨c.nodup, c.covers, c.begun⟩, marked, coherent⟩

/-- Settles O5: every step is an upkeep of list, marks and memory, and a list without repetition has at most 73 entries. -/
theorem stepKeepsTheWriteBackListCovering : Obligations.StepKeepsTheWriteBackListCovering := by
  intro s t h
  have k := step_upkeep h
  exact ⟨fun c => ⟨k.covers c, length_le_of_nodup (k.covers c).nodup⟩, k.marked, k.coherent⟩

end Sys2Proof.Machine
end

section
/-! SUPPORT. The events of the field lines, their channels and the line tests. -/

namespace Sys2Proof.Machine

/-- An operation that keeps the grants, as one event, is an answer that keeps them and touches no more than the list. -/
theorem State.event_answersKeepingGrants (s : State) (act : Part → Part) (h : s.part.KeepsGrants (act s.part)) :
    ∃ t, Host.Outcome.next (s.event act) = (.next t : Host.Outcome State Fault Refusal) ∧
      s.part.KeepsGrants t.part ∧ s.EventOnly t :=
  ⟨_, rfl, s.event_keepsGrants act h, s.event_only act⟩

/-- Settles O48: each of these events is one operation that keeps the grants; a damaged frame is one where its reception is
no KEY frame. -/
theorem lineEventsKeepGrants : Obligations.LineEventsKeepGrants := by
  intro c s h
  have start := Part.KeepsGrants.refl s.part
  have seen (l : LineId) : s.part.KeepsGrants (s.part.frameSeen l) := start.frameSeen l
  cases c
  case transactionStart l => exact s.event_answersKeepingGrants _ (start.startTransaction l)
  case send l => exact s.event_answersKeepingGrants _ (start.sendFrame l)
  case arbitrationLoss l place back => exact s.event_answersKeepingGrants _ (start.loseArbitration l place back)
  case replyTimeout l => exact s.event_answersKeepingGrants _ (start.timeOut l)
  case damagedFrame l heard =>
    exact s.event_answersKeepingGrants _ (start.hearReception l heard (by simpa [lineEvent] using h))
  case status l addr position motion faults =>
    exact s.event_answersKeepingGrants _ ((seen l).hearStatus l addr position motion faults)
  case accept l addr => exact s.event_answersKeepingGrants _ ((seen l).hearAccept l addr)
  case busy l addr => exact s.event_answersKeepingGrants _ ((seen l).hearBusy l addr)
  case refuse l addr reason => exact s.event_answersKeepingGrants _ ((seen l).hearRefuse l addr reason)
  case stationAnswer l => exact s.event_answersKeepingGrants _ (start.sendAnswer l)
  case backoffEnd n => exact s.event_answersKeepingGrants _ (start.endBackoff n)
  case travelSecond n => exact s.event_answersKeepingGrants _ (start.travelSecond n)
  case travelExpiry n => exact s.event_answersKeepingGrants _ (start.travelExpiry n)
  case pollDue n => exact s.event_answersKeepingGrants _ (start.pollFallsDue n)
  case supervisionDue n => exact s.event_answersKeepingGrants _ (start.supervisionFallsDue n)
  case stationWindowDue l => exact s.event_answersKeepingGrants _ (start.windowFallsDue l)
  case stationWindowEnd l => exact s.event_answersKeepingGrants _ (start.endWindow l)
  case lineStuck l since => exact s.event_answersKeepingGrants _ (start.lineStuck l since)
  case lineRecovery l since => exact s.event_answersKeepingGrants _ (start.lineRecovery l since)
  case testFrameStart l => exact s.event_answersKeepingGrants _ (start.startTestFrame l)
  case localEchoCheck l back => exact s.event_answersKeepingGrants _ (start.checkLocalEcho l back)
  case testEcho l addr received good =>
    exact s.event_answersKeepingGrants _ ((seen l).hearEcho l addr received good)
  case missingEcho l => exact s.event_answersKeepingGrants _ (start.missEcho l)
  all_goals exact absurd h Bool.false_ne_true

end Sys2Proof.Machine
end

section
/-! SUPPORT. The state after power-on reset. -/

namespace Sys2Proof.Machine

section
variable (rain : Bool)

@[simp] theorem initialPart_chan (n : ChannelId) : (initialPart rain).chan n = initialChannel n := by
  simp [initialPart, Part.chan]
@[simp] theorem initialPart_line (l : LineId) : (initialPart rain).line l = initialLine := by
  simp [initialPart, Part.line]
@[simp] theorem initialPart_zone (z : ZoneId) : (initialPart rain).zone z = initialZone := by
  simp [initialPart, Part.zone]
@[simp] theorem initialPart_bank (b : BankId) : (initialPart rain).bank b = initialBank := by
  simp [initialPart, Part.bank]

end

/-- The default pending copy encodes the default configuration of every channel (R17, R171). -/
theorem pendingChannel_default : ∀ n : ChannelId, pendingChannel defaultConfigWords n = defaultChannelConfig n := by
  decide +kernel

theorem pendingGlobals_default : pendingGlobals defaultConfigWords = defaultGlobals := by decide +kernel

theorem initialChannel_fits (n : ChannelId) : (initialChannel n).fits where
  unused := by simp [initialChannel, defaultChannelConfig]
  fault := by simp [initialChannel]
  timed h := absurd rfl h
  moving := by simp [initialChannel]
  accepted h := absurd rfl h
  unknown _ := ⟨rfl, rfl⟩

theorem initialPart_lineFits (rain : Bool) (l : LineId) : (initialPart rain).lineFits l where
  single := by simp [initialLine]
  queued := by simp [initialLine]
  inFlight := by simp [initialLine]
  sent := by simp [initialLine]
  query := by simp [initialLine]
  retake := by simp [initialLine]
  idle := by simp [initialLine]
  out := by simp [initialLine]

theorem initialPart_workFits (rain : Bool) (n : ChannelId) : (initialPart rain).workFits n where
  queued := by simp [initialChannel]
  ordering := by simp [initialChannel]
  halting := by simp [initialChannel]

/-- At power-on every channel is OFFLINE and every line empty. -/
theorem initialPart_motionFits (rain : Bool) : (initialPart rain).motionFits where
  channel n := by rw [initialPart_chan]; exact initialChannel_fits n
  line := initialPart_lineFits rain
  work := initialPart_workFits rain

theorem initialPart_inRange (rain : Bool) : (initialPart rain).inRange where
  requested n := by rw [initialPart_chan]; exact Nat.zero_le _
  count := Nat.zero_lt_succ _
  bank b := by rw [initialPart_bank]; exact ⟨Nat.zero_le _, Nat.zero_le _, fun _ => ⟨rfl, rfl⟩⟩
  restless l h := by rw [initialPart_line] at h; exact LineState.noConfusion h

theorem reset_chan (n : ChannelId) : State.reset.part.chan n = initialChannel n := initialPart_chan false n
theorem reset_line (l : LineId) : State.reset.part.line l = initialLine := initialPart_line false l
theorem reset_zone (z : ZoneId) : State.reset.part.zone z = initialZone := initialPart_zone false z
theorem reset_bank (b : BankId) : State.reset.part.bank b = initialBank := initialPart_bank false b
theorem reset_dirtyOf (r : RecordId) : State.reset.part.dirtyOf r = ownedMask r := Part.dirtyOf_allDirty rfl r

/-- Settles O3: the initial records, unit by unit; the pending copy by evaluation. -/
theorem resetHoldsThePowerOnValues : Obligations.ResetHoldsThePowerOnValues := by
  refine ⟨fun n => ?_, fun z => ?_, ?weather, fun l => ?_, rfl, ?cmd, fun n => ?_, pendingGlobals_default, fun b => ?_,
    ⟨rfl, rfl⟩, ⟨rfl, reset_dirtyOf, rfl, rfl, rfl, rfl, rfl⟩, rfl⟩
  case weather => exact ⟨rfl, rfl, rfl, rfl, rfl, rfl, rfl, rfl, rfl, rfl, rfl⟩
  case cmd => exact ⟨rfl, rfl, rfl, rfl, rfl, rfl, rfl, rfl, rfl⟩
  · rw [reset_chan]
    exact ⟨rfl, rfl, rfl, rfl, rfl, rfl, rfl, rfl, rfl, rfl, rfl, rfl, rfl, rfl, rfl, rfl⟩
  · rw [reset_zone]
    exact ⟨rfl, rfl, rfl, rfl, rfl, rfl, rfl, rfl, rfl, rfl⟩
  · rw [reset_line]
    exact ⟨rfl, rfl, rfl, rfl, rfl, rfl, rfl, rfl, rfl, rfl, rfl, rfl, rfl, rfl, rfl, rfl, rfl, rfl, rfl, rfl⟩
  · rw [reset_chan]
    exact pendingChannel_default n
  · rw [reset_bank]
    exact ⟨rfl, rfl, rfl, rfl, rfl, rfl, rfl, rfl, rfl⟩

/-- Settles O7: nothing is in the memory, everything is listed and dirty, every channel is OFFLINE and every line empty. -/
theorem resetSatisfiesTheInvariants : Obligations.ResetSatisfiesTheInvariants := by
  refine ⟨⟨.nil, fun c hc => absurd hc List.not_mem_nil⟩, ?covers, fun r k ho hc => ?_, initialPart_inRange false,
    initialPart_motionFits false⟩
  case covers =>
    exact ⟨nodup_allRecords, fun r _ => mem_allRecords r, by simp [State.reset, initialBus, allRecords]⟩
  · rw [reset_dirtyOf, ho] at hc
    exact Bool.noConfusion hc

end Sys2Proof.Machine
end

section
/-! SUPPORT. What a forwarded host write with its capture does (R155, R163). -/

namespace Sys2Proof.Machine

section
variable (s : State) (addr : Addr) (v : Word) (act : Part → Part)

/-- A host write that is granted the port, forwarded whole and taken by the part. -/
def State.forwarded : State := (s.grant.memoryWrite addr wholeWord v).event act

theorem State.hostWritten_eq_forwarded {s : State} (hr : s.bus.rstn = false) {be : ByteEnables} (hb : be.some = true)
    (off : Nat) (data : Word) (captured : Part → Word) (check : Word → Word) (capture : Word → Part → Part) :
    s.hostWritten off be data captured check capture =
      s.forwarded (s.bus.addressOf off) (check (merge be data (captured s.part))) (capture (merge be data (captured s.part))) := by
  simp [State.hostWritten, State.forwarded, hr, hb]

/-- R151: without a byte enable the access has its grant and nothing else happens. -/
theorem State.forwardWrite_of_no_enable {s : State} (hr : s.bus.rstn = false) (data : Word) :
    s.forwardWrite addr ⟨false, false⟩ data = s.grant := by
  unfold State.forwardWrite
  rw [if_neg (by simp [hr])]
  rfl

theorem State.hostWritten_of_no_enable {s : State} (hr : s.bus.rstn = false) (off : Nat) (data : Word)
    (captured : Part → Word) (check : Word → Word) (capture : Word → Part → Part) :
    s.hostWritten off ⟨false, false⟩ data captured check capture = s.grant := by
  simp [State.hostWritten, hr, ByteEnables.some, State.forwardWrite_of_no_enable]

theorem State.capturedOnly_of_no_enable {s : State} (hr : s.bus.rstn = false) (off : Nat) (data : Word) (r : RecordId)
    (k : Nat) (take : Word → Part → Part) : s.capturedOnly off ⟨false, false⟩ data r k take = s.grant := by
  simp [State.capturedOnly, hr, ByteEnables.some, State.forwardWrite_of_no_enable]

theorem State.droppedWrite_of_no_enable {s : State} (hr : s.bus.rstn = false) (off : Nat) (data : Word) (kind : ErrorKind) :
    s.droppedWrite off ⟨false, false⟩ data kind = s.grant := by
  simp [State.droppedWrite, hr, ByteEnables.some, State.forwardWrite_of_no_enable]

theorem State.forwarded_part : (s.forwarded addr v act).part = (act s.grant.part).completeQuieting :=
  State.event_part _ _

@[simp] theorem State.forwarded_chan (n : ChannelId) : (s.forwarded addr v act).part.chan n = (act s.grant.part).chan n :=
  State.event_chan _ _ n
@[simp] theorem State.forwarded_weather : (s.forwarded addr v act).part.weather = (act s.grant.part).weather :=
  State.event_weather _ _
@[simp] theorem State.forwarded_globals : (s.forwarded addr v act).part.globals = (act s.grant.part).globals :=
  State.event_globals _ _
@[simp] theorem State.forwarded_cmd : (s.forwarded addr v act).part.cmd = (act s.grant.part).cmd := State.event_cmd _ _
@[simp] theorem State.forwarded_bank (b : BankId) : (s.forwarded addr v act).part.bank b = (act s.grant.part).bank b :=
  State.event_bank _ _ b
@[simp] theorem State.forwarded_notices : (s.forwarded addr v act).part.notices = (act s.grant.part).notices :=
  State.event_notices _ _
@[simp] theorem State.forwarded_noticeAcks : (s.forwarded addr v act).part.noticeAcks = (act s.grant.part).noticeAcks :=
  State.event_noticeAcks _ _
@[simp] theorem State.forwarded_zones : (s.forwarded addr v act).part.zones = (act s.grant.part).zones := by
  rw [State.forwarded_part]; exact ((Part.KeepsGrants.refl _).completeQuieting).zones
@[simp] theorem State.forwarded_ga : (s.forwarded addr v act).part.ga = (act s.grant.part).ga := State.event_ga _ _
theorem State.forwarded_line (l : LineId) (h : ((act s.grant.part).line l).state ≠ .quieting) :
    (s.forwarded addr v act).part.line l = (act s.grant.part).line l := State.event_line _ _ l h
theorem State.forwarded_test (l : LineId) : ((s.forwarded addr v act).part.line l).test = ((act s.grant.part).line l).test := by
  obtain ⟨-, -, -, -, -, -, -, -, -, same⟩ := Part.completeQuieting_line_fields (act s.grant.part) l
  rw [State.forwarded_part]; exact same

/-- The whole word stands in the RAM. -/
theorem State.forwarded_wordAt : (s.forwarded addr v act).bus.wordAt addr = v :=
  Bus.wordAt_of_writeWord _ s.grant.bus.mem addr v (State.event_mem _ _)

/-- No other byte of the RAM is written, and the list only grows. -/
theorem State.forwarded_writesOnly : s.WritesOnly (s.forwarded addr v act) addr where
  bus :=
    have grows := State.event_bus (s.grant.memoryWrite addr wholeWord v) act
    { grows with mem := rfl }
  bytes k hu hl := by
    unfold Bus.byteAt State.forwarded
    rw [State.event_mem, State.event_powerOns]
    simp only [State.memoryWrite, Memory.read_writeWord_of_ne _ _ _ _ hu hl]
  queue := by unfold State.forwarded; rw [State.event_pending]; exact s.grant_pending

end

@[simp] theorem State.grant_zones (s : State) : s.grant.part.zones = s.part.zones := s.grant_part.2.1
@[simp] theorem State.grant_ga (s : State) : s.grant.part.ga = s.part.ga := s.grant_part.2.2.1
@[simp] theorem State.grant_weather (s : State) : s.grant.part.weather = s.part.weather := s.grant_part.2.2.2.2.1
@[simp] theorem State.grant_globals (s : State) : s.grant.part.globals = s.part.globals := s.grant_part.2.2.2.2.2.1
@[simp] theorem State.grant_notices (s : State) : s.grant.part.notices = s.part.notices := s.grant_part.2.2.2.2.2.2.2.1
@[simp] theorem State.grant_noticeAcks (s : State) : s.grant.part.noticeAcks = s.part.noticeAcks :=
  s.grant_part.2.2.2.2.2.2.2.2.1

end Sys2Proof.Machine
end

section
/-! SUPPORT. Captured words (R7, R140, R155, R169, R171, R183, R197). -/

namespace Sys2Proof.Machine

section
variable {s : State} {be : ByteEnables} (hr : s.bus.rstn = false) (hb : be.some = true) (data : Word)
include hr hb

theorem exec_notifyWrite (n : ChannelId) :
    exec (.notifyWrite n be data) s = .next
      (s.forwarded (s.bus.addressOf (8 * n.val + 1)) (merge be data (s.part.chan n).notifyWord)
        (fun p => p.modChan n (fun c => { c with notifyWord := merge be data (s.part.chan n).notifyWord }))) := by
  show Host.Outcome.next (s.writeNotify n be data) = _
  rw [State.writeNotify, State.hostWritten_eq_forwarded hr hb]
  rfl

theorem exec_configurationWrite (i : Fin 209) :
    exec (.configurationWrite i be data) s = .next
      (s.forwarded (s.bus.addressOf (0x200 + i.val)) (merge be data s.part.cmd.pending[i.val])
        (fun p => p.setCmd { p.cmd with pending := p.cmd.pending.set i.val (merge be data s.part.cmd.pending[i.val]) })) := by
  show Host.Outcome.next (s.writeConfiguration i be data) = _
  rw [State.writeConfiguration, State.hostWritten_eq_forwarded hr hb]
  rfl

theorem exec_argumentWrite (i : Fin 3) :
    exec (.argumentWrite i be data) s = .next
      (s.forwarded (s.bus.addressOf (0x1D1 + i.val)) (merge be data s.part.cmd.args[i.val])
        (fun p => p.setCmd { p.cmd with args := p.cmd.args.set i.val (merge be data s.part.cmd.args[i.val]) })) := by
  show Host.Outcome.next (s.writeArgument i be data) = _
  rw [State.writeArgument, State.hostWritten_eq_forwarded hr hb]
  rfl

theorem exec_patternWrite (l : LineId) (i : Fin 4) :
    exec (.patternWrite l i be data) s = .next
      (s.forwarded (s.bus.addressOf (0x340 + 8 * l.val + i.val)) (merge be data (s.part.line l).test.pattern[i.val])
        (fun p => p.modTest l (fun t =>
          { t with pattern := t.pattern.set i.val (merge be data (s.part.line l).test.pattern[i.val]) }))) := by
  show Host.Outcome.next (s.writePattern l i be data) = _
  rw [State.writePattern, State.hostWritten_eq_forwarded hr hb]
  rfl

theorem exec_enableWordWrite (b : BankId) :
    exec (.enableWordWrite b be data) s = .next
      (s.forwarded (s.bus.addressOf (0x300 + 8 * bankNumber b + 4)) (merge be data (s.part.bank b).enable)
        (fun p => p.setBank b { p.bank b with enable := merge be data (s.part.bank b).enable })) := by
  show Host.Outcome.next (s.writeEnable b be data) = _
  rw [State.writeEnable, State.hostWritten_eq_forwarded hr hb]
  rfl

end

section
variable (s : State) (addr : Addr) (v : Word) (act : Part → Part)

/-- A forwarded write whose capture changes no line changes at most one in QUIETING. -/
theorem State.forwarded_sameLines (h : (act s.grant.part).lines = s.grant.part.lines) :
    s.part.SameLines (s.forwarded addr v act).part := by
  intro l hl
  have same : (act s.grant.part).line l = s.part.line l := by
    rw [← s.grant_line l]; unfold Part.line; rw [h]
  rw [State.forwarded_line _ _ _ _ _ (by rwa [same]), same]

end

/-- A write of a captured word without a byte enable. -/
theorem State.windowWrite_of_no_enable {s : State} (hr : s.bus.rstn = false) (off : BitVec 10) (data : Word) :
    s.windowWrite off ⟨false, false⟩ data = s.grant := by
  unfold State.windowWrite
  cases windowWord off with
  | requestedTarget n => exact State.hostWritten_of_no_enable hr ..
  | notify n => exact State.hostWritten_of_no_enable hr ..
  | command => exact State.forwardWrite_of_no_enable _ hr _
  | argument i => exact State.hostWritten_of_no_enable hr ..
  | noticeAcknowledge i => exact State.capturedOnly_of_no_enable hr ..
  | configuration i => exact State.hostWritten_of_no_enable hr ..
  | enable b => exact State.hostWritten_of_no_enable hr ..
  | acknowledge b => exact State.capturedOnly_of_no_enable hr ..
  | counterStart b => exact State.capturedOnly_of_no_enable hr ..
  | pattern l i => exact State.hostWritten_of_no_enable hr ..
  | owned r k => exact State.droppedWrite_of_no_enable hr ..
  | free => exact State.forwardWrite_of_no_enable _ hr _

theorem notifyWrite_captures (s : State) (be : ByteEnables) (data : Word) (hr : s.bus.rstn = false) (hb : be.some = true)
    (n : ChannelId) :
    let w := merge be data (s.part.chan n).notifyWord
    let addr := s.bus.addressOf (8 * n.val + 1)
    ∃ t, exec (.notifyWrite n be data) s = .next t ∧
      t.part.chan n = { s.part.chan n with notifyWord := w } ∧ (t.part.chan n).notify = decide (w ≠ 0) ∧
      (∀ m : ChannelId, m ≠ n → t.part.chan m = s.part.chan m) ∧
      t.bus.wordAt addr = w ∧
      s.part.SameLines t.part ∧ s.part.SameZones t.part ∧ t.part.weather = s.part.weather ∧
      t.part.globals = s.part.globals ∧ t.part.cmd = s.part.cmd ∧ s.grant.part.SameBanks t.part ∧
      s.part.SameNotices t.part ∧ s.WritesOnly t addr := by
  refine ⟨_, exec_notifyWrite hr hb data n, ?_, ?_, fun m hm => ?_, State.forwarded_wordAt _ _ _ _,
    State.forwarded_sameLines _ _ _ _ rfl, ⟨?_, ?_⟩, ?_, ?_, ?_, fun b => ?_, ⟨?_, ?_⟩, State.forwarded_writesOnly _ _ _ _⟩
  all_goals simp [Channel.notify]
  rw [Part.chan_modChan, if_neg hm, State.grant_chan]

theorem configurationWrite_captures (s : State) (be : ByteEnables) (data : Word) (hr : s.bus.rstn = false)
    (hb : be.some = true) (i : Fin 209) :
    let w := merge be data s.part.cmd.pending[i.val]
    let addr := s.bus.addressOf (0x200 + i.val)
    ∃ t, exec (.configurationWrite i be data) s = .next t ∧
      t.part.cmd = { s.part.cmd with pending := s.part.cmd.pending.set i.val w } ∧ t.bus.wordAt addr = w ∧
      s.part.SameChans t.part ∧ s.part.SameLines t.part ∧ s.part.SameZones t.part ∧ t.part.weather = s.part.weather ∧
      t.part.globals = s.part.globals ∧ s.grant.part.SameBanks t.part ∧ s.part.SameNotices t.part ∧
      s.WritesOnly t addr := by
  refine ⟨_, exec_configurationWrite hr hb data i, ?_, State.forwarded_wordAt _ _ _ _, fun m => ?_,
    State.forwarded_sameLines _ _ _ _ rfl, ⟨?_, ?_⟩, ?_, ?_, fun b => ?_, ⟨?_, ?_⟩, State.forwarded_writesOnly _ _ _ _⟩
  all_goals simp

theorem argumentWrite_captures (s : State) (be : ByteEnables) (data : Word) (hr : s.bus.rstn = false)
    (hb : be.some = true) (i : Fin 3) :
    let w := merge be data s.part.cmd.args[i.val]
    let addr := s.bus.addressOf (0x1D1 + i.val)
    ∃ t, exec (.argumentWrite i be data) s = .next t ∧
      t.part.cmd = { s.part.cmd with args := s.part.cmd.args.set i.val w } ∧ t.bus.wordAt addr = w ∧
      s.part.SameChans t.part ∧ s.part.SameLines t.part ∧ s.part.SameZones t.part ∧ t.part.weather = s.part.weather ∧
      t.part.globals = s.part.globals ∧ s.grant.part.SameBanks t.part ∧ s.part.SameNotices t.part ∧
      s.WritesOnly t addr := by
  refine ⟨_, exec_argumentWrite hr hb data i, ?_, State.forwarded_wordAt _ _ _ _, fun m => ?_,
    State.forwarded_sameLines _ _ _ _ rfl, ⟨?_, ?_⟩, ?_, ?_, fun b => ?_, ⟨?_, ?_⟩, State.forwarded_writesOnly _ _ _ _⟩
  all_goals simp

theorem patternWrite_captures (s : State) (be : ByteEnables) (data : Word) (hr : s.bus.rstn = false)
    (hb : be.some = true) (l : LineId) (i : Fin 4) :
    let w := merge be data (s.part.line l).test.pattern[i.val]
    let addr := s.bus.addressOf (0x340 + 8 * l.val + i.val)
    ∃ t, exec (.patternWrite l i be data) s = .next t ∧
      (t.part.line l).test = { (s.part.line l).test with pattern := (s.part.line l).test.pattern.set i.val w } ∧
      ((s.part.line l).state ≠ .quieting → t.part.line l = { s.part.line l with test := (t.part.line l).test }) ∧
      (∀ k : LineId, k ≠ l → (s.part.line k).state ≠ .quieting → t.part.line k = s.part.line k) ∧
      t.bus.wordAt addr = w ∧
      s.part.SameChans t.part ∧ s.part.SameZones t.part ∧ t.part.weather = s.part.weather ∧
      t.part.globals = s.part.globals ∧ t.part.cmd = s.part.cmd ∧ s.grant.part.SameBanks t.part ∧
      s.part.SameNotices t.part ∧ s.WritesOnly t addr := by
  refine ⟨_, exec_patternWrite hr hb data l i, ?_, fun hl => ?_, fun k hk hl => ?_,
    State.forwarded_wordAt _ _ _ _, fun m => ?_, ⟨?_, ?_⟩, ?_, ?_, ?_, fun b => ?_, ⟨?_, ?_⟩,
    State.forwarded_writesOnly _ _ _ _⟩
  case refine_2 =>
    rw [State.forwarded_line _ _ _ _ _ (by simpa [Part.line_modTest] using hl)]
    simp [Part.line_modTest]
  case refine_3 =>
    rw [State.forwarded_line _ _ _ _ _ (by simpa [Part.line_modTest, hk] using hl)]
    simp [Part.line_modTest, hk]
  all_goals simp [State.forwarded_test]

theorem enableWordWrite_captures (s : State) (be : ByteEnables) (data : Word) (hr : s.bus.rstn = false)
    (hb : be.some = true) (b : BankId) :
    let w := merge be data (s.part.bank b).enable
    let addr := s.bus.addressOf (0x300 + 8 * bankNumber b + 4)
    ∃ t, exec (.enableWordWrite b be data) s = .next t ∧
      t.part.bank b = { s.grant.part.bank b with enable := w } ∧ (t.part.bank b).counts = w.getLsbD 1 ∧
      (t.part.bank b).reports = w.getLsbD 0 ∧ s.grant.part.SameBanksBut t.part b ∧
      t.bus.wordAt addr = w ∧
      s.part.SameChans t.part ∧ s.part.SameLines t.part ∧ s.part.SameZones t.part ∧ t.part.weather = s.part.weather ∧
      t.part.globals = s.part.globals ∧ t.part.cmd = s.part.cmd ∧ s.part.SameNotices t.part ∧ s.WritesOnly t addr := by
  refine ⟨_, exec_enableWordWrite hr hb data b, ?_, ?_, ?_, fun c hc => ?_, State.forwarded_wordAt _ _ _ _,
    fun m => ?_, State.forwarded_sameLines _ _ _ _ rfl, ⟨?_, ?_⟩, ?_, ?_, ?_, ⟨?_, ?_⟩, State.forwarded_writesOnly _ _ _ _⟩
  case refine_4 => rw [State.forwarded_bank, Part.bank_setBank, if_neg hc]
  all_goals simp [Bank.counts, Bank.reports]

/-- Settles O11: each write is a forwarded one whose capture sets its word, and without a byte enable only the grant. -/
theorem capturedWordWritesTakeTheMerge : Obligations.CapturedWordWritesTakeTheMerge := by
  refine ⟨fun s be data hr hb => ⟨notifyWrite_captures s be data hr hb, configurationWrite_captures s be data hr hb,
    argumentWrite_captures s be data hr hb, patternWrite_captures s be data hr hb,
    enableWordWrite_captures s be data hr hb⟩, fun s data hr => ?_⟩
  have written {c : Part → Word} {check : Word → Word} {capture : Word → Part → Part} (off : Nat) :
      (.next (s.hostWritten off ⟨false, false⟩ data c check capture) : Host.Outcome State Fault Refusal) = .next s.grant :=
    congrArg _ (State.hostWritten_of_no_enable hr ..)
  have only {take : Word → Part → Part} (off : Nat) (r : RecordId) (k : Nat) :
      (.next (s.capturedOnly off ⟨false, false⟩ data r k take) : Host.Outcome State Fault Refusal) = .next s.grant :=
    congrArg _ (State.capturedOnly_of_no_enable hr ..)
  exact ⟨fun n => ⟨written _, written _⟩, fun i => written _, fun i => ⟨written _, only ..⟩, fun l i => written _,
    fun b => ⟨written _, only .., only ..⟩, fun off => congrArg _ (State.windowWrite_of_no_enable hr off data)⟩

end Sys2Proof.Machine
end

section
/-! SUPPORT. The first samples of the loops at power-on (R51, R165). -/

namespace Sys2Proof.Machine

/-! ## A loop's change of state (R47) -/

/-- A loop after a report of a state: no change where it is in that state. -/
def FireLoop.sampled (g : FireLoop) (s : LoopState) (now : Nat) : FireLoop := if g.state = s then g else g.change s now

/-- The bank's record after an error is present. -/
theorem Bank.take_count_isSome (b : Bank) (e : ErrorRecord) : ((b.take e).count).record.isSome = true := by
  have taken : (b.take e).record.isSome = true := by
    unfold Bank.take
    split
    · rfl
    next r h =>
      split
      · rfl
      · split <;> simp [h]
  unfold Bank.count
  split <;> exact taken

section
variable (p : Part) (k : LoopId) (g : FireLoop)

theorem Part.loop_setLoop (j : LoopId) : (p.setLoop k g).loop j = if j = k then g else p.loop j := by
  cases k <;> cases j <;> simp [Part.setLoop, Part.loop, Part.zone_modZone]
  split <;> rfl

/-- Of a zone only its loop changes. -/
theorem Part.zone_setLoop (z : ZoneId) :
    (p.setLoop k g).zone z = { p.zone z with loop := (p.setLoop k g).loop (.zone z) } := by
  cases k <;> simp [Part.setLoop, Part.loop, Part.zone_modZone]
  split
  next h => subst h; rfl
  next => rfl

end

/-- What a loop's change of state leaves as it was. -/
structure Part.SameButLoops (p q : Part) : Prop where
  chans : q.chans = p.chans
  lines : q.lines = p.lines
  weather : q.weather = p.weather
  globals : q.globals = p.globals
  cmd : q.cmd = p.cmd
  notices : q.notices = p.notices
  noticeAcks : q.noticeAcks = p.noticeAcks
  noticesShown : q.noticesShown = p.noticesShown
  now : q.now = p.now
  zone : ∀ z : ZoneId, q.zone z = { p.zone z with loop := q.loop (.zone z) }
  bank : ∀ b : BankId, b ≠ .input → q.bank b = p.bank b

theorem Part.SameButLoops.refl (p : Part) : p.SameButLoops p :=
  ⟨rfl, rfl, rfl, rfl, rfl, rfl, rfl, rfl, rfl, fun _ => rfl, fun _ _ => rfl⟩

theorem Part.SameButLoops.trans {p q r : Part} (h : p.SameButLoops q) (k : q.SameButLoops r) : p.SameButLoops r where
  chans := k.chans.trans h.chans
  lines := k.lines.trans h.lines
  weather := k.weather.trans h.weather
  globals := k.globals.trans h.globals
  cmd := k.cmd.trans h.cmd
  notices := k.notices.trans h.notices
  noticeAcks := k.noticeAcks.trans h.noticeAcks
  noticesShown := k.noticesShown.trans h.noticesShown
  now := k.now.trans h.now
  zone z := by rw [k.zone z, h.zone z]
  bank b hb := (k.bank b hb).trans (h.bank b hb)

theorem Part.SameButLoops.setLoop (p : Part) (k : LoopId) (g : FireLoop) : p.SameButLoops (p.setLoop k g) where
  zone := p.zone_setLoop k g
  chans := by cases k <;> rfl
  lines := by cases k <;> rfl
  weather := by cases k <;> rfl
  globals := by cases k <;> rfl
  cmd := by cases k <;> rfl
  notices := by cases k <;> rfl
  noticeAcks := by cases k <;> rfl
  noticesShown := by cases k <;> rfl
  now := by cases k <;> rfl
  bank b _ := by cases k <;> rfl

theorem Part.SameButLoops.recordInput (p : Part) (e : ErrorRecord) : p.SameButLoops (p.record .input e) :=
  ⟨rfl, rfl, rfl, rfl, rfl, rfl, rfl, rfl, rfl, fun _ => rfl, fun b hb => by rw [Part.bank_record, if_neg hb]⟩

section
variable (p : Part) (k : LoopId) (s : LoopState)

theorem Part.changeLoop_same : p.SameButLoops (p.changeLoop k s) := by
  unfold Part.changeLoop
  split
  · exact .refl p
  · dsimp only
    split
    · exact (Part.SameButLoops.setLoop p k _).trans (.recordInput _ _)
    · exact .setLoop p k _

theorem Part.loop_changeLoop (j : LoopId) :
    (p.changeLoop k s).loop j = if j = k then (p.loop k).sampled s p.now else p.loop j := by
  have recorded (q : Part) (e : ErrorRecord) : (q.record .input e).loop j = q.loop j := by cases j <;> rfl
  unfold Part.changeLoop FireLoop.sampled
  split
  · split
    next h => rw [h]
    next => rfl
  · dsimp only
    split
    · rw [recorded, Part.loop_setLoop]
    · rw [Part.loop_setLoop]

/-- A fault entered is recorded. -/
theorem Part.changeLoop_records :
    ((p.changeLoop k s).bank .input).record.isSome ↔
      (p.bank .input).record.isSome ∨ ((p.loop k).state ≠ s ∧ (loopFaultKind s).isSome) := by
  have same (g : FireLoop) : (p.setLoop k g).bank .input = p.bank .input := by cases k <;> rfl
  unfold Part.changeLoop
  split
  next h => simp [h]
  next h =>
    dsimp only
    split
    next e he => simp [he, h, Bank.take_count_isSome]
    next he => simp [he, same]

end

/-! ## Reports of several loops -/

/-- The loops take the states reported of them, in order. -/
def Part.takeSamples (p : Part) (rs : List (LoopId × LoopState)) : Part := rs.foldl (fun q r => q.changeLoop r.1 r.2) p

theorem Part.takeSamples_same (p : Part) (rs : List (LoopId × LoopState)) : p.SameButLoops (p.takeSamples rs) := by
  induction rs generalizing p with
  | nil => exact .refl p
  | cons r rs ih => exact (p.changeLoop_same r.1 r.2).trans (ih _)

theorem Part.loop_takeSamples_of_not_mem (p : Part) {rs : List (LoopId × LoopState)} {k : LoopId}
    (h : k ∉ rs.map Prod.fst) : (p.takeSamples rs).loop k = p.loop k := by
  induction rs generalizing p with
  | nil => rfl
  | cons r rs ih =>
    obtain ⟨head, tail⟩ := not_or.1 (List.mem_cons.not.1 h)
    exact (ih _ tail).trans (by rw [Part.loop_changeLoop, if_neg head])

theorem Part.loop_takeSamples_of_mem (p : Part) {rs : List (LoopId × LoopState)} (nd : (rs.map Prod.fst).Nodup)
    {k : LoopId} {s : LoopState} (h : (k, s) ∈ rs) : (p.takeSamples rs).loop k = (p.loop k).sampled s p.now := by
  induction rs generalizing p with
  | nil => exact absurd h List.not_mem_nil
  | cons r rs ih =>
    obtain ⟨fresh, nd⟩ := List.nodup_cons.1 nd
    rcases List.mem_cons.1 h with rfl | h
    · exact (Part.loop_takeSamples_of_not_mem _ fresh).trans (by rw [Part.loop_changeLoop, if_pos rfl])
    · have other : k ≠ r.1 := fun e => fresh (e ▸ List.mem_map_of_mem h)
      refine (ih _ nd h).trans ?_
      rw [Part.loop_changeLoop, if_neg other, (p.changeLoop_same r.1 r.2).now]

theorem Part.takeSamples_records (p : Part) {rs : List (LoopId × LoopState)} (nd : (rs.map Prod.fst).Nodup) :
    ((p.takeSamples rs).bank .input).record.isSome ↔
      (p.bank .input).record.isSome ∨ ∃ r ∈ rs, (p.loop r.1).state ≠ r.2 ∧ (loopFaultKind r.2).isSome := by
  induction rs generalizing p with
  | nil => simp [Part.takeSamples]
  | cons r rs ih =>
    obtain ⟨fresh, nd⟩ := List.nodup_cons.1 nd
    have other (q : LoopId × LoopState) (hq : q ∈ rs) : (p.changeLoop r.1 r.2).loop q.1 = p.loop q.1 := by
      rw [Part.loop_changeLoop, if_neg fun e : q.1 = r.1 => fresh (e ▸ List.mem_map_of_mem hq)]
    show (((p.changeLoop r.1 r.2).takeSamples rs).bank .input).record.isSome ↔ _
    rw [ih _ nd, Part.changeLoop_records, List.exists_mem_cons_iff, or_assoc]
    refine or_congr_right (or_congr_right ?_)
    constructor
    · rintro ⟨q, hq, h⟩; exact ⟨q, hq, other q hq ▸ h⟩
    · rintro ⟨q, hq, h⟩; exact ⟨q, hq, (other q hq).symm ▸ h⟩

/-! ## The marks of a pass stand (R165) -/

/-- Every word the part writes is dirty, and no other is marked. -/
def Part.AllMarked (p : Part) : Prop := ∀ r : RecordId, p.dirtyOf r = ownedMask r

theorem zoneChanges_owned (a b : Zone) (z : ZoneId) : ownedMask (.zone z) ||| zoneChanges a b = ownedMask (.zone z) := by
  have bits : ∀ a b c d e f : Bool, 0x3F#8 ||| (wordBit a 0 ||| wordBit b 1 ||| wordBit c 2 ||| wordBit d 3 |||
    wordBit e 4 ||| wordBit f 5) = 0x3F#8 := by decide +kernel
  exact bits ..

theorem bankChanges_owned (a b : Bank) (c : BankId) : ownedMask (.bank c) ||| bankChanges a b = ownedMask (.bank c) := by
  have bits : ∀ a b c d e f g : Bool, 0xEF#8 ||| (wordBit a 0 ||| wordBit b 1 ||| wordBit c 2 ||| wordBit d 3 |||
    wordBit e 5 ||| wordBit f 6 ||| wordBit g 7) = 0xEF#8 := by decide +kernel
  exact bits ..

theorem wordBit_owned_global (b : Bool) : ownedMask .global ||| wordBit b 0 = ownedMask .global := by
  revert b; decide

section
variable {p : Part}

/-- A mark of words the part writes adds nothing. -/
theorem Part.AllMarked.mark (h : p.AllMarked) (r : RecordId) {w : BitVec 8} (hw : ownedMask r ||| w = ownedMask r) :
    (p.mark r w).AllMarked := by
  intro q
  rw [Part.dirtyOf_mark]
  split
  next e => rw [e, h r, hw]
  next => exact h q

theorem Part.AllMarked.setLoop (h : p.AllMarked) (k : LoopId) (g : FireLoop) : (p.setLoop k g).AllMarked := by
  cases k with
  | zone z => exact Part.AllMarked.mark (p := { p with zones := _ }) h _ (zoneChanges_owned ..)
  | ga => exact Part.AllMarked.mark (p := { p with ga := g }) h _ (wordBit_owned_global _)

theorem Part.AllMarked.record (h : p.AllMarked) (b : BankId) (e : ErrorRecord) : (p.record b e).AllMarked :=
  Part.AllMarked.mark (p := { p with banks := _ }) h _ (bankChanges_owned ..)

theorem Part.AllMarked.changeLoop (h : p.AllMarked) (k : LoopId) (s : LoopState) : (p.changeLoop k s).AllMarked := by
  unfold Part.changeLoop
  split
  · exact h
  · dsimp only
    split
    · exact (h.setLoop k _).record _ _
    · exact h.setLoop k _

theorem Part.AllMarked.takeSamples (h : p.AllMarked) (rs : List (LoopId × LoopState)) : (p.takeSamples rs).AllMarked := by
  induction rs generalizing p with
  | nil => exact h
  | cons r rs ih => exact ih (h.changeLoop r.1 r.2)

end

/-! ## The first samples (R51) -/

/-- The reports of power-on: the zones' loops in ascending order, then the general alarm. -/
def firstReports (zoneLoops : Vector LoopState 6) (gaLoop : LoopState) : List (LoopId × LoopState) :=
  allZones.map (fun z => (LoopId.zone z, zoneLoops[z.val])) ++ [(.ga, gaLoop)]

section
variable (zoneLoops : Vector LoopState 6) (gaLoop : LoopState)

theorem Part.firstSamples_eq (p : Part) : p.firstSamples zoneLoops gaLoop = p.takeSamples (firstReports zoneLoops gaLoop) := by
  simp [Part.firstSamples, Part.takeSamples, firstReports, List.foldl_append, List.foldl_map]

theorem firstReports_nodup : ((firstReports zoneLoops gaLoop).map Prod.fst).Nodup := by
  have loops : (firstReports zoneLoops gaLoop).map Prod.fst = allZones.map LoopId.zone ++ [.ga] := by
    simp [firstReports, Function.comp_def]
  rw [loops]
  decide

theorem mem_firstReports_zone (z : ZoneId) : (LoopId.zone z, zoneLoops[z.val]) ∈ firstReports zoneLoops gaLoop := by
  simp [firstReports, allZones]

theorem mem_firstReports_ga : (LoopId.ga, gaLoop) ∈ firstReports zoneLoops gaLoop := by simp [firstReports]

/-- R51: a loop's first sample, whose mode is LEVEL and whose timer starts with the part's clock. -/
theorem initialLoop_sampled (s : LoopState) :
    initialLoop.sampled s 0 = ⟨⟨.level, false⟩, s, if s = .alarm then some (.level, 0) else none⟩ := by
  cases s <;> rfl

theorem loopFaultKind_isSome (s : LoopState) : (loopFaultKind s).isSome = true ↔ s = .openCircuit ∨ s = .shortCircuit := by
  cases s <;> simp [loopFaultKind]

theorem initialPart_loop (rain : Bool) (k : LoopId) : (initialPart rain).loop k = initialLoop := by
  cases k with
  | zone z => exact congrArg Zone.loop (initialPart_zone rain z)
  | ga => rfl

/-- A first sample that is a fault is a change into it. -/
theorem firstSample_faults (rain : Bool) (k : LoopId) (s : LoopState) :
    ((initialPart rain).loop k).state ≠ s ∧ (loopFaultKind s).isSome = true ↔ s = .openCircuit ∨ s = .shortCircuit := by
  rw [initialPart_loop, loopFaultKind_isSome, and_iff_right_iff_imp]
  rintro (rfl | rfl) <;> exact LoopState.noConfusion

theorem initialPart_allMarked (rain : Bool) : (initialPart rain).AllMarked := Part.dirtyOf_allDirty rfl

/-- The INPUT bank holds a record after the first samples exactly where one of them is a fault. -/
theorem firstSamples_records (rain : Bool) :
    ((((initialPart rain).firstSamples zoneLoops gaLoop).bank .input).record.isSome) ↔
      (∃ z : ZoneId, zoneLoops[z.val] = .openCircuit ∨ zoneLoops[z.val] = .shortCircuit) ∨
        gaLoop = .openCircuit ∨ gaLoop = .shortCircuit := by
  rw [Part.firstSamples_eq, Part.takeSamples_records _ (firstReports_nodup ..), initialPart_bank]
  simp only [firstSample_faults, firstReports, List.mem_append, List.mem_map, List.mem_singleton, or_and_right,
    exists_or (α := LoopId × LoopState)]
  simp [initialBank, allZones]

end

section
variable (s : State) (straps : BitVec 3) (zoneLoops : Vector LoopState 6) (gaLoop : LoopState) (rain : Bool)

/-- Every channel is OFFLINE after power-on, so FAULT is on (R195). -/
theorem faultOutput_of_offline {p : Part} (n : ChannelId) (h : (p.chan n).motion = .offline) : p.faultOutput = true := by
  simp only [Part.faultOutput, Bool.or_eq_true, List.any_eq_true]
  exact .inl ⟨n, List.mem_finRange n, by simp [h]⟩

theorem firstSamples_chan (n : ChannelId) :
    ((initialPart rain).firstSamples zoneLoops gaLoop).chan n = initialChannel n := by
  rw [Part.firstSamples_eq, Part.chan, (Part.takeSamples_same _ _).chans]
  exact initialPart_chan rain n

theorem firstSamples_line (l : LineId) : ((initialPart rain).firstSamples zoneLoops gaLoop).line l = initialLine := by
  rw [Part.firstSamples_eq, Part.line, (Part.takeSamples_same _ _).lines]
  exact initialPart_line rain l

theorem firstSamples_loop {k : LoopId} {st : LoopState} (h : (k, st) ∈ firstReports zoneLoops gaLoop) :
    ((initialPart rain).firstSamples zoneLoops gaLoop).loop k =
      ⟨⟨.level, false⟩, st, if st = .alarm then some (.level, 0) else none⟩ := by
  rw [Part.firstSamples_eq, Part.loop_takeSamples_of_mem _ (firstReports_nodup ..) h, initialPart_loop]
  exact initialLoop_sampled st

theorem firstSamples_zone_loop (z : ZoneId) :
    (((initialPart rain).firstSamples zoneLoops gaLoop).loop (.zone z)) =
      ⟨⟨.level, false⟩, zoneLoops[z.val], if zoneLoops[z.val] = .alarm then some (.level, 0) else none⟩ :=
  firstSamples_loop _ _ _ (mem_firstReports_zone zoneLoops gaLoop z)

theorem firstSamples_ga : ((initialPart rain).firstSamples zoneLoops gaLoop).ga =
    ⟨⟨.level, false⟩, gaLoop, if gaLoop = .alarm then some (.level, 0) else none⟩ := by
  rw [← firstSamples_loop zoneLoops gaLoop rain (mem_firstReports_ga zoneLoops gaLoop), Part.loop]

/-- An event after which no line is in QUIETING leaves the part as its act did. -/
theorem Part.completeQuieting_of_none {p : Part} (h : ∀ l : LineId, (p.line l).state ≠ .quieting) :
    p.completeQuieting = p := by
  have step (ls : List LineId) : ls.foldl (fun q l =>
      if (q.line l).state = .quieting ∧ q.atRest l then q.enterLine l .quiet else q) p = p := by
    induction ls with
    | nil => rfl
    | cons l ls ih => rw [List.foldl_cons, if_neg fun k => h l k.1]; exact ih
  exact step _

/-- The part as it wakes, before the first samples (R17, R165). -/
def State.woken : State := { s with part := initialPart rain, bus := initialBus straps (s.bus.powerOns + 1) }

theorem State.powerOn_eq : s.powerOn straps zoneLoops gaLoop rain =
    (s.woken straps rain).event (fun p => p.firstSamples zoneLoops gaLoop) := rfl

theorem State.powerOn_part :
    (s.powerOn straps zoneLoops gaLoop rain).part = (initialPart rain).firstSamples zoneLoops gaLoop :=
  (State.event_part _ _).trans
    (Part.completeQuieting_of_none fun l => by
      show (((initialPart rain).firstSamples zoneLoops gaLoop).line l).state ≠ _
      rw [firstSamples_line]
      exact LineState.noConfusion)

theorem State.powerOn_list : (s.powerOn straps zoneLoops gaLoop rain).bus.list = allRecords := by
  have covered (p : Part) : newEntries p allRecords = [] :=
    List.filter_eq_nil_iff.2 fun r _ => by simp [mem_allRecords r]
  show allRecords ++ newEntries _ allRecords = allRecords
  rw [covered, List.append_nil]

theorem State.powerOn_straps : (s.powerOn straps zoneLoops gaLoop rain).bus.straps = straps := by
  rw [State.powerOn_eq, State.event_straps]; rfl
theorem State.powerOn_pass : (s.powerOn straps zoneLoops gaLoop rain).bus.pass = some allRecords := by
  rw [State.powerOn_eq, State.event_pass]; rfl
theorem State.powerOn_snapshot : (s.powerOn straps zoneLoops gaLoop rain).bus.snapshot = some (ownedMask (.channel 0)) := by
  rw [State.powerOn_eq, State.event_snapshot]; rfl
theorem State.powerOn_lastCycle : (s.powerOn straps zoneLoops gaLoop rain).bus.lastCycle = .host := by
  rw [State.powerOn_eq, State.event_lastCycle]; rfl
theorem State.powerOn_cells : (s.powerOn straps zoneLoops gaLoop rain).bus.mem.cells = [] := by
  rw [State.powerOn_eq, State.event_mem]; rfl
theorem State.powerOn_pending : (s.powerOn straps zoneLoops gaLoop rain).pending = s.pending := by
  rw [State.powerOn_eq, State.event_pending]; rfl

/-- Settles O21: the initial records stand through the first samples, which change loops and the INPUT bank only, and every
word the part writes is still dirty. -/
theorem powerOnResetRestoresTheDefaults : Obligations.PowerOnResetRestoresTheDefaults := by
  intro s straps zoneLoops gaLoop rain
  have part := s.powerOn_part straps zoneLoops gaLoop rain
  have chan := firstSamples_chan zoneLoops gaLoop rain
  have same : (initialPart rain).SameButLoops ((initialPart rain).firstSamples zoneLoops gaLoop) := by
    rw [Part.firstSamples_eq]; exact Part.takeSamples_same _ _
  have dirty : ((initialPart rain).firstSamples zoneLoops gaLoop).AllMarked := by
    rw [Part.firstSamples_eq]; exact (initialPart_allMarked rain).takeSamples _
  refine ⟨s.powerOn straps zoneLoops gaLoop rain, rfl, ?_⟩
  rw [part, State.powerOn_straps, State.powerOn_list, State.powerOn_pass, State.powerOn_snapshot, State.powerOn_lastCycle,
    State.powerOn_cells, State.powerOn_pending]
  refine ⟨fun n => ?chan, fun l => ?line, fun z => ?zone,
    firstSamples_ga zoneLoops gaLoop rain, same.weather, same.cmd, same.globals, same.notices,
    same.noticeAcks, same.noticesShown, same.now, fun b hb => ?bank, firstSamples_records zoneLoops gaLoop rain, rfl, rfl,
    rfl, dirty, rfl, rfl, rfl, ?attn, faultOutput_of_offline 0 (by rw [chan]; rfl), rfl⟩
  case chan => rw [chan, reset_chan]
  case line => rw [firstSamples_line, reset_line]
  case zone => rw [same.zone, firstSamples_zone_loop, initialPart_zone, reset_zone]
  case bank => rw [same.bank b hb, initialPart_bank, reset_bank]
  case attn => rw [State.attn, State.powerOn_pass]; rfl

end

end Sys2Proof.Machine
end

section
/-! SUPPORT. A line as one channel sees it: its orders on the queue, its exchange in flight and its retake, and what each operation
of the line does to them (R95 to R101, R121 to R127). -/

namespace Sys2Proof.Machine

/-- The orders of a channel on a line's queue. -/
def Line.ordersOf (x : Line) (n : ChannelId) : List Order := (x.urgent ++ x.routine).filter (fun o => decide (o.channel = n))

/-- The exchange in flight for a channel. -/
def Line.flightOf (x : Line) (n : ChannelId) : Option Exchange := x.exchange.filter (fun e => decide (e.kind.channel = some n))

/-- The retake is for the channel. -/
def Line.retakes (x : Line) (n : ChannelId) : Prop := ∃ r, x.retake = some r ∧ r.channel = n

theorem Line.queued_eq (x : Line) (n : ChannelId) : x.queued n = (x.ordersOf n).head? := by
  rw [Line.queued, Line.ordersOf, List.head?_filter]

theorem Line.mem_ordersOf {x : Line} {n : ChannelId} {o : Order} :
    o ∈ x.ordersOf n ↔ o ∈ x.urgent ++ x.routine ∧ o.channel = n := by
  unfold Line.ordersOf; rw [List.mem_filter, decide_eq_true_iff]

theorem Line.flightOf_eq_some {x : Line} {n : ChannelId} {e : Exchange} :
    x.flightOf n = some e ↔ x.exchange = some e ∧ e.kind.channel = some n := by
  simp [Line.flightOf, Option.filter_eq_some_iff]

theorem Line.flightOf_eq_none {x : Line} {n : ChannelId} :
    x.flightOf n = none ↔ ∀ e, x.exchange = some e → e.kind.channel ≠ some n := by
  simp [Line.flightOf, Option.filter_eq_none_iff]

/-- The order in flight for a channel is its exchange's. -/
theorem Line.inFlight_eq_some {x : Line} {n : ChannelId} {o : Order} :
    x.inFlight n = some o ↔ ∃ e, x.flightOf n = some e ∧ e.kind = .order o := by
  simp only [Line.flightOf_eq_some, Line.inFlight]
  rcases x.exchange with _ | ⟨k, node, sentAt⟩
  · simp
  · cases k <;> simp [ExchangeKind.channel]

/-! ## The queue operations (R97, R98) -/

section
variable (x : Line) (n m : ChannelId)

theorem without_filter (os : List Order) :
    (without n os).filter (fun o => decide (o.channel = m)) = if m = n then [] else os.filter (fun o => decide (o.channel = m)) := by
  unfold without
  rw [List.filter_filter]
  split
  · rename_i h; subst h; simp
  · rename_i h
    refine List.filter_congr fun o _ => ?_
    by_cases e : o.channel = m
    · simp [e, h]
    · simp [e]

theorem Line.ordersOf_take : (x.take n).ordersOf m = if m = n then [] else x.ordersOf m := by
  simp only [Line.ordersOf, Line.take, List.filter_append, without_filter]
  split <;> rfl

@[simp] theorem Line.forget_ordersOf : (x.forget n).ordersOf m = x.ordersOf m := rfl
@[simp] theorem Line.forget_flightOf : (x.forget n).flightOf m = x.flightOf m := rfl
@[simp] theorem Line.take_flightOf : (x.take n).flightOf m = x.flightOf m := rfl
@[simp] theorem Line.remove_flightOf : (x.remove n).flightOf m = x.flightOf m := rfl

theorem Line.ordersOf_remove : (x.remove n).ordersOf m = if m = n then [] else x.ordersOf m := x.ordersOf_take n m

theorem Line.retake_forget {r : Retake} (h : (x.forget n).retake = some r) : x.retake = some r := by
  revert h
  unfold Line.forget
  dsimp only
  split
  · rename_i k hk; split <;> simp [hk]
  · rename_i k hk; split <;> simp [hk]
  · exact id

variable (o : Order)

/-- A joined order stands behind the others of its channel within its group. -/
theorem Line.ordersOf_join_of_ne (h : m ≠ o.channel) : (x.join o).ordersOf m = x.ordersOf m := by
  unfold Line.join Line.ordersOf
  split <;> simp [Ne.symm h]

theorem Line.ordersOf_join_self (h : x.ordersOf o.channel = []) : (x.join o).ordersOf o.channel = [o] := by
  unfold Line.ordersOf at *
  rw [List.filter_append, List.append_eq_nil_iff] at h
  unfold Line.join
  split <;> simp [List.filter_append, h.1, h.2]

theorem Line.ordersOf_reenter_of_ne (h : m ≠ o.channel) : (x.reenter o).ordersOf m = x.ordersOf m := by
  unfold Line.reenter Line.ordersOf
  split <;> simp [Ne.symm h]

theorem Line.ordersOf_reenter_self (h : x.ordersOf o.channel = []) : (x.reenter o).ordersOf o.channel = [o] := by
  unfold Line.ordersOf at *
  rw [List.filter_append, List.append_eq_nil_iff] at h
  unfold Line.reenter
  split <;> simp [List.filter_append, h.1, h.2]

@[simp] theorem Line.join_flightOf : (x.join o).flightOf m = x.flightOf m := by unfold Line.join; split <;> rfl
@[simp] theorem Line.join_exchange : (x.join o).exchange = x.exchange := by unfold Line.join; split <;> rfl
@[simp] theorem Line.join_retake : (x.join o).retake = x.retake := by unfold Line.join; split <;> rfl
@[simp] theorem Line.join_state : (x.join o).state = x.state := by unfold Line.join; split <;> rfl
@[simp] theorem Line.reenter_flightOf : (x.reenter o).flightOf m = x.flightOf m := by unfold Line.reenter; split <;> rfl
@[simp] theorem Line.reenter_exchange : (x.reenter o).exchange = x.exchange := by unfold Line.reenter; split <;> rfl
@[simp] theorem Line.reenter_retake : (x.reenter o).retake = x.retake := by unfold Line.reenter; split <;> rfl
@[simp] theorem Line.reenter_state : (x.reenter o).state = x.state := by unfold Line.reenter; split <;> rfl

/-- A change in place that keeps the order's channel. -/
theorem Line.ordersOf_change (f : Order → Order) (hf : ∀ o, (f o).channel = o.channel) :
    (x.change n f).ordersOf m = if m = n then (x.ordersOf m).map f else x.ordersOf m := by
  have group (os : List Order) : (os.map (fun o => if o.channel = n then f o else o)).filter (fun o => decide (o.channel = m)) =
      if m = n then (os.filter (fun o => decide (o.channel = m))).map f else os.filter (fun o => decide (o.channel = m)) := by
    induction os with
    | nil => simp
    | cons o os ih =>
      by_cases e : o.channel = n
      · by_cases hm : m = n
        · subst hm; simp_all
        · have : n ≠ m := fun h => hm h.symm
          simp_all
      · by_cases hm : m = n
        · subst hm; simp_all
        · by_cases he : o.channel = m <;> simp_all
  simp only [Line.ordersOf, Line.change, List.filter_append, group]
  split <;> simp

variable (t : Nat) (cls : OrderClass)

/-- The one order of a channel keeps its place in the view when it is retargeted; a HALT stands. -/
theorem Line.ordersOf_retarget_self {x : Line} {o : Order} (h : x.ordersOf n = [o]) :
    (x.retarget n t cls).ordersOf n = [if o.isHalt then o else { o with work := .move t, cls := cls }] := by
  have hc : o.channel = n := (Line.mem_ordersOf.mp (h ▸ List.mem_singleton_self o)).2
  unfold Line.retarget
  rw [Line.queued_eq, h]
  dsimp only [List.head?_cons]
  split
  · rename_i hh; rw [h]
  · split
    · rename_i hcls
      rw [Line.ordersOf_change x n n (fun o => { o with work := .move t }) (fun _ => rfl), if_pos rfl, h, ← hcls]
      rfl
    · subst hc
      exact Line.ordersOf_join_self _ { o with work := .move t, cls := cls } (by simp [Line.ordersOf_take])

theorem Line.ordersOf_retarget_nil {x : Line} (h : x.ordersOf n = []) : x.retarget n t cls = x := by
  unfold Line.retarget
  rw [Line.queued_eq, h]
  rfl

theorem Line.ordersOf_retarget_of_ne (h : m ≠ n) : (x.retarget n t cls).ordersOf m = x.ordersOf m := by
  unfold Line.retarget
  split
  · rfl
  · rename_i o ho
    have hc : o.channel = n := by simpa using List.find?_some ho
    split
    · rfl
    · split
      · rw [Line.ordersOf_change x n m (fun o => { o with work := .move t }) (fun _ => rfl), if_neg h]
      · rw [Line.ordersOf_join_of_ne _ _ _ (by rw [hc]; exact h), Line.ordersOf_take, if_neg h]

@[simp] theorem Line.retarget_exchange : (x.retarget n t cls).exchange = x.exchange := by
  unfold Line.retarget; split <;> (try split) <;> (try split) <;> simp [Line.change, Line.take]
@[simp] theorem Line.retarget_retake : (x.retarget n t cls).retake = x.retake := by
  unfold Line.retarget; split <;> (try split) <;> (try split) <;> simp [Line.change, Line.take]
@[simp] theorem Line.retarget_state : (x.retarget n t cls).state = x.state := by
  unfold Line.retarget; split <;> (try split) <;> (try split) <;> simp [Line.change, Line.take]
@[simp] theorem Line.retarget_flightOf : (x.retarget n t cls).flightOf m = x.flightOf m := by simp [Line.flightOf]

/-- A class change in flight touches the class alone. -/
theorem Line.reclassInFlight_cases : x.reclassInFlight n cls = x ∨ ∃ e o, x.exchange = some e ∧ e.kind = .order o ∧ o.channel = n ∧
    o.isHalt = false ∧ x.reclassInFlight n cls = { x with exchange := some { e with kind := .order { o with cls := cls } } } := by
  unfold Line.reclassInFlight
  split
  · rename_i e he
    split
    · rename_i o hk
      split
      · rename_i h; exact .inr ⟨e, o, he, hk, h.1, h.2, rfl⟩
      · exact .inl rfl
    all_goals exact .inl rfl
  · exact .inl rfl

end
end Sys2Proof.Machine
end

section
/-! SUPPORT. The agreement of channels, queues and exchanges (R14, R15, R97, R122), told channel by channel: what a channel in each
motion state has on its line. -/

namespace Sys2Proof.Machine

/-- No order is in flight. -/
def noOrder (f : Option Exchange) : Prop := ∀ e o, f = some e → e.kind ≠ .order o

/-- At most an ORDER that waits to supersede another: not sent before (R101). -/
def superseding (os : List Order) : Prop := os = [] ∨ ∃ o, os = [o] ∧ o.isHalt = false ∧ o.sent = false

theorem noOrder_none : noOrder none := fun _ _ h => nomatch h

/-- What a channel with record `c` has queued and in flight on its line, by its motion state. -/
inductive Channel.HasWork (c : Channel) (os : List Order) (f : Option Exchange) : Prop where
  | atRest (hm : c.motion = .unused ∨ c.motion = .offline ∨ c.motion = .idle ∨ c.motion = .faulted) (hq : os = [])
      (hf : noOrder f)
  | queued (o : Order) (hm : c.motion = .queued) (hq : os = [o]) (hh : o.isHalt = false)
      (hs : o.sent = true ↔ c.travel ≠ none) (hf : noOrder f)
  | ordering (e : Exchange) (o : Order) (hm : c.motion = .ordering) (hq : superseding os) (hf : f = some e)
      (hk : e.kind = .order o) (hh : o.isHalt = false) (hs : o.sent = true → c.travel ≠ none ∧ c.accepted = none)
      (ht : c.travel ≠ none → o.sent = true ∨ c.accepted ≠ none) (hsent : e.sentAt ≠ none → o.sent = true)
  | moving (hm : c.motion = .moving) (hq : superseding os) (hf : noOrder f)
  | haltQueued (o : Order) (hm : c.motion = .halting) (hq : os = [o]) (hh : o.isHalt = true) (hf : noOrder f)
  | haltInFlight (e : Exchange) (o : Order) (hm : c.motion = .halting) (hq : os = []) (hf : f = some e)
      (hk : e.kind = .order o) (hh : o.isHalt = true) (hsent : e.sentAt ≠ none → o.sent = true)

/-- A line has nothing of a channel. -/
structure Line.FreeOf (x : Line) (n : ChannelId) : Prop where
  orders : x.ordersOf n = []
  flight : x.flightOf n = none
  retake : ¬ x.retakes n

/-- A channel and its line agree, and the lines it is not bound to have nothing of it. -/
structure Part.ChanFits (p : Part) (n : ChannelId) : Prop where
  record : (p.chan n).fits
  work : (p.chan n).HasWork ((p.line (p.lineOf n)).ordersOf n) ((p.line (p.lineOf n)).flightOf n)
  elsewhere : ∀ l, (p.chan n).boundTo l = false → (p.line l).FreeOf n
  quiet : (p.line (p.lineOf n)).state = .quiet ∨ (p.line (p.lineOf n)).state = .test → (p.line (p.lineOf n)).flightOf n = none
  out : (p.line (p.lineOf n)).state = .disabled ∨ (p.line (p.lineOf n)).state = .failed →
    (p.chan n).motion = .unused ∨ (p.chan n).motion = .offline ∨ (p.chan n).motion = .faulted

/-- A line out of service has nothing in flight (R135, R136). -/
def Line.OutIsStill (x : Line) : Prop := x.state = .disabled ∨ x.state = .failed → x.exchange = none

theorem Channel.boundTo_iff {c : Channel} {l : LineId} : c.boundTo l = true ↔ c.cfg.cls ≠ .unused ∧ c.cfg.line = l := by
  simp [Channel.boundTo]

theorem Part.boundTo_lineOf {p : Part} {n : ChannelId} {l : LineId} (h : (p.chan n).boundTo l = true) : p.lineOf n = l :=
  (Channel.boundTo_iff.mp h).2

/-! ## The two forms of the agreement -/

theorem filter_length_le_one {os : List Order} (h : os.Pairwise (fun a b => a.channel ≠ b.channel)) (n : ChannelId) :
    (os.filter (fun o => decide (o.channel = n))).length ≤ 1 := by
  induction os with
  | nil => simp
  | cons a os ih =>
    obtain ⟨ha, hos⟩ := List.pairwise_cons.mp h
    by_cases e : a.channel = n
    · have : os.filter (fun o => decide (o.channel = n)) = [] := by
        rw [List.filter_eq_nil_iff]
        intro o ho
        simpa [← e] using (ha o ho).symm
      simp [e, this]
    · simpa [e] using ih hos

theorem pairwise_of_filter_length {os : List Order}
    (h : ∀ n : ChannelId, (os.filter (fun o => decide (o.channel = n))).length ≤ 1) :
    os.Pairwise (fun a b => a.channel ≠ b.channel) := by
  induction os with
  | nil => exact .nil
  | cons a os ih =>
    refine List.pairwise_cons.mpr ⟨fun o ho e => ?_, ih fun n => ?_⟩
    · have := h a.channel
      have hm : o ∈ os.filter (fun q => decide (q.channel = a.channel)) := List.mem_filter.mpr ⟨ho, by simp [e]⟩
      have pos := List.length_pos_of_mem hm
      rw [List.filter_cons_of_pos (by simp), List.length_cons] at this
      omega
    · have := h n
      rw [List.filter_cons] at this
      split at this
      · rw [List.length_cons] at this; omega
      · exact this

theorem list_eq_of_head? {os : List Order} {o : Order} (h : os.head? = some o) (hl : os.length ≤ 1) : os = [o] := by
  cases os with
  | nil => exact nomatch h
  | cons a os =>
    obtain rfl : a = o := Option.some.inj h
    rw [List.length_cons] at hl
    rw [List.length_eq_zero_iff.mp (by omega : os.length = 0)]

theorem superseding_of {os : List Order} (hl : os.length ≤ 1) (h : ∀ o ∈ os, o.isHalt = false ∧ o.sent = false) :
    superseding os := by
  cases os with
  | nil => exact .inl rfl
  | cons a os =>
    rw [List.length_cons] at hl
    have hos : os = [] := List.length_eq_zero_iff.mp (by omega)
    subst hos
    exact .inr ⟨a, rfl, h a List.mem_cons_self⟩

section
variable {p : Part} {n : ChannelId}

/-- A channel with something on a line is bound to it. -/
theorem Part.motionFits.bound_of_order (h : p.motionFits) {l : LineId} {o : Order} (ho : o ∈ (p.line l).ordersOf n) :
    (p.chan n).boundTo l = true := by
  obtain ⟨hm, rfl⟩ := Line.mem_ordersOf.mp ho
  exact ((h.line l).queued o hm).bound

theorem Part.motionFits.bound_of_flight (h : p.motionFits) {l : LineId} {e : Exchange} (he : (p.line l).flightOf n = some e) :
    (p.chan n).boundTo l = true := by
  obtain ⟨hx, hc⟩ := Line.flightOf_eq_some.mp he
  cases hk : e.kind with
  | order o =>
    rw [hk] at hc
    obtain rfl : o.channel = n := Option.some.inj hc
    exact ((h.line l).inFlight e o hx hk).bound
  | query m poll =>
    rw [hk] at hc
    obtain rfl : m = n := Option.some.inj hc
    exact (h.line l).query e m poll hx hk
  | test _ _ => rw [hk] at hc; exact nomatch hc

theorem Part.motionFits.fitsQueue (h : p.motionFits) {l : LineId} {o : Order} (ho : o ∈ (p.line l).ordersOf n) :
    o.fitsQueue (p.chan n) l := by
  obtain ⟨hm, rfl⟩ := Line.mem_ordersOf.mp ho
  exact (h.line l).queued o hm

theorem Part.motionFits.fitsFlight (h : p.motionFits) {l : LineId} {e : Exchange} {o : Order}
    (he : (p.line l).flightOf n = some e) (hk : e.kind = .order o) : o.channel = n ∧ o.fitsFlight (p.chan n) l (p.line l) := by
  obtain ⟨hx, hc⟩ := Line.flightOf_eq_some.mp he
  rw [hk] at hc
  obtain rfl : o.channel = n := Option.some.inj hc
  exact ⟨rfl, (h.line l).inFlight e o hx hk⟩

theorem Part.motionFits.hasWork (h : p.motionFits) (n : ChannelId) :
    (p.chan n).HasWork ((p.line (p.lineOf n)).ordersOf n) ((p.line (p.lineOf n)).flightOf n) := by
  have one := filter_length_le_one (h.line (p.lineOf n)).single n
  have inQueue {o : Order} (ho : o ∈ (p.line (p.lineOf n)).ordersOf n) := h.fitsQueue ho
  have flying {e : Exchange} {o : Order} (he : (p.line (p.lineOf n)).flightOf n = some e) (hk : e.kind = .order o) :=
    (h.fitsFlight he hk).2
  have resting (hm : (p.chan n).motion = .unused ∨ (p.chan n).motion = .offline ∨ (p.chan n).motion = .idle ∨
      (p.chan n).motion = .faulted) :
      (p.chan n).HasWork ((p.line (p.lineOf n)).ordersOf n) ((p.line (p.lineOf n)).flightOf n) := by
    refine .atRest hm (List.eq_nil_iff_forall_not_mem.mpr fun o ho => ?_) fun e o he hk => ?_
    · have hq := inQueue ho
      cases hh : o.isHalt with
      | true => have := hq.halt hh; simp_all
      | false => have := hq.move hh; grind
    · have hf := flying he hk
      cases hh : o.isHalt with
      | true => have := (hf.halt hh).1; simp_all
      | false => have := hf.move hh; simp_all
  have waiting (hm : (p.chan n).motion = .ordering ∨ (p.chan n).motion = .moving) :
      superseding ((p.line (p.lineOf n)).ordersOf n) := by
    refine superseding_of one fun o ho => ?_
    have hq := inQueue ho
    have hh : o.isHalt = false := by
      by_contra hh
      have := hq.halt (by simpa using hh)
      simp_all
    refine ⟨hh, ?_⟩
    by_contra hs
    have := (hq.sent hh (by simpa using hs)).1
    simp_all
  cases hm : (p.chan n).motion with
  | unused => exact resting (by simp [hm])
  | offline => exact resting (by simp [hm])
  | idle => exact resting (by simp [hm])
  | faulted => exact resting (by simp [hm])
  | queued =>
    obtain ⟨o, ho, ht⟩ := (h.work n).queued hm
    rw [Part.queuedOf, Line.queued_eq] at ho
    have hq := list_eq_of_head? ho one
    have hf := inQueue (o := o) (by rw [hq]; exact List.mem_singleton_self o)
    have hh : o.isHalt = false := by
      by_contra hh
      have := hf.halt (by simpa using hh)
      simp_all
    refine .queued o hm hq hh ⟨fun hs => (hf.sent hh hs).2, ht⟩ fun e o' he hk => ?_
    have hf := flying he hk
    cases hh : o'.isHalt with
    | true => have := (hf.halt hh).1; simp_all
    | false => have := hf.move hh; simp_all
  | ordering =>
    obtain ⟨o, ho, hh, ht⟩ := (h.work n).ordering hm
    obtain ⟨e, he, hk⟩ := Line.inFlight_eq_some.mp ho
    have hf := flying he hk
    exact .ordering e o hm (waiting (.inl hm)) he hk hh (hf.sent hh) ht
      ((h.line (p.lineOf n)).sent e o (Line.flightOf_eq_some.mp he).1 hk)
  | moving =>
    refine .moving hm (waiting (.inr hm)) fun e o he hk => ?_
    have hf := flying he hk
    cases hh : o.isHalt with
    | true => have := (hf.halt hh).1; simp_all
    | false => have := hf.move hh; simp_all
  | halting =>
    cases hq : (p.line (p.lineOf n)).queued n with
    | some o =>
      have ho := hq
      rw [Line.queued_eq] at ho
      have hos := list_eq_of_head? ho one
      have hfq := inQueue (o := o) (by rw [hos]; exact List.mem_singleton_self o)
      refine .haltQueued o hm hos ?_ fun e o' he hk => ?_
      · by_contra hh
        have := hfq.move (by simpa using hh)
        simp_all
      · obtain ⟨hc, hf⟩ := h.fitsFlight he hk
        cases hh : o'.isHalt with
        | true => have := (hf.halt hh).2; rw [hc, hq] at this; exact nomatch this
        | false => have := hf.move hh; simp_all
    | none =>
      have hos : (p.line (p.lineOf n)).ordersOf n = [] := by rwa [Line.queued_eq, List.head?_eq_none_iff] at hq
      rcases (h.work n).halting hm with hn | ⟨o, ho, hh⟩
      · exact absurd hq hn
      · obtain ⟨e, he, hk⟩ := Line.inFlight_eq_some.mp ho
        exact .haltInFlight e o hm hos he hk hh
          ((h.line (p.lineOf n)).sent e o (Line.flightOf_eq_some.mp he).1 hk)

/-- The agreement of the whole part gives that of each channel. -/
theorem Part.motionFits.chanFits (h : p.motionFits) (n : ChannelId) : p.ChanFits n where
  record := h.channel n
  work := h.hasWork n
  elsewhere l hl := by
    refine ⟨List.eq_nil_iff_forall_not_mem.mpr fun o ho => ?_, Option.eq_none_iff_forall_not_mem.mpr fun e he => ?_, ?_⟩
    · rw [h.bound_of_order ho] at hl; exact Bool.noConfusion hl
    · rw [h.bound_of_flight he] at hl; exact Bool.noConfusion hl
    · rintro ⟨r, hr, rfl⟩
      rw [(h.line l).retake r hr] at hl; exact Bool.noConfusion hl
  quiet hs := by
    rw [Line.flightOf_eq_none]
    intro e he hc
    rw [(h.line _).idle hs e he] at hc
    exact nomatch hc
  out hs := by
    by_cases hu : (p.chan n).cfg.cls = .unused
    · exact .inl ((h.channel n).unused.mpr hu)
    · exact .inr (((h.line _).out hs).2 n (Channel.boundTo_iff.mpr ⟨hu, rfl⟩))

theorem Part.motionFits.outIsStill (h : p.motionFits) (l : LineId) : (p.line l).OutIsStill := fun hs => ((h.line l).out hs).1

theorem Channel.HasWork.length_le_one {c : Channel} {os : List Order} {f : Option Exchange} (h : c.HasWork os f) :
    os.length ≤ 1 := by
  have sup {os : List Order} (hs : superseding os) : os.length ≤ 1 := by
    rcases hs with rfl | ⟨o, rfl, -⟩ <;> simp
  cases h <;> first | (subst_vars; simp; done) | (apply sup; assumption)

/-- A queued order fits the channel it is for. -/
theorem Channel.HasWork.fitsQueue {c : Channel} {os : List Order} {f : Option Exchange} (h : c.HasWork os f) {o : Order}
    (ho : o ∈ os) {l : LineId} (hb : c.boundTo l = true) : o.fitsQueue c l := by
  have sup (hs : superseding os) : o.isHalt = false ∧ o.sent = false := by
    rcases hs with rfl | ⟨q, rfl, hq⟩
    · exact nomatch ho
    · obtain rfl := List.mem_singleton.mp ho; exact hq
  cases h with
  | atRest _ hq _ => subst hq; exact nomatch ho
  | queued q hm hq hh hs _ =>
    subst hq; obtain rfl := List.mem_singleton.mp ho
    exact ⟨hb, fun _ => .inl hm, fun _ k => ⟨hm, hs.mp k⟩, fun k => by simp [hh] at k⟩
  | ordering _ _ hm hq =>
    obtain ⟨h1, h2⟩ := sup hq
    exact ⟨hb, fun _ => .inr (.inl hm), fun _ k => by simp [h2] at k, fun k => by simp [h1] at k⟩
  | moving hm hq _ =>
    obtain ⟨h1, h2⟩ := sup hq
    exact ⟨hb, fun _ => .inr (.inr hm), fun _ k => by simp [h2] at k, fun k => by simp [h1] at k⟩
  | haltQueued q hm hq hh _ =>
    subst hq; obtain rfl := List.mem_singleton.mp ho
    exact ⟨hb, fun k => by simp [hh] at k, fun k => by simp [hh] at k, fun _ => hm⟩
  | haltInFlight _ _ _ hq => subst hq; exact nomatch ho

/-- A channel and line that agree fit in flight too. -/
theorem Channel.HasWork.fitsFlight {c : Channel} {x : Line} {n : ChannelId}
    (h : c.HasWork (x.ordersOf n) (x.flightOf n)) {e : Exchange} {o : Order} (he : x.flightOf n = some e) (hk : e.kind = .order o)
    {l : LineId} (hb : c.boundTo l = true) : o.fitsFlight c l x ∧ (e.sentAt ≠ none → o.sent = true) := by
  have hc : o.channel = n := by
    have := (Line.flightOf_eq_some.mp he).2
    rw [hk] at this
    exact Option.some.inj this
  have same {e' : Exchange} {o' : Order} (hf : x.flightOf n = some e') (hk' : e'.kind = .order o') : e' = e ∧ o' = o := by
    obtain rfl : e = e' := Option.some.inj (he ▸ hf)
    rw [hk] at hk'
    exact ⟨rfl, (ExchangeKind.order.inj hk').symm⟩
  cases h with
  | atRest _ _ hf => exact absurd hk (hf e o he)
  | queued _ _ _ _ _ hf => exact absurd hk (hf e o he)
  | ordering e' o' hm _ hf hk' hh hs _ hsent =>
    obtain ⟨rfl, rfl⟩ := same hf hk'
    exact ⟨⟨hb, fun _ => hm, fun _ => hs, fun k => by simp [hh] at k⟩, hsent⟩
  | moving _ _ hf => exact absurd hk (hf e o he)
  | haltQueued _ _ _ _ hf => exact absurd hk (hf e o he)
  | haltInFlight e' o' hm hq hf hk' hh hsent =>
    obtain ⟨rfl, rfl⟩ := same hf hk'
    refine ⟨⟨hb, fun k => by simp [hh] at k, fun k => by simp [hh] at k, fun _ => ⟨hm, ?_⟩⟩, hsent⟩
    rw [hc, Line.queued_eq, hq]; rfl

theorem Part.ChanFits.bound {l : LineId} (h : p.ChanFits n) (hl : ¬ (p.line l).FreeOf n) : (p.chan n).boundTo l = true := by
  by_contra hb
  exact hl (h.elsewhere l (by simpa using hb))

/-- The agreements of the channels and lines give that of the whole part. -/
theorem Part.motionFits.of {p : Part} (h : ∀ n, p.ChanFits n) (hl : ∀ l, (p.line l).OutIsStill) : p.motionFits where
  channel n := (h n).record
  line l := by
    have queue {o : Order} (ho : o ∈ (p.line l).urgent ++ (p.line l).routine) :
        o ∈ (p.line l).ordersOf o.channel := Line.mem_ordersOf.mpr ⟨ho, rfl⟩
    have flight {e : Exchange} {m : ChannelId} (he : (p.line l).exchange = some e) (hc : e.kind.channel = some m) :
        (p.line l).flightOf m = some e := Line.flightOf_eq_some.mpr ⟨he, hc⟩
    have bound {m : ChannelId} (hf : ¬ (p.line l).FreeOf m) := (h m).bound hf
    have work {m : ChannelId} (hb : (p.chan m).boundTo l = true) := Part.boundTo_lineOf hb ▸ (h m).work
    refine ⟨pairwise_of_filter_length fun m => ?_, fun o ho => ?_, fun e o he hk => ?_, fun e o he hk => ?_,
      fun e m poll he hk => ?_, fun r hr => ?_, fun hs e he => ?_, fun hs => ⟨hl l hs, fun m hb => ?_⟩⟩
    · show ((p.line l).ordersOf m).length ≤ 1
      by_cases hf : (p.line l).FreeOf m
      · simp [hf.orders]
      · exact (work (bound hf)).length_le_one
    · have hb := bound (m := o.channel) fun hf => by have := queue ho; simp [hf.orders] at this
      exact (work hb).fitsQueue (queue ho) hb
    all_goals
      first
        | have he' := flight he (m := o.channel) (by simp [hk, ExchangeKind.channel])
          have hb := bound (m := o.channel) fun hf => by simp [hf.flight] at he'
        | skip
    · exact ((work hb).fitsFlight he' hk hb).1
    · exact ((work hb).fitsFlight he' hk hb).2
    · have he' := flight he (m := m) (by simp [hk, ExchangeKind.channel])
      exact bound fun hf => by simp [hf.flight] at he'
    · exact bound fun hf => hf.retake ⟨r, hr, rfl⟩
    · cases hc : e.kind.channel with
      | none => rfl
      | some m =>
        have he' := flight he hc
        have hb := bound (m := m) fun hf => by simp [hf.flight] at he'
        rw [← Part.boundTo_lineOf hb] at hs he'
        rw [(h m).quiet hs] at he'
        exact nomatch he'
    · have hcls := (Channel.boundTo_iff.mp hb).1
      rw [← Part.boundTo_lineOf hb] at hs
      exact ((h m).out hs).resolve_left fun hu => hcls ((h m).record.unused.mp hu)
  work n := by
    have w := (h n).work
    have inFlight {e : Exchange} {o : Order} (hf : (p.line (p.lineOf n)).flightOf n = some e) (hk : e.kind = .order o) :=
      Line.inFlight_eq_some.mpr ⟨e, hf, hk⟩
    have queued {o : Order} (hq : (p.line (p.lineOf n)).ordersOf n = [o]) : p.queuedOf n = some o := by
      rw [Part.queuedOf, Line.queued_eq, hq]; rfl
    refine ⟨fun hm => ?_, fun hm => ?_, fun hm => ?_⟩
    · cases w with
      | queued o _ hq _ hs _ => exact ⟨o, queued hq, hs.mpr⟩
      | _ => simp_all
    · cases w with
      | ordering e o _ _ hf hk hh _ ht _ => exact ⟨o, inFlight hf hk, hh, ht⟩
      | _ => simp_all
    · cases w with
      | haltQueued o _ hq _ _ => exact .inl (by rw [queued hq]; exact Option.some_ne_none o)
      | haltInFlight e o _ _ hf hk hh _ => exact .inr ⟨o, inFlight hf hk, hh⟩
      | _ => simp_all

end
end Sys2Proof.Machine
end

section
/-! SUPPORT. Steps that reach one channel and its work, and steps that reach none: how they carry the agreement of channels, queues and
exchanges (R14, R15, R97, R122). -/

namespace Sys2Proof.Machine

/-! ## What a line shows the other channels -/

/-- A line shows a channel nothing new: the same orders and exchange, and no new retake. -/
structure Line.SameFor (m : ChannelId) (x y : Line) : Prop where
  orders : y.ordersOf m = x.ordersOf m
  flight : y.flightOf m = x.flightOf m
  retake : y.retakes m → x.retakes m

/-- A change of a line that reaches the work of one channel alone. -/
structure Line.WorkOnly (n : ChannelId) (x y : Line) : Prop where
  state : y.state = x.state
  still : x.OutIsStill → y.OutIsStill
  others : ∀ m, m ≠ n → Line.SameFor m x y

theorem Line.SameFor.refl (m : ChannelId) (x : Line) : Line.SameFor m x x := ⟨rfl, rfl, id⟩
theorem Line.SameFor.trans {m : ChannelId} {x y z : Line} (h : Line.SameFor m x y) (k : Line.SameFor m y z) : Line.SameFor m x z :=
  ⟨k.orders.trans h.orders, k.flight.trans h.flight, fun r => h.retake (k.retake r)⟩

theorem Line.WorkOnly.refl (n : ChannelId) (x : Line) : Line.WorkOnly n x x := ⟨rfl, id, fun m _ => .refl m x⟩
theorem Line.WorkOnly.trans {n : ChannelId} {x y z : Line} (h : Line.WorkOnly n x y) (k : Line.WorkOnly n y z) :
    Line.WorkOnly n x z :=
  ⟨k.state.trans h.state, fun s => k.still (h.still s), fun m hm => (h.others m hm).trans (k.others m hm)⟩

theorem Line.retakes_of_eq {x y : Line} {m : ChannelId} (h : y.retake = x.retake) (hr : y.retakes m) : x.retakes m := by
  obtain ⟨r, hy, hc⟩ := hr; exact ⟨r, h ▸ hy, hc⟩

/-- A change of the queue. -/
theorem Line.WorkOnly.of_queue {n : ChannelId} {x y : Line} (hs : y.state = x.state) (he : y.exchange = x.exchange)
    (hr : ∀ r, y.retake = some r → x.retake = some r) (ho : ∀ m, m ≠ n → y.ordersOf m = x.ordersOf m) : Line.WorkOnly n x y where
  state := hs
  still h k := by rw [he]; exact h (hs ▸ k)
  others m hm := ⟨ho m hm, by rw [Line.flightOf, he]; rfl, fun ⟨r, h, hc⟩ => ⟨r, hr r h, hc⟩⟩

section
variable (n : ChannelId) (x : Line)

theorem Line.WorkOnly.take : Line.WorkOnly n x (x.take n) :=
  .of_queue rfl rfl (fun _ h => h) fun m hm => by rw [Line.ordersOf_take, if_neg hm]

theorem Line.WorkOnly.remove : Line.WorkOnly n x (x.remove n) :=
  .of_queue rfl rfl (fun _ h => (x.take n).retake_forget n h) fun m hm => by rw [Line.ordersOf_remove, if_neg hm]

theorem Line.WorkOnly.join {o : Order} (h : o.channel = n) : Line.WorkOnly n x (x.join o) :=
  .of_queue (by simp) (by simp) (by simp) fun m hm => x.ordersOf_join_of_ne m o (h ▸ hm)

theorem Line.WorkOnly.reenter {o : Order} (h : o.channel = n) : Line.WorkOnly n x (x.reenter o) :=
  .of_queue (by simp) (by simp) (by simp) fun m hm => x.ordersOf_reenter_of_ne m o (h ▸ hm)

theorem Line.WorkOnly.change (f : Order → Order) (hf : ∀ o, (f o).channel = o.channel) : Line.WorkOnly n x (x.change n f) :=
  .of_queue rfl rfl (fun _ h => h) fun m hm => by rw [Line.ordersOf_change x n m f hf, if_neg hm]

theorem Line.WorkOnly.retarget (t : Nat) (cls : OrderClass) : Line.WorkOnly n x (x.retarget n t cls) :=
  .of_queue (by simp) (by simp) (by simp) fun _ hm => Line.ordersOf_retarget_of_ne x n _ t cls hm

theorem Line.WorkOnly.setRetake {r : Retake} (h : r.channel = n) : Line.WorkOnly n x { x with retake := some r } where
  state := rfl
  still h := h
  others m hm := ⟨rfl, rfl, fun ⟨r', hr, hc⟩ => absurd (by obtain rfl := Option.some.inj hr; exact hc.symm.trans h) hm⟩

/-- The exchange is the channel's own, before and after, where it changes. -/
theorem Line.WorkOnly.of_exchange {y : Line} (hs : y.state = x.state) (hu : y.urgent = x.urgent) (hr : y.routine = x.routine)
    (ht : y.retake = x.retake) (hx : ∀ e, x.exchange = some e → e.kind.channel = some n)
    (hy : ∀ e, y.exchange = some e → e.kind.channel = some n) (hn : x.OutIsStill → y.OutIsStill) : Line.WorkOnly n x y where
  state := hs
  still := hn
  others m hm := by
    refine ⟨by rw [Line.ordersOf, hu, hr]; rfl, ?_, Line.retakes_of_eq ht⟩
    have none {z : Line} (hz : ∀ e, z.exchange = some e → e.kind.channel = some n) : z.flightOf m = none :=
      Line.flightOf_eq_none.mpr fun e he hc => hm (Option.some.inj ((hc.symm.trans (hz e he))))
    rw [none hx, none hy]

theorem Line.WorkOnly.reclassInFlight (cls : OrderClass) : Line.WorkOnly n x (x.reclassInFlight n cls) := by
  rcases x.reclassInFlight_cases n cls with h | ⟨e, o, he, hk, hc, -, h⟩ <;> rw [h]
  · exact .refl n x
  · refine .of_exchange n x rfl rfl rfl rfl (fun e' h' => ?_) (fun e' h' => ?_) fun s k => ?_
    · obtain rfl : e = e' := Option.some.inj (he ▸ h')
      simp [hk, ExchangeKind.channel, hc]
    · obtain rfl := Option.some.inj h'
      simp [ExchangeKind.channel, hc]
    · have := s k; rw [he] at this; exact nomatch this

end

/-! ## Steps that reach one channel and its line -/

/-- Besides the record of a channel and its work on its line nothing that the agreement reads differs. -/
structure Part.Near (n : ChannelId) (p q : Part) : Prop where
  chan : p.OnlyChan n q
  cfg : (q.chan n).cfg = (p.chan n).cfg
  line : ∀ l, Line.WorkOnly n (p.line l) (q.line l)
  far : ∀ l, l ≠ p.lineOf n → Line.SameFor n (p.line l) (q.line l)

section
variable {n : ChannelId} {p q : Part}

theorem Part.Near.refl (p : Part) : p.Near n p := ⟨.refl p, rfl, fun _ => .refl n _, fun _ _ => .refl n _⟩

theorem Part.Near.lineOf (h : p.Near n q) : q.lineOf n = p.lineOf n := by rw [Part.lineOf, h.cfg]; rfl

theorem Part.Near.trans {r : Part} (h : p.Near n q) (k : q.Near n r) : p.Near n r :=
  ⟨h.chan.trans k.chan, k.cfg.trans h.cfg, fun l => (h.line l).trans (k.line l),
    fun l hl => (h.far l hl).trans (k.far l (h.lineOf ▸ hl))⟩

/-- A change of neither a channel nor a line. -/
theorem Part.Near.of_same {r : Part} (h : p.Near n q) (hc : ∀ m, r.chan m = q.chan m) (hl : ∀ l, r.line l = q.line l) :
    p.Near n r :=
  h.trans ⟨fun m _ => hc m, by rw [hc], fun l => by rw [hl]; exact .refl n _, fun l _ => by rw [hl]; exact .refl n _⟩

theorem Part.Near.modChan (h : p.Near n q) (f : Channel → Channel) (hf : ∀ c, (f c).cfg = c.cfg) : p.Near n (q.modChan n f) :=
  h.trans ⟨fun m hm => by rw [Part.chan_modChan, if_neg hm], by rw [Part.chan_modChan_self, hf], fun _ => .refl n _,
    fun _ _ => .refl n _⟩

theorem Part.Near.modLine (h : p.Near n q) (f : Line → Line) (hf : Line.WorkOnly n (q.line (q.lineOf n)) (f (q.line (q.lineOf n)))) :
    p.Near n (q.modLine (q.lineOf n) f) := by
  refine h.trans ⟨fun _ _ => rfl, rfl, fun l => ?_, fun l hl => ?_⟩ <;> rw [Part.line_modLine]
  · split
    · rename_i e; rw [e]; exact hf
    · exact .refl n _
  · rw [if_neg hl]; exact .refl n _

theorem Part.Near.record (h : p.Near n q) (b : BankId) (e : ErrorRecord) : p.Near n (q.record b e) :=
  h.of_same (fun _ => rfl) fun _ => rfl
theorem Part.Near.mark (h : p.Near n q) (r : RecordId) (w : BitVec 8) : p.Near n (q.mark r w) :=
  h.of_same (fun _ => rfl) fun _ => rfl
theorem Part.Near.advanceTo (h : p.Near n q) (t : Nat) : p.Near n (q.advanceTo t) := h.of_same (fun _ => rfl) fun _ => rfl
theorem Part.Near.joinNotices (h : p.Near n q) (m : ChannelId) : p.Near n (q.joinNotices m) :=
  h.of_same (fun _ => rfl) fun _ => rfl

theorem Part.Near.setMotion (h : p.Near n q) (m : Motion) : p.Near n (q.setMotion n m) := h.modChan _ fun _ => rfl
theorem Part.Near.removeOrder (h : p.Near n q) : p.Near n (q.removeOrder n) := h.modLine _ (.remove n _)

theorem Part.OutIsStill.near (h : p.Near n q) {l : LineId} (k : (p.line l).OutIsStill) : (q.line l).OutIsStill := (h.line l).still k

theorem Line.SameFor.freeOf {x y : Line} (h : Line.SameFor n x y) (k : x.FreeOf n) : y.FreeOf n :=
  ⟨h.orders.trans k.orders, h.flight.trans k.flight, fun r => k.retake (h.retake r)⟩

/-- The other channels still agree with their lines. -/
theorem Part.ChanFits.near_of_ne {m : ChannelId} (h : p.Near n q) (hm : m ≠ n) (k : p.ChanFits m) : q.ChanFits m := by
  have hc := h.chan m hm
  have hl : q.lineOf m = p.lineOf m := by rw [Part.lineOf, hc]; rfl
  have view := (h.line (p.lineOf m)).others m hm
  have hs := (h.line (p.lineOf m)).state
  refine ⟨by rw [hc]; exact k.record, ?_, fun l hb => ?_, ?_, ?_⟩
  · rw [hc, hl, view.orders, view.flight]; exact k.work
  · exact ((h.line l).others m hm).freeOf (k.elsewhere l (by rwa [hc] at hb))
  · rw [hl, hs, view.flight]; exact k.quiet
  · rw [hl, hs, hc]; exact k.out

/-- The part agrees after a step near one channel if that channel does. -/
theorem Part.motionFits.near (h : p.motionFits) (k : p.Near n q) (hn : q.ChanFits n) : q.motionFits :=
  .of (fun m => by
    by_cases e : m = n
    · exact e ▸ hn
    · exact (h.chanFits m).near_of_ne k e) fun l => (k.line l).still (h.outIsStill l)

/-- A channel in use with no order in flight: what a step that settles its work starts from. -/
structure Part.Unordered (p : Part) (n : ChannelId) : Prop where
  used : (p.chan n).cfg.cls ≠ .unused
  elsewhere : ∀ l, (p.chan n).boundTo l = false → (p.line l).FreeOf n
  flight : noOrder ((p.line (p.lineOf n)).flightOf n)
  quiet : (p.line (p.lineOf n)).state = .quiet ∨ (p.line (p.lineOf n)).state = .test → (p.line (p.lineOf n)).flightOf n = none

/-- Nothing of a channel comes to the lines it is not bound to. -/
theorem Part.Near.elsewhere (k : p.Near n q) (hu : (p.chan n).cfg.cls ≠ .unused)
    (h : ∀ l, (p.chan n).boundTo l = false → (p.line l).FreeOf n) (l : LineId) (hb : (q.chan n).boundTo l = false) :
    (q.line l).FreeOf n := by
  have hb : (p.chan n).boundTo l = false := by rw [← hb, Channel.boundTo, Channel.boundTo, k.cfg]
  refine (k.far l fun e => ?_).freeOf (h l hb)
  rw [Channel.boundTo_iff.mpr ⟨hu, e.symm⟩] at hb
  exact Bool.noConfusion hb

/-- A channel agrees with its line after a step near it that settled its work. -/
theorem Part.Unordered.chanFits (h : p.Unordered n) (k : p.Near n q) (hr : (q.chan n).fits)
    (hf : (q.line (p.lineOf n)).flightOf n = (p.line (p.lineOf n)).flightOf n)
    (hw : (q.chan n).HasWork ((q.line (p.lineOf n)).ordersOf n) ((p.line (p.lineOf n)).flightOf n))
    (ho : (p.line (p.lineOf n)).state = .disabled ∨ (p.line (p.lineOf n)).state = .failed →
      (q.chan n).motion = .unused ∨ (q.chan n).motion = .offline ∨ (q.chan n).motion = .faulted) : q.ChanFits n where
  record := hr
  work := by rw [k.lineOf, hf]; exact hw
  elsewhere := k.elsewhere h.used h.elsewhere
  quiet := by rw [k.lineOf, hf, (k.line _).state]; exact h.quiet
  out := by rw [k.lineOf, (k.line _).state]; exact ho

end

/-! ## Steps that no channel's work notices -/

/-- Two records that the agreement does not tell apart. -/
structure Channel.Alike (c d : Channel) : Prop where
  cfg : d.cfg = c.cfg
  motion : d.motion = c.motion
  fault : d.fault.isSome = c.fault.isSome
  travel : d.travel = none ↔ c.travel = none
  accepted : d.accepted = none ↔ c.accepted = none
  position : c.position = none → d.position = none
  report : c.report = none → d.report = none

theorem Channel.Alike.refl (c : Channel) : c.Alike c := ⟨rfl, rfl, rfl, .rfl, .rfl, id, id⟩

theorem Channel.Alike.fits {c d : Channel} (h : c.Alike d) (k : c.fits) : d.fits := by
  obtain ⟨hcfg, hm, hf, ht, ha, hp, hr⟩ := h
  obtain ⟨u, f, t, m, a, n⟩ := k
  refine ⟨?_, ?_, ?_, ?_, ?_, ?_⟩
  · rw [hm, hcfg]; exact u
  · rw [hf, hm]; exact f
  · rw [hm, ne_eq, ht]; exact t
  · rw [hm, ne_eq, ha]; exact m
  · rw [hm, ne_eq, ne_eq, ha, ht]; exact a
  · rw [hm]; exact fun k => ⟨hp (n k).1, hr (n k).2⟩

theorem Channel.Alike.hasWork {c d : Channel} (h : c.Alike d) {os : List Order} {f : Option Exchange} (k : c.HasWork os f) :
    d.HasWork os f := by
  obtain ⟨-, hm, -, ht, ha, -, -⟩ := h
  cases k with
  | atRest m q f => exact .atRest (hm ▸ m) q f
  | queued o m q hh hs f => exact .queued o (hm ▸ m) q hh (by rw [ne_eq, ht]; exact hs) f
  | ordering e o m q f hk hh hs htr hsent =>
    exact .ordering e o (hm ▸ m) q f hk hh (by rw [ne_eq, ht, ha]; exact hs) (by rw [ne_eq, ne_eq, ht, ha]; exact htr) hsent
  | moving m q f => exact .moving (hm ▸ m) q f
  | haltQueued o m q hh f => exact .haltQueued o (hm ▸ m) q hh f
  | haltInFlight e o m q f hk hh hsent => exact .haltInFlight e o (hm ▸ m) q f hk hh hsent

/-- A step that shows every channel the same. -/
structure Part.Unseen (p q : Part) : Prop where
  chan : ∀ m, (p.chan m).Alike (q.chan m)
  state : ∀ l, (q.line l).state = (p.line l).state
  still : ∀ l, (p.line l).OutIsStill → (q.line l).OutIsStill
  view : ∀ l m, Line.SameFor m (p.line l) (q.line l)

section
variable {p q : Part}

theorem Part.Unseen.refl (p : Part) : p.Unseen p := ⟨fun _ => .refl _, fun _ => rfl, fun _ => id, fun _ _ => .refl _ _⟩

theorem Part.Unseen.of_same (hc : ∀ m, q.chan m = p.chan m) (hl : ∀ l, q.line l = p.line l) : p.Unseen q :=
  ⟨fun m => by rw [hc]; exact .refl _, fun l => by rw [hl], fun l => by rw [hl]; exact id, fun l m => by rw [hl]; exact .refl _ _⟩

theorem Part.Unseen.boundTo (h : p.Unseen q) (m : ChannelId) (l : LineId) : (q.chan m).boundTo l = (p.chan m).boundTo l := by
  rw [Channel.boundTo, (h.chan m).cfg]; rfl

theorem Part.Unseen.lineOf (h : p.Unseen q) (m : ChannelId) : q.lineOf m = p.lineOf m := by
  rw [Part.lineOf, (h.chan m).cfg]; rfl

theorem Part.ChanFits.unseen {n : ChannelId} (k : p.ChanFits n) (h : p.Unseen q) : q.ChanFits n := by
  have view := h.view (p.lineOf n) n
  refine ⟨(h.chan n).fits k.record, ?_, fun l hb => ?_, ?_, ?_⟩
  · rw [h.lineOf, view.orders, view.flight]; exact (h.chan n).hasWork k.work
  · exact (h.view l n).freeOf (k.elsewhere l (by rwa [h.boundTo] at hb))
  · rw [h.lineOf, h.state, view.flight]; exact k.quiet
  · rw [h.lineOf, h.state, (h.chan n).motion]; exact k.out

theorem Part.motionFits.unseen (k : p.motionFits) (h : p.Unseen q) : q.motionFits :=
  .of (fun n => (k.chanFits n).unseen h) fun l => h.still l (k.outIsStill l)

theorem Part.motionFits.of_same (k : p.motionFits) (hc : ∀ m, q.chan m = p.chan m) (hl : ∀ l, q.line l = p.line l) : q.motionFits :=
  k.unseen (.of_same hc hl)

theorem Part.motionFits.modChan (k : p.motionFits) (n : ChannelId) (f : Channel → Channel) (hf : (p.chan n).Alike (f (p.chan n))) :
    (p.modChan n f).motionFits := by
  refine k.unseen ⟨fun m => ?_, fun _ => rfl, fun _ => id, fun _ _ => .refl _ _⟩
  rw [Part.chan_modChan]
  split
  · rename_i e; rw [e]; exact hf
  · exact .refl _

/-- A change of a line's timers, receiver, test record or wire. -/
theorem Part.motionFits.modLine (k : p.motionFits) (l : LineId) (f : Line → Line)
    (hs : ∀ x, (f x).state = x.state ∧ (f x).urgent = x.urgent ∧ (f x).routine = x.routine ∧ (f x).exchange = x.exchange)
    (hr : ∀ x r, (f x).retake = some r → x.retake = some r) : (p.modLine l f).motionFits := by
  refine k.unseen ⟨fun _ => .refl _, fun j => ?_, fun j => ?_, fun j m => ?_⟩ <;> rw [Part.line_modLine]
  all_goals split
  · rename_i e; rw [e]; exact (hs _).1
  · rfl
  · rename_i e; rw [e]; exact fun s d => by rw [(hs _).2.2.2]; exact s ((hs _).1 ▸ d)
  · exact id
  · rename_i e; subst e
    obtain ⟨-, hu, hq, he⟩ := hs (p.line j)
    exact ⟨by rw [Line.ordersOf, hu, hq]; rfl, by rw [Line.flightOf, he]; rfl, fun ⟨r, h, hc⟩ => ⟨r, hr _ r h, hc⟩⟩
  · exact .refl _ _

end
end Sys2Proof.Machine
end

section
/-! SUPPORT. What the Motion Unit's operations for one channel do to the rest of the part: to its line's queue, to the other
lines, the banks and the notices. -/

namespace Sys2Proof.Machine

/-- Of a line only the queue, the exchange and the retake differ. -/
def Line.QueueOnly (x y : Line) : Prop :=
  { y with urgent := x.urgent, routine := x.routine, exchange := x.exchange, retake := x.retake } = x

section
variable (x : Line) (n : ChannelId) (o : Order)

theorem Line.QueueOnly.refl : x.QueueOnly x := rfl

theorem Line.QueueOnly.trans {x y z : Line} (h : x.QueueOnly y) (k : y.QueueOnly z) : x.QueueOnly z := by
  unfold Line.QueueOnly at *
  rw [← k] at h
  exact h

theorem Line.QueueOnly.state {x y : Line} (h : x.QueueOnly y) : y.state = x.state := by
  unfold Line.QueueOnly at h; rw [← h]

theorem Line.QueueOnly.take : x.QueueOnly (x.take n) := rfl
theorem Line.QueueOnly.remove : x.QueueOnly (x.remove n) := rfl
theorem Line.QueueOnly.join : x.QueueOnly (x.join o) := by unfold Line.join; split <;> rfl
theorem Line.QueueOnly.reenter : x.QueueOnly (x.reenter o) := by unfold Line.reenter; split <;> rfl
theorem Line.QueueOnly.change (f : Order → Order) : x.QueueOnly (x.change n f) := rfl

theorem Line.QueueOnly.retarget (t : Nat) (cls : OrderClass) : x.QueueOnly (x.retarget n t cls) := by
  unfold Line.retarget
  split
  · rfl
  · split
    · rfl
    · split
      · rfl
      · exact (Line.QueueOnly.take x n).trans (.join _ _)

theorem Line.QueueOnly.reclassInFlight (cls : OrderClass) : x.QueueOnly (x.reclassInFlight n cls) := by
  unfold Line.reclassInFlight
  split
  · split
    · split <;> rfl
    · rfl
    · rfl
  · rfl

end

/-- The in-flight ORDER of a channel takes the class of its governing source (R98). -/
def Part.reclass (p : Part) (n : ChannelId) : Part :=
  p.modLine (p.lineOf n) (fun x => x.reclassInFlight n (classOf (p.chan n).governing))

theorem Line.queued_reclassInFlight (x : Line) (n m : ChannelId) (cls : OrderClass) :
    (x.reclassInFlight n cls).queued m = x.queued m := by
  unfold Line.reclassInFlight
  split
  · split
    · split <;> rfl
    · rfl
    · rfl
  · rfl

/-- R101: a superseding order is dropped where its target is under way, retargeted where one waits, and else new. -/
theorem Part.supersede_eq (p : Part) (n : ChannelId) (t : Nat) :
    p.supersede n t =
      if currentTarget (p.line (p.lineOf n)) (p.chan n) n = some t then (p.reclass n).removeOrder n
      else if ((p.line (p.lineOf n)).queued n).isSome then
        (p.reclass n).modLine (p.lineOf n) (fun x => x.retarget n t (classOf (p.chan n).governing))
      else (p.reclass n).joinOrder n t := by
  have current : (match (p.line (p.lineOf n)).inFlight n with
      | some o => match o.work with | .move t => some t | .halt _ => none
      | none => (p.chan n).accepted) = currentTarget (p.line (p.lineOf n)) (p.chan n) n := by
    unfold Line.inFlight currentTarget
    rcases (p.line (p.lineOf n)).exchange with _ | ⟨o | _ | _, _, _⟩
    · rfl
    · dsimp only
      by_cases h : o.channel = n
      · cases hw : o.work <;> simp [h, hw]
      · simp [h]
    · rfl
    · rfl
  have queue : ((p.reclass n).line (p.lineOf n)).queued n = (p.line (p.lineOf n)).queued n := by
    rw [Part.reclass, Part.line_modLine_self, Line.queued_reclassInFlight]
  rw [← current, ← queue]
  rfl

/-- A channel takes the result of the governing order (R33). -/
def Part.regrant (p : Part) (n : ChannelId) : Part :=
  Part.mark (p.modChan n (fun c => { c with governing := (p.governs n).1, granted := (p.governs n).2 })) (.channel n)
    (wordBit true 2 ||| wordBit true 3)

theorem Part.regrant_chan_self (p : Part) (n : ChannelId) :
    (p.regrant n).chan n = { p.chan n with governing := (p.governs n).1, granted := (p.governs n).2 } := by
  rw [Part.regrant, Part.mark_chan, Part.chan_modChan_self]

/-- R33: a recomputation gives notice of a result that is new. -/
theorem Part.recompute_eq (p : Part) (n : ChannelId) :
    p.recompute n = if ((p.chan n).governing, (p.chan n).granted) = p.governs n then p else (p.regrant n).notice n := by
  by_cases h : ((p.chan n).governing, (p.chan n).granted) = p.governs n
  · rw [if_pos h]; exact if_pos (Prod.ext_iff.1 h)
  · rw [if_neg h]; exact if_neg (fun k => h (Prod.ext_iff.2 k))

/-- Besides channel records only the queue of the channel's line differs. -/
structure Part.QueueWork (n : ChannelId) (p q : Part) : Prop where
  cfg : (q.chan n).cfg = (p.chan n).cfg
  own : (p.line (p.lineOf n)).QueueOnly (q.line (p.lineOf n))
  other : ∀ l, l ≠ p.lineOf n → q.line l = p.line l
  banks : q.banks = p.banks
  dirty : ∀ b, q.dirtyOf (.bank b) = p.dirtyOf (.bank b)
  notices : q.notices = p.notices
  noticeAcks : q.noticeAcks = p.noticeAcks
  now : q.now = p.now

section
variable {n : ChannelId} {p q r : Part}

theorem Part.QueueWork.refl (p : Part) : p.QueueWork n p := ⟨rfl, rfl, fun _ _ => rfl, rfl, fun _ => rfl, rfl, rfl, rfl⟩

theorem Part.QueueWork.lineOf (h : p.QueueWork n q) : q.lineOf n = p.lineOf n := congrArg ChannelConfig.line h.cfg

theorem Part.QueueWork.trans (h : p.QueueWork n q) (k : q.QueueWork n r) : p.QueueWork n r where
  cfg := k.cfg.trans h.cfg
  own := h.own.trans (h.lineOf ▸ k.own)
  other l hl := (k.other l (h.lineOf.symm ▸ hl)).trans (h.other l hl)
  banks := k.banks.trans h.banks
  dirty b := (k.dirty b).trans (h.dirty b)
  notices := k.notices.trans h.notices
  noticeAcks := k.noticeAcks.trans h.noticeAcks
  now := k.now.trans h.now

theorem Part.QueueWork.state (h : p.QueueWork n q) (l : LineId) : (q.line l).state = (p.line l).state := by
  by_cases e : l = p.lineOf n
  · exact e ▸ h.own.state
  · rw [h.other l e]

theorem Part.QueueWork.bank (h : p.QueueWork n q) (b : BankId) : q.bank b = p.bank b := by
  rw [Part.bank, h.banks]; rfl

/-- A mark of a word of no bank. -/
theorem Part.QueueWork.mark (h : p.QueueWork n q) (k : RecordId) (w : BitVec 8) (hk : ∀ b, RecordId.bank b ≠ k) :
    p.QueueWork n (q.mark k w) :=
  h.trans ⟨rfl, rfl, fun _ _ => rfl, rfl, fun b => by rw [Part.dirtyOf_mark, if_neg (hk b)], rfl, rfl, rfl⟩

theorem Part.QueueWork.modChan (h : p.QueueWork n q) (f : Channel → Channel) (hf : ∀ c : Channel, (f c).cfg = c.cfg) :
    p.QueueWork n (q.modChan n f) :=
  h.trans ⟨by rw [Part.chan_modChan_self, hf], rfl, fun _ _ => rfl, rfl, fun b => by
    unfold Part.modChan Part.setChan
    rw [Part.dirtyOf_mark, if_neg RecordId.noConfusion]
    rfl, rfl, rfl, rfl⟩

theorem Part.QueueWork.modLine (h : p.QueueWork n q) (f : Line → Line)
    (hf : (q.line (q.lineOf n)).QueueOnly (f (q.line (q.lineOf n)))) : p.QueueWork n (q.modLine (q.lineOf n) f) :=
  h.trans ⟨rfl, by rwa [Part.line_modLine_self], fun l hl => by rw [Part.line_modLine, if_neg hl], rfl, fun b => by
    unfold Part.modLine Part.setLine
    rw [Part.dirtyOf_mark, if_neg RecordId.noConfusion, Part.dirtyOf_mark, if_neg RecordId.noConfusion]
    rfl, rfl, rfl, rfl⟩

theorem Part.QueueWork.setMotion (h : p.QueueWork n q) (m : Motion) : p.QueueWork n (q.setMotion n m) :=
  h.modChan _ fun _ => rfl

theorem Part.QueueWork.removeOrder (h : p.QueueWork n q) : p.QueueWork n (q.removeOrder n) := h.modLine _ rfl

theorem Part.QueueWork.joinOrder (h : p.QueueWork n q) (t : Nat) : p.QueueWork n (q.joinOrder n t) :=
  h.modLine _ (.join _ _)

theorem Part.QueueWork.testIdle (h : p.QueueWork n q) : p.QueueWork n (q.testIdle n) := by
  unfold Part.testIdle
  dsimp only
  split
  · split
    · exact (h.joinOrder _).setMotion _
    · exact h
  · exact h

theorem Part.QueueWork.reclass (h : p.QueueWork n q) : p.QueueWork n (q.reclass n) := h.modLine _ (.reclassInFlight _ _ _)

theorem Part.QueueWork.supersede (h : p.QueueWork n q) (t : Nat) : p.QueueWork n (q.supersede n t) := by
  rw [Part.supersede_eq]
  split
  · exact h.reclass.removeOrder
  · split
    · exact h.reclass.modLine _ (.retarget _ _ _ _)
    · exact h.reclass.joinOrder _

theorem Part.QueueWork.notice (h : p.QueueWork n q) : p.QueueWork n (q.notice n) := by
  unfold Part.notice
  dsimp only
  split
  · exact h.testIdle
  · split
    · refine Part.QueueWork.setMotion ?_ _
      exact h.removeOrder.modChan _ fun _ => rfl
    · exact h.modLine _ (.retarget _ _ _ _)
  · exact h.supersede _
  · exact h.supersede _
  · exact h

theorem Part.QueueWork.regrant (h : p.QueueWork n q) : p.QueueWork n (q.regrant n) := by
  refine Part.QueueWork.mark ?_ _ _ fun _ => RecordId.noConfusion
  exact h.modChan _ fun _ => rfl

theorem Part.QueueWork.recompute (h : p.QueueWork n q) : p.QueueWork n (q.recompute n) := by
  rw [Part.recompute_eq]
  split
  · exact h
  · exact h.regrant.notice

theorem Part.QueueWork.dropWork (h : p.QueueWork n q) : p.QueueWork n (q.dropWork n) := by
  unfold Part.dropWork
  exact h.removeOrder.modChan _ fun _ => rfl

theorem Part.QueueWork.forgetPosition (h : p.QueueWork n q) : p.QueueWork n (q.forgetPosition n) := by
  unfold Part.forgetPosition
  exact h.modChan _ fun _ => rfl

end

/-! ## Channel records after the operations -/

section
variable (p : Part) (n : ChannelId)

@[simp] theorem Part.setMotion_chan_self (m : Motion) : (p.setMotion n m).chan n = (p.chan n).enter p.now m :=
  p.chan_modChan_self n _
@[simp] theorem Part.setMotion_line (m : Motion) (l : LineId) : (p.setMotion n m).line l = p.line l := rfl
@[simp] theorem Part.removeOrder_chan (m : ChannelId) : (p.removeOrder n).chan m = p.chan m := rfl
theorem Part.removeOrder_line_self : (p.removeOrder n).line (p.lineOf n) = (p.line (p.lineOf n)).remove n :=
  p.line_modLine_self _ _
@[simp] theorem Part.joinOrder_chan (t : Nat) (m : ChannelId) : (p.joinOrder n t).chan m = p.chan m := rfl

/-- R99: an IDLE channel out of tolerance becomes QUEUED. -/
theorem Part.testIdle_chan_self :
    (p.testIdle n).chan n =
      if (p.chan n).motion = .idle ∧ withinTolerance (p.chan n) (p.chan n).granted = false ∧ (p.chan n).granted ≠ none then
        (p.chan n).enter p.now .queued
      else p.chan n := by
  unfold Part.testIdle
  dsimp only
  by_cases h : (p.chan n).motion = .idle ∧ withinTolerance (p.chan n) (p.chan n).granted = false
  · rw [if_pos h]
    cases hg : (p.chan n).granted with
    | none => simp
    | some t =>
      rw [if_pos ⟨h.1, hg ▸ h.2, Option.some_ne_none t⟩]
      exact (p.joinOrder n t).setMotion_chan_self n .queued
  · rw [if_neg h, if_neg fun k => h ⟨k.1, k.2.1⟩]

@[simp] theorem Part.supersede_chan (t : Nat) (m : ChannelId) : (p.supersede n t).chan m = p.chan m := by
  rw [Part.supersede_eq]
  split
  · rfl
  · split <;> rfl

end

end Sys2Proof.Machine
end

section
/-! SUPPORT. A grant notice (R98 to R101), and the write of a requested target (R6, R26 to R34, R155, R156). -/

namespace Sys2Proof.Machine

/-! ## The queue of a line -/

section
variable {x y z : Line} {n : ChannelId} {o : Order} {g : Nat} {cls : OrderClass}

theorem Line.SameQueue.refl (x : Line) : x.SameQueue x := ⟨rfl, rfl⟩

theorem Line.sameQueue_reclassInFlight (x : Line) (n : ChannelId) (cls : OrderClass) :
    x.SameQueue (x.reclassInFlight n cls) := by
  unfold Line.reclassInFlight
  split
  · split
    · split <;> exact ⟨rfl, rfl⟩
    · exact .refl x
    · exact .refl x
  · exact .refl x

theorem Line.joined_join (x : Line) (o : Order) : x.Joined (x.join o) o := by
  unfold Line.join
  cases h : o.cls <;> exact ⟨by simp [h], by simp [h]⟩

theorem Line.removed_remove (x : Line) (n : ChannelId) : x.Removed (x.remove n) n := ⟨rfl, rfl⟩

/-- R98, R100: the three cases of a retargeting. -/
theorem Line.retargeted_retarget (h : x.queued n = some o) : x.Retargeted (x.retarget n g cls) o g cls := by
  have hn : o.channel = n := by
    rw [Line.queued] at h
    simpa using List.find?_some h
  unfold Line.retarget
  rw [h]
  subst hn
  refine ⟨fun hh => ?_, fun hh hc => ?_, fun hh hc => ?_⟩
  · simp only [hh, if_true]; exact .refl x
  · simp only [hh, hc, if_true, Bool.false_eq_true, if_false]; exact ⟨rfl, rfl⟩
  · simp only [hh, hc, Bool.false_eq_true, if_false]
    cases cls <;> simp [Line.join, Line.take, without]

theorem Line.Joined.of_same (h : x.SameQueue y) (k : y.Joined z o) : x.Joined z o :=
  ⟨h.urgent ▸ k.urgent, h.routine ▸ k.routine⟩

theorem Line.Removed.of_same (h : x.SameQueue y) (k : y.Removed z n) : x.Removed z n :=
  ⟨h.urgent ▸ k.urgent, h.routine ▸ k.routine⟩

theorem Line.SameQueue.trans (h : x.SameQueue y) (k : y.SameQueue z) : x.SameQueue z :=
  ⟨k.urgent.trans h.urgent, k.routine.trans h.routine⟩

theorem Line.Retargeted.of_same (h : x.SameQueue y) (k : y.Retargeted z o g cls) : x.Retargeted z o g cls where
  halt hh := h.trans (k.halt hh)
  inPlace hh hc := h.urgent ▸ h.routine ▸ k.inPlace hh hc
  moved hh hc := h.urgent ▸ h.routine ▸ k.moved hh hc

/-- The in-flight ORDER of the channel takes the class. -/
theorem Line.reclassInFlight_exchange {e : Exchange} (he : x.exchange = some e) (hk : e.kind = .order o)
    (hn : o.channel = n) (hh : o.isHalt = false) :
    (x.reclassInFlight n cls).exchange = some { e with kind := .order { o with cls := cls } } := by
  unfold Line.reclassInFlight
  rw [he]
  simp only [hk, hn, hh]
  rfl

end

/-! ## The notice by the motion state -/

section
variable (p : Part) (n : ChannelId)

theorem classOf_eq (g : Source) : classOf g = ruledClass g := by cases g <;> rfl

theorem Part.notice_of_idle (h : (p.chan n).motion = .idle) : p.notice n = p.testIdle n := by
  unfold Part.notice; simp only [h]

theorem Part.notice_of_queued {g : Nat} (h : (p.chan n).motion = .queued) (hg : (p.chan n).granted = some g) :
    p.notice n =
      if withinTolerance (p.chan n) (some g) then
        ((p.removeOrder n).modChan n (fun c => { c with travel := none, shortMark := false })).setMotion n .idle
      else p.modLine (p.lineOf n) (fun x => x.retarget n g (classOf (p.chan n).governing)) := by
  unfold Part.notice; simp only [h, hg]; rfl

theorem Part.notice_of_underWay {g : Nat} (h : (p.chan n).motion = .ordering ∨ (p.chan n).motion = .moving)
    (hg : (p.chan n).granted = some g) : p.notice n = p.supersede n g := by
  unfold Part.notice
  rcases h with h | h <;> simp only [h, hg]

theorem Part.notice_of_waiting (h : (p.chan n).motion = .halting ∨ (p.chan n).motion = .faulted ∨
    (p.chan n).motion = .offline ∨ (p.chan n).motion = .unused) : p.notice n = p := by
  unfold Part.notice
  rcases h with h | h | h | h <;> simp only [h]

theorem Part.testIdle_of_ungranted (hg : (p.chan n).granted = none) : p.testIdle n = p := by
  unfold Part.testIdle
  dsimp only
  split
  · rw [hg]
  · rfl

theorem Part.notice_of_ungranted (hg : (p.chan n).granted = none) : p.notice n = p := by
  unfold Part.notice
  dsimp only
  rw [hg]
  cases (p.chan n).motion with
  | idle => exact p.testIdle_of_ungranted n hg
  | _ => rfl

/-- R99: the ORDER of an IDLE channel out of tolerance joins its group. -/
theorem Part.testIdle_of_idle {g : Nat} (h : (p.chan n).motion = .idle) (hg : (p.chan n).granted = some g) :
    p.testIdle n = if withinTolerance (p.chan n) (some g) then p else (p.joinOrder n g).setMotion n .queued := by
  unfold Part.testIdle
  simp only [h, hg, true_and]
  cases withinTolerance (p.chan n) (some g) <;> rfl

theorem Part.notice_taken_idle {g : Nat} (hm : (p.chan n).motion = .idle) (hg : (p.chan n).granted = some g) :
    let d := (p.notice n).chan n
    let x := p.line (p.lineOf n)
    let y := (p.notice n).line (p.lineOf n)
    (withinTolerance (p.chan n) (some g) = true → d.motion = .idle ∧ x.SameQueue y) ∧
    (withinTolerance (p.chan n) (some g) = false → d.motion = .queued ∧
      x.Joined y ⟨.move g, n, ruledClass (p.chan n).governing, p.globals.retryLimit, p.globals.retryLimit, false, none⟩) := by
  rw [p.notice_of_idle n hm, p.testIdle_of_idle n hm hg]
  refine ⟨fun h => ?_, fun h => ?_⟩
  · rw [if_pos h]; exact ⟨hm, .refl _⟩
  · rw [if_neg (by simp [h])]
    refine ⟨by rw [Part.setMotion_chan_self]; rfl, ?_⟩
    rw [Part.setMotion_line, Part.joinOrder, Part.line_modLine_self, ← classOf_eq]
    exact Line.joined_join _ _

theorem Part.notice_taken_queued {g : Nat} (hm : (p.chan n).motion = .queued) (hg : (p.chan n).granted = some g) :
    let c := p.chan n
    let d := (p.notice n).chan n
    let x := p.line (p.lineOf n)
    let y := (p.notice n).line (p.lineOf n)
    (withinTolerance c (some g) = true → d.motion = .idle ∧ d.travel = none ∧ d.shortMark = false ∧ x.Removed y n) ∧
    (withinTolerance c (some g) = false → d.motion = .queued ∧ d.travel = c.travel ∧ d.shortMark = c.shortMark ∧
      ∀ o, x.queued n = some o → x.Retargeted y o g (ruledClass c.governing)) := by
  rw [p.notice_of_queued n hm hg]
  refine ⟨fun h => ?_, fun h => ?_⟩
  · rw [if_pos h]
    rw [Part.setMotion_line, Part.modChan_line, Part.removeOrder_line_self, Part.setMotion_chan_self, Part.chan_modChan_self]
    exact ⟨rfl, rfl, rfl, Line.removed_remove _ _⟩
  · rw [if_neg (by simp [h]), Part.line_modLine_self, ← classOf_eq]
    exact ⟨hm, rfl, rfl, fun o ho => Line.retargeted_retarget ho⟩

theorem Part.notice_taken_underWay {g : Nat} (hm : (p.chan n).motion = .ordering ∨ (p.chan n).motion = .moving)
    (hg : (p.chan n).granted = some g) :
    let c := p.chan n
    let x := p.line (p.lineOf n)
    let y := (p.notice n).line (p.lineOf n)
    (p.notice n).chan n = c ∧
    (currentTarget x c n = some g → x.Removed y n) ∧
    (currentTarget x c n ≠ some g →
      (∀ o, x.queued n = some o → x.Retargeted y o g (ruledClass c.governing)) ∧
      (x.queued n = none →
        x.Joined y ⟨.move g, n, ruledClass c.governing, p.globals.retryLimit, p.globals.retryLimit, false, none⟩)) ∧
    (∀ e o, x.exchange = some e → e.kind = .order o → o.channel = n → o.isHalt = false →
      y.exchange = some { e with kind := .order { o with cls := ruledClass c.governing } }) := by
  dsimp only
  rw [p.notice_of_underWay n hm hg, ← classOf_eq]
  have line : (p.reclass n).line (p.lineOf n) = (p.line (p.lineOf n)).reclassInFlight n (classOf (p.chan n).governing) :=
    p.line_modLine_self _ _
  have same := (p.line (p.lineOf n)).sameQueue_reclassInFlight n (classOf (p.chan n).governing)
  refine ⟨p.supersede_chan n g n, ?_⟩
  rw [p.supersede_eq]
  refine ⟨fun h => ?_, fun h => ⟨fun o ho => ?_, fun hq => ?_⟩, fun e o he hk hc hh => ?_⟩
  · rw [if_pos h]
    have removed : ((p.reclass n).removeOrder n).line (p.lineOf n) = ((p.reclass n).line (p.lineOf n)).remove n :=
      (p.reclass n).removeOrder_line_self n
    rw [removed, line]
    exact (Line.removed_remove _ n).of_same same
  · rw [if_neg h, if_pos (by rw [ho]; rfl), Part.line_modLine_self, line]
    exact (Line.retargeted_retarget (by rw [Line.queued_reclassInFlight]; exact ho)).of_same same
  · rw [if_neg h, if_neg (by rw [hq]; exact Bool.false_ne_true)]
    have joined : ((p.reclass n).joinOrder n g).line (p.lineOf n) =
        ((p.reclass n).line (p.lineOf n)).join (p.newOrder n (.move g) (classOf (p.chan n).governing)) :=
      (p.reclass n).line_modLine_self _ _
    rw [joined, line]
    exact (Line.joined_join _ _).of_same same
  · have reclassed := Line.reclassInFlight_exchange (cls := classOf (p.chan n).governing) he hk hc hh
    rw [← line] at reclassed
    split
    · exact ((congrArg Line.exchange ((p.reclass n).line_modLine_self (p.lineOf n) _)).trans rfl).trans
        reclassed
    · split
      · rw [Part.line_modLine_self, Line.retarget_exchange, reclassed]
      · exact ((congrArg Line.exchange ((p.reclass n).line_modLine_self (p.lineOf n) _)).trans (Line.join_exchange _ _)).trans
          reclassed

/-- R98 to R101: a grant notice does what NoticeTaken says. -/
theorem Part.notice_taken :
    NoticeTaken n p.globals.retryLimit (p.chan n) ((p.notice n).chan n) (p.line (p.lineOf n))
      ((p.notice n).line (p.lineOf n)) := by
  have keeps := p.notice_keepsGrants n
  have waiting (h : p.notice n = p) : ((p.notice n).chan n).motion = (p.chan n).motion ∧
      ((p.notice n).chan n).travel = (p.chan n).travel ∧ (p.line (p.lineOf n)).SameQueue ((p.notice n).line (p.lineOf n)) := by
    rw [h]; exact ⟨rfl, rfl, .refl _⟩
  constructor
  case idle =>
    simp only [keeps.granted n, keeps.governing n]
    exact fun g hg hm => p.notice_taken_idle n hm hg
  case queued =>
    simp only [keeps.granted n, keeps.governing n]
    exact fun g hg hm => p.notice_taken_queued n hm hg
  case underWay =>
    simp only [keeps.granted n, keeps.governing n]
    intro g hg hm
    obtain ⟨same, rest⟩ := p.notice_taken_underWay n hm hg
    exact ⟨congrArg _ same, congrArg _ same, congrArg _ same, rest⟩
  case waits => exact fun hm => waiting (p.notice_of_waiting n hm)
  case ungranted =>
    rw [keeps.granted n]
    exact fun hg => waiting (p.notice_of_ungranted n hg)

end

/-! ## The rest of a channel's record through a notice -/

/-- What a notice reads and keeps of a record: all but the motion state, its timers, travel elapsed and short-travel mark. -/
structure Channel.SameWork (c d : Channel) : Prop where
  cfg : d.cfg = c.cfg
  position : d.position = c.position
  report : d.report = c.report
  fault : d.fault = c.fault
  lastFault : d.lastFault = c.lastFault
  accepted : d.accepted = c.accepted
  miss : d.miss = c.miss

theorem Channel.SameWork.refl (c : Channel) : c.SameWork c := ⟨rfl, rfl, rfl, rfl, rfl, rfl, rfl⟩

theorem Channel.SameWork.trans {c d e : Channel} (h : c.SameWork d) (k : d.SameWork e) : c.SameWork e :=
  ⟨k.cfg.trans h.cfg, k.position.trans h.position, k.report.trans h.report, k.fault.trans h.fault,
    k.lastFault.trans h.lastFault, k.accepted.trans h.accepted, k.miss.trans h.miss⟩

theorem Channel.SameWork.enter (c : Channel) (now : Nat) (m : Motion) : c.SameWork (c.enter now m) :=
  ⟨rfl, rfl, rfl, rfl, rfl, rfl, rfl⟩

section
variable (p : Part) (n : ChannelId)

theorem Part.testIdle_sameWork : (p.chan n).SameWork ((p.testIdle n).chan n) := by
  rw [Part.testIdle_chan_self]
  split
  · exact .enter _ _ _
  · exact .refl _

theorem Part.notice_sameWork : (p.chan n).SameWork ((p.notice n).chan n) := by
  unfold Part.notice
  dsimp only
  split
  · exact p.testIdle_sameWork n
  · split
    · rw [Part.setMotion_chan_self, Part.chan_modChan_self]
      exact ⟨rfl, rfl, rfl, rfl, rfl, rfl, rfl⟩
    · exact .refl _
  · rw [Part.supersede_chan]; exact .refl _
  · rw [Part.supersede_chan]; exact .refl _
  · exact .refl _

theorem Part.recompute_sameWork : (p.chan n).SameWork ((p.recompute n).chan n) := by
  rw [Part.recompute_eq]
  split
  · exact .refl _
  · refine Channel.SameWork.trans ?_ ((p.regrant n).notice_sameWork n)
    rw [Part.regrant_chan_self]
    exact ⟨rfl, rfl, rfl, rfl, rfl, rfl, rfl⟩

/-- NoticeTaken reads no captured word and no grant of the record before. -/
theorem NoticeTaken.of_grant {limit : Nat} {c c' d : Channel} {x y : Line} (h : NoticeTaken n limit c' d x y)
    (hm : c'.motion = c.motion) (hp : c'.position = c.position) (hc : c'.cfg = c.cfg) (ht : c'.travel = c.travel)
    (hs : c'.shortMark = c.shortMark) (ha : c'.accepted = c.accepted) : NoticeTaken n limit c d x y := by
  have within (g : Option Nat) : withinTolerance c' g = withinTolerance c g := by simp only [withinTolerance, hp, hc]
  have target : currentTarget x c' n = currentTarget x c n := by simp only [currentTarget, ha]
  constructor
  case idle => simpa only [within, hm] using h.idle
  case queued => simpa only [within, hm, ht, hs] using h.queued
  case underWay => simpa only [target, hm, ht, hs] using h.underWay
  case waits => simpa only [hm, ht] using h.waits
  case ungranted => simpa only [hm, ht] using h.ungranted

/-- R33, R98 to R101: a recomputation with a new result. -/
theorem Part.recompute_taken (h : ((p.chan n).governing, (p.chan n).granted) ≠ p.governs n) :
    NoticeTaken n p.globals.retryLimit (p.chan n) ((p.recompute n).chan n) (p.line (p.lineOf n))
      ((p.recompute n).line (p.lineOf n)) := by
  rw [Part.recompute_eq, if_neg h]
  have taken := (p.regrant n).notice_taken n
  rw [((Part.QueueWork.refl p).regrant (n := n)).lineOf, Part.regrant_chan_self] at taken
  exact taken.of_grant n rfl rfl rfl rfl rfl rfl

end

/-! ## The governing order (R26 to R29, R32) -/

section
variable (w : Weather) (z : Zone) (c : Channel)

theorem governs_unused (h : c.cfg.cls = .unused) : governs w z c = (.none, none) := by simp [governs, h]

/-- R27: an override governs a VENT or DUAL channel. -/
theorem governs_overridden {o : KeyOverride} (ho : z.override = some o) (hc : c.cfg.cls = .vent ∨ c.cfg.cls = .dual) :
    governs w z c = (.manual, some (manualTarget o.value)) := by
  rcases hc with hc | hc <;> simp [governs, reachingOverride, ho, hc]

theorem reachingOverride_eq_none (h : ¬ (z.override ≠ none ∧ (c.cfg.cls = .vent ∨ c.cfg.cls = .dual))) :
    reachingOverride z c = none := by
  unfold reachingOverride
  cases hc : c.cfg.cls <;> simp_all

theorem governs_smoke (hu : c.cfg.cls ≠ .unused) (ho : reachingOverride z c = none) (hl : z.latch = true) :
    governs w z c = (.smoke, some (smokeTarget w c)) := by simp [governs, hu, ho, hl]

theorem governs_weather (hu : c.cfg.cls ≠ .unused) (ho : reachingOverride z c = none) (hl : z.latch = false)
    (hw : weatherApplies w c.cfg = true) : governs w z c = (.weather, some 0) := by simp [governs, hu, ho, hl, hw]

theorem governs_comfort (hu : c.cfg.cls ≠ .unused) (ho : reachingOverride z c = none) (hl : z.latch = false)
    (hw : weatherApplies w c.cfg = false) : governs w z c = (.comfort, some (comfortTarget c)) := by
  simp [governs, hu, ho, hl, hw]

theorem windward_iff : windward w c.cfg = true ↔
    w.smokeWind = true ∧ ∃ k, w.settled = some k ∧ c.cfg.facing.getLsbD k.val = true := by
  unfold windward
  cases w.settled <;> simp

theorem weatherApplies_iff : weatherApplies w c.cfg = true ↔
    (w.rain = true ∧ c.cfg.rainClose = true) ∨ (w.storm = true ∧ c.cfg.stormClose = true) := by
  simp [weatherApplies]

theorem comfortTarget_of_ne_vent (h : c.cfg.cls ≠ .vent) : comfortTarget c = min c.requested.toNat c.cfg.comfortLimit := by
  unfold comfortTarget
  cases hc : c.cfg.cls with
  | vent => exact absurd hc h
  | _ => rfl

/-- R26 to R29, R32: the governing order, entry by entry. -/
theorem governs_order :
    let overridden : Prop := z.override ≠ none ∧ (c.cfg.cls = .vent ∨ c.cfg.cls = .dual)
    let weather : Prop := (w.rain = true ∧ c.cfg.rainClose = true) ∨ (w.storm = true ∧ c.cfg.stormClose = true)
    let windward : Prop := w.smokeWind = true ∧ ∃ k, w.settled = some k ∧ c.cfg.facing.getLsbD k.val = true
    (c.cfg.cls = .unused → governs w z c = (.none, none)) ∧
    (c.cfg.cls ≠ .unused →
      (overridden → ∀ o, z.override = some o →
        (o.value = .opens → governs w z c = (.manual, some 1000)) ∧ (o.value = .closes → governs w z c = (.manual, some 0))) ∧
      (¬ overridden → z.latch = true →
        (c.cfg.smokeAction = .opens → windward → governs w z c = (.smoke, some 0)) ∧
        (c.cfg.smokeAction = .opens → ¬ windward → governs w z c = (.smoke, some 1000)) ∧
        (c.cfg.smokeAction = .closes → governs w z c = (.smoke, some 0)) ∧
        (∀ f, c.cfg.smokeAction = .holds → c.freeze = some f → governs w z c = (.smoke, some f))) ∧
      (¬ overridden → z.latch = false → weather → governs w z c = (.weather, some 0)) ∧
      (¬ overridden → z.latch = false → ¬ weather →
        (c.cfg.cls = .vent → governs w z c = (.comfort, some 0)) ∧
        (c.cfg.cls ≠ .vent → governs w z c = (.comfort, some (min c.requested.toNat c.cfg.comfortLimit))))) := by
  dsimp only
  rw [← windward_iff, ← weatherApplies_iff]
  refine ⟨governs_unused w z c, fun hu => ⟨fun h o ho => ?_, fun h hl => ?_, fun h hl hw => ?_, fun h hl hw => ?_⟩⟩
  · rw [governs_overridden w z c ho h.2]
    exact ⟨fun v => by rw [v]; rfl, fun v => by rw [v]; rfl⟩
  · rw [governs_smoke w z c hu (reachingOverride_eq_none z c h) hl]
    refine ⟨fun ha hw => ?_, fun ha hw => ?_, fun ha => ?_, fun f ha hf => ?_⟩
    · simp [smokeTarget, ha, hw]
    · simp [smokeTarget, ha, hw, fullOpen]
    · simp [smokeTarget, ha]
    · simp [smokeTarget, ha, hf]
  · exact governs_weather w z c hu (reachingOverride_eq_none z c h) hl hw
  · rw [governs_comfort w z c hu (reachingOverride_eq_none z c h) hl (Bool.not_eq_true _ ▸ hw)]
    exact ⟨fun hc => by simp [comfortTarget, hc], fun hc => by rw [comfortTarget_of_ne_vent c hc]⟩

end

end Sys2Proof.Machine
end

section
/-! SUPPORT. The write of a requested target (R6, R34, R155, R156). -/

namespace Sys2Proof.Machine

/-- A record that is dirty after an event stands on the list (R161). -/
theorem State.mem_list_of_dirty (s : State) (act : Part → Part) {r : RecordId} (h : (s.event act).part.dirtyOf r ≠ 0) :
    r ∈ (s.event act).bus.list := by
  show r ∈ s.bus.list ++ newEntries (act s.part).completeQuieting s.bus.list
  rw [State.event_part] at h
  by_cases hr : r ∈ s.bus.list
  · exact List.mem_append_left _ hr
  · exact List.mem_append_right _ (List.mem_filter.2 ⟨mem_allRecords r, by rw [decide_eq_true h, decide_eq_true hr]; rfl⟩)

/-- The words of a bank that an event's act marked stay marked to its end. -/
theorem State.forwarded_dirtyOf_bank (s : State) (addr : Addr) (v : Word) (act : Part → Part) (b : BankId) :
    (s.forwarded addr v act).part.dirtyOf (.bank b) = (act s.grant.part).dirtyOf (.bank b) := by
  rw [State.forwarded_part, Part.completeQuieting_dirtyOf _ _ fun _ e => RecordId.noConfusion e]

theorem State.forwarded_line_fields (s : State) (addr : Addr) (v : Word) (act : Part → Part) (l : LineId) :
    ((s.forwarded addr v act).part.line l).urgent = ((act s.grant.part).line l).urgent ∧
      ((s.forwarded addr v act).part.line l).routine = ((act s.grant.part).line l).routine ∧
      ((s.forwarded addr v act).part.line l).exchange = ((act s.grant.part).line l).exchange := by
  obtain ⟨hu, hr, he, -⟩ := Part.completeQuieting_line_fields (act s.grant.part) l
  rw [State.forwarded_part]
  exact ⟨hu, hr, he⟩

/-- NoticeTaken reads the queue and the exchange of the line after. -/
theorem NoticeTaken.of_line {n : ChannelId} {limit : Nat} {c d : Channel} {x y z : Line} (h : NoticeTaken n limit c d x y)
    (hu : z.urgent = y.urgent) (hr : z.routine = y.routine) (he : z.exchange = y.exchange) :
    NoticeTaken n limit c d x z := by
  have same (k : x.SameQueue y) : x.SameQueue z := ⟨hu.trans k.urgent, hr.trans k.routine⟩
  have removed (k : x.Removed y n) : x.Removed z n := ⟨hu.trans k.urgent, hr.trans k.routine⟩
  have joined {o : Order} (k : x.Joined y o) : x.Joined z o := ⟨hu.trans k.urgent, hr.trans k.routine⟩
  have retargeted {o : Order} {g : Nat} {cls : OrderClass} (k : x.Retargeted y o g cls) : x.Retargeted z o g cls :=
    ⟨fun hh => same (k.halt hh), fun hh hc => hu ▸ hr ▸ k.inPlace hh hc, fun hh hc => hu ▸ hr ▸ k.moved hh hc⟩
  constructor
  case idle =>
    intro g hg hm
    obtain ⟨within, out⟩ := h.idle g hg hm
    exact ⟨fun hw => (within hw).imp_right same, fun hw => (out hw).imp_right joined⟩
  case queued =>
    intro g hg hm
    obtain ⟨within, out⟩ := h.queued g hg hm
    refine ⟨fun hw => ?_, fun hw => ?_⟩
    · obtain ⟨k1, k2, k3, k4⟩ := within hw
      exact ⟨k1, k2, k3, removed k4⟩
    · obtain ⟨k1, k2, k3, k4⟩ := out hw
      exact ⟨k1, k2, k3, fun o ho => retargeted (k4 o ho)⟩
  case underWay =>
    intro g hg hm
    obtain ⟨k1, k2, k3, current, other, class_⟩ := h.underWay g hg hm
    refine ⟨k1, k2, k3, fun hc => removed (current hc), fun hc => ?_, fun e o h1 h2 h3 h4 => he.trans (class_ e o h1 h2 h3 h4)⟩
    obtain ⟨waiting, fresh⟩ := other hc
    exact ⟨fun o ho => retargeted (waiting o ho), fun hq => joined (fresh hq)⟩
  case waits =>
    intro hm
    obtain ⟨k1, k2, k3⟩ := h.waits hm
    exact ⟨k1, k2, same k3⟩
  case ungranted =>
    intro hm
    obtain ⟨k1, k2, k3⟩ := h.ungranted hm
    exact ⟨k1, k2, same k3⟩

/-! ## The capture -/

/-- R156: a target above 1,000 is noted in GATE. -/
def Part.noteClamp (p : Part) (n : ChannelId) (w : Word) : Part :=
  if fullOpen < w.toNat then p.recordAtGate .targetClamped (.channel n) else p

/-- The part with the target noted and captured, before its channel's recomputation. -/
def Part.captured (p : Part) (n : ChannelId) (w : Word) : Part :=
  (p.noteClamp n w).modChan n (fun c => { c with requested := clampTarget w })

theorem Part.captureTarget_eq (p : Part) (n : ChannelId) (w : Word) : p.captureTarget n w = (p.captured n w).recompute n := rfl

section
variable (p : Part) (n : ChannelId) (w : Word)

@[simp] theorem Part.noteClamp_chan (m : ChannelId) : (p.noteClamp n w).chan m = p.chan m := by
  unfold Part.noteClamp; split <;> rfl
@[simp] theorem Part.captured_line (l : LineId) : (p.captured n w).line l = p.line l := by
  unfold Part.captured Part.noteClamp; split <;> rfl
@[simp] theorem Part.captured_zone (z : ZoneId) : (p.captured n w).zone z = p.zone z := by
  unfold Part.captured Part.noteClamp; split <;> rfl
@[simp] theorem Part.captured_zones : (p.captured n w).zones = p.zones := by
  unfold Part.captured Part.noteClamp; split <;> rfl
@[simp] theorem Part.captured_ga : (p.captured n w).ga = p.ga := by unfold Part.captured Part.noteClamp; split <;> rfl
@[simp] theorem Part.captured_weather : (p.captured n w).weather = p.weather := by
  unfold Part.captured Part.noteClamp; split <;> rfl
@[simp] theorem Part.captured_globals : (p.captured n w).globals = p.globals := by
  unfold Part.captured Part.noteClamp; split <;> rfl
@[simp] theorem Part.captured_cmd : (p.captured n w).cmd = p.cmd := by unfold Part.captured Part.noteClamp; split <;> rfl
@[simp] theorem Part.captured_notices : (p.captured n w).notices = p.notices := by
  unfold Part.captured Part.noteClamp; split <;> rfl
@[simp] theorem Part.captured_noticeAcks : (p.captured n w).noticeAcks = p.noticeAcks := by
  unfold Part.captured Part.noteClamp; split <;> rfl

theorem Part.captured_chan_self : (p.captured n w).chan n = { p.chan n with requested := clampTarget w } := by
  rw [Part.captured, Part.chan_modChan_self, Part.noteClamp_chan]

theorem Part.captured_chan_of_ne {m : ChannelId} (h : m ≠ n) : (p.captured n w).chan m = p.chan m := by
  rw [Part.captured, Part.chan_modChan, if_neg h, Part.noteClamp_chan]

theorem Part.captured_lineOf : (p.captured n w).lineOf n = p.lineOf n := by rw [Part.lineOf, Part.captured_chan_self]; rfl

theorem Part.captured_bank_gate : (p.captured n w).bank .gate =
    if fullOpen < w.toNat then ((p.bank .gate).take ⟨.notice, .targetClamped, some (.channel n), none⟩).count
    else p.bank .gate := by
  show (p.noteClamp n w).bank .gate = _
  unfold Part.noteClamp
  split
  · rw [Part.recordAtGate_bank, Part.bank_record_self]; rfl
  · rfl

theorem Part.captured_bank_of_ne {b : BankId} (h : b ≠ .gate) : (p.captured n w).bank b = p.bank b := by
  show (p.noteClamp n w).bank b = _
  unfold Part.noteClamp
  split
  · rw [Part.recordAtGate_bank, Part.bank_record, if_neg h]
  · rfl

/-- R34: the clamp's notice marks every word of the GATE record (log 44). -/
theorem Part.captured_dirtyOf_gate (h : fullOpen < w.toNat) :
    (p.captured n w).dirtyOf (.bank .gate) &&& ownedMask (.bank .gate) = ownedMask (.bank .gate) := by
  have modified : (p.captured n w).dirtyOf (.bank .gate) = (p.noteClamp n w).dirtyOf (.bank .gate) := by
    unfold Part.captured Part.modChan Part.setChan
    rw [Part.dirtyOf_mark, if_neg RecordId.noConfusion]
    rfl
  rw [modified, Part.noteClamp, if_pos h, Part.recordAtGate_dirtyOf, BitVec.and_comm]
  generalize Part.dirtyOf _ _ = dirty
  revert dirty
  decide +kernel

theorem Part.captured_governs :
    (p.captured n w).governs n =
      Machine.governs p.weather (p.zone (p.chan n).cfg.zone) { p.chan n with requested := clampTarget w } := by
  rw [Part.governs, Part.captured_chan_self, Part.captured_weather, Part.captured_zone]

/-- What the capture leaves of its channel but its work. -/
theorem Part.captureTarget_chan_self :
    let d := (p.captureTarget n w).chan n
    { p.chan n with requested := clampTarget w }.SameWork d ∧ d.requested = clampTarget w ∧
      d.notifyWord = (p.chan n).notifyWord ∧ d.freeze = (p.chan n).freeze ∧
      (d.governing, d.granted) = (p.captured n w).governs n := by
  rw [Part.captureTarget_eq]
  have work := (p.captured n w).recompute_sameWork n
  have keeps := (p.captured n w).recompute_onlyGrants n
  have kept := p.captured_chan_self n w
  refine ⟨kept ▸ work, ?_, ?_, ?_, Part.recompute_self _ n⟩
  · rw [keeps.requested, kept]
  · rw [keeps.notifyWord, kept]
  · rw [keeps.freeze, kept]

theorem Part.captureTarget_queueWork : (p.captured n w).QueueWork n (p.captureTarget n w) := by
  rw [Part.captureTarget_eq]; exact (Part.QueueWork.refl _).recompute

theorem Part.captureTarget_chan_of_ne {m : ChannelId} (h : m ≠ n) : (p.captureTarget n w).chan m = p.chan m := by
  rw [Part.captureTarget_eq, Part.recompute_onlyChan _ n m h, Part.captured_chan_of_ne p n w h]

theorem Part.captureTarget_line_of_ne {l : LineId} (h : l ≠ p.lineOf n) : (p.captureTarget n w).line l = p.line l := by
  rw [(p.captureTarget_queueWork n w).other l (by rwa [Part.captured_lineOf]), Part.captured_line]

theorem Part.captureTarget_queueOnly : (p.line (p.lineOf n)).QueueOnly ((p.captureTarget n w).line (p.lineOf n)) := by
  have own := (p.captureTarget_queueWork n w).own
  rwa [Part.captured_lineOf, Part.captured_line] at own

/-- R33, R98 to R101: the motion state takes a new result. -/
theorem Part.captureTarget_taken
    (h : ((p.chan n).governing, (p.chan n).granted) ≠
      Machine.governs p.weather (p.zone (p.chan n).cfg.zone) { p.chan n with requested := clampTarget w }) :
    NoticeTaken n p.globals.retryLimit (p.chan n) ((p.captureTarget n w).chan n) (p.line (p.lineOf n))
      ((p.captureTarget n w).line (p.lineOf n)) := by
  have taken := (p.captured n w).recompute_taken n (by rw [Part.captured_chan_self, Part.captured_governs]; exact h)
  rw [Part.captured_lineOf, Part.captured_chan_self, Part.captured_line, Part.captured_globals] at taken
  exact taken.of_grant n rfl rfl rfl rfl rfl rfl

/-- R33: the result that stood. -/
theorem Part.captureTarget_of_settled
    (h : ((p.chan n).governing, (p.chan n).granted) =
      Machine.governs p.weather (p.zone (p.chan n).cfg.zone) { p.chan n with requested := clampTarget w }) :
    p.captureTarget n w = p.captured n w := by
  rw [Part.captureTarget_eq, Part.recompute_eq, if_pos (by rw [Part.captured_chan_self, Part.captured_governs]; exact h)]

end

section
variable {s : State} {be : ByteEnables} (hr : s.bus.rstn = false) (hb : be.some = true) (data : Word) (n : ChannelId)
include hr hb

theorem exec_requestedTargetWrite :
    exec (.requestedTargetWrite n be data) s = .next
      (s.forwarded (s.bus.addressOf (8 * n.val)) (clampTarget (merge be data (s.part.chan n).requested))
        (fun p => p.captureTarget n (merge be data (s.part.chan n).requested))) := by
  show Host.Outcome.next (s.writeTarget n be data) = _
  rw [State.writeTarget, State.hostWritten_eq_forwarded hr hb]
  rfl

end

theorem State.grant_lineOf (s : State) (n : ChannelId) : s.grant.part.lineOf n = s.part.lineOf n := by
  rw [Part.lineOf, State.grant_chan]; rfl

/-- A forwarded write whose capture is a requested target's: the channel's line afterwards. -/
theorem State.forwarded_captureTarget_line (s : State) (addr : Addr) (v w : Word) (n : ChannelId) (l : LineId)
    (hl : (s.part.line l).state ≠ .quieting) :
    (s.forwarded addr v (fun p => p.captureTarget n w)).part.line l = (s.grant.part.captureTarget n w).line l := by
  refine State.forwarded_line _ _ _ _ _ ?_
  rw [(s.grant.part.captureTarget_queueWork n w).state, Part.captured_line, State.grant_line]
  exact hl

/-- Settles O10: the governing order by its entries; the write as a forwarded one whose capture notes a clamp, takes the target
and recomputes its channel. -/
theorem requestedTargetWriteCapturesAndRecomputes : Obligations.RequestedTargetWriteCapturesAndRecomputes := by
  refine ⟨governs_order, fun s n be data hr hb => ?_⟩
  dsimp only
  refine ⟨_, exec_requestedTargetWrite hr hb data n, ?_⟩
  generalize merge be data (s.part.chan n).requested = w
  generalize s.bus.addressOf (8 * n.val) = addr
  have clamp : (if 1000 < w.toNat then 1000 else w) = clampTarget w := rfl
  rw [clamp]
  obtain ⟨work, requested, notifyWord, freeze, result⟩ := s.grant.part.captureTarget_chan_self n w
  have queue := s.grant.part.captureTarget_queueWork n w
  have grants : (s.grant.part.captured n w).OnlyGrants (s.grant.part.captureTarget n w) := Part.recompute_onlyGrants _ n
  obtain ⟨hu, hro, he⟩ := s.forwarded_line_fields addr (clampTarget w) (fun p => p.captureTarget n w) (s.part.lineOf n)
  simp only [State.grant_chan, Part.captured_governs, State.grant_weather, State.grant_zone] at *
  simp only [State.forwarded_chan, State.forwarded_bank, State.forwarded_weather, State.forwarded_globals,
    State.forwarded_cmd]
  refine ⟨requested, State.forwarded_wordAt .., result, ?gate, fun h => ⟨?listed, ?marked⟩, ⟨fun h => ?same, fun h => ?taken,
    fun h => ?own⟩, work.cfg, notifyWord, work.position, work.report, work.fault, work.lastFault, work.accepted, freeze,
    work.miss, fun m hm => ?chans, fun l hl hq => ?lines, ⟨?zones, ?ga⟩, ?weather, ?globals, ?cmd, fun b hb => ?banks,
    ⟨?notices, ?noticeAcks⟩, State.forwarded_writesOnly ..⟩
  case gate => rw [queue.bank, Part.captured_bank_gate]; rfl
  case marked =>
    rw [State.forwarded_dirtyOf_bank, queue.dirty]
    exact Part.captured_dirtyOf_gate _ n w h
  case listed =>
    refine State.mem_list_of_dirty _ _ fun none => ?_
    have marked : (s.forwarded addr (clampTarget w) (fun p => p.captureTarget n w)).part.dirtyOf (.bank .gate) &&&
        ownedMask (.bank .gate) = ownedMask (.bank .gate) := by
      rw [State.forwarded_dirtyOf_bank, queue.dirty]
      exact Part.captured_dirtyOf_gate _ n w h
    rw [State.forwarded, none] at marked
    exact absurd marked (by decide)
  case same =>
    have settled := Part.captureTarget_of_settled s.grant.part n w (by
      simpa only [State.grant_chan, State.grant_weather, State.grant_zone] using h)
    refine ⟨by rw [settled, Part.captured_chan_self, State.grant_chan], ?_, ?_⟩
    · exact hu.trans (by rw [settled, Part.captured_line, State.grant_line]; rfl)
    · exact hro.trans (by rw [settled, Part.captured_line, State.grant_line]; rfl)
  case taken =>
    have taken := Part.captureTarget_taken s.grant.part n w (by
      simpa only [State.grant_chan, State.grant_weather, State.grant_zone] using h)
    rw [State.grant_lineOf, State.grant_line, State.grant_chan, State.grant_globals] at taken
    exact taken.of_line hu hro he
  case own =>
    rw [State.forwarded_captureTarget_line _ _ _ _ _ _ h]
    have own := s.grant.part.captureTarget_queueOnly n w
    rw [State.grant_lineOf, State.grant_line] at own
    exact own
  case chans => rw [Part.captureTarget_chan_of_ne _ n w hm, State.grant_chan]
  case lines =>
    rw [State.forwarded_captureTarget_line _ _ _ _ _ _ hq,
      Part.captureTarget_line_of_ne _ n w (by rw [State.grant_lineOf]; exact hl), State.grant_line]
  case zones => rw [State.forwarded_zones, grants.zones, Part.captured_zones, State.grant_zones]
  case ga => rw [State.forwarded_ga, grants.ga, Part.captured_ga, State.grant_ga]
  case weather => rw [grants.weather, Part.captured_weather, State.grant_weather]
  case globals => rw [grants.globals, Part.captured_globals, State.grant_globals]
  case cmd => rw [grants.cmd, Part.captured_cmd, State.grant_cmd]
  case banks => rw [State.forwarded_bank, queue.bank, Part.captured_bank_of_ne _ n w hb]
  case notices => rw [State.forwarded_notices, queue.notices, Part.captured_notices, State.grant_notices]
  case noticeAcks => rw [State.forwarded_noticeAcks, queue.noticeAcks, Part.captured_noticeAcks, State.grant_noticeAcks]

end Sys2Proof.Machine
end

section
/-! SUPPORT. Acts taken for each channel of a list (R40), and a line that leaves or takes up its service (R20, R132, R135 to
R137). -/

namespace Sys2Proof.Machine

/-! ## One act for each channel of a list -/

section
variable {act : ChannelId → Part → Part} {inv : Part → Prop} {p : Part} {ns : List ChannelId}

/-- What every act keeps stands after all of them. -/
theorem Part.forEach_inv (h : ∀ n q, n ∈ ns → inv q → inv (act n q)) (hp : inv p) : inv (p.forEach ns act) := by
  induction ns generalizing p with
  | nil => exact hp
  | cons n ns ih => exact ih (fun m q hm => h m q (.tail n hm)) (h n p (.head ns) hp)

/-- Acts that reach their own channel alone: each channel of the list is as its act leaves it. -/
theorem Part.forEach_chan {f : ChannelId → Channel → Channel} (nd : ns.Nodup)
    (keep : ∀ n q, n ∈ ns → inv q → inv (act n q)) (self : ∀ n q, n ∈ ns → inv q → (act n q).chan n = f n (q.chan n))
    (only : ∀ (n : ChannelId) (q : Part), q.OnlyChan n (act n q)) (hp : inv p) (m : ChannelId) :
    (p.forEach ns act).chan m = if m ∈ ns then f m (p.chan m) else p.chan m := by
  induction ns generalizing p with
  | nil => rfl
  | cons n ns ih =>
    obtain ⟨fresh, nd⟩ := List.nodup_cons.1 nd
    have rest := ih nd (fun m q hm => keep m q (.tail n hm)) (fun m q hm => self m q (.tail n hm)) (keep n p (.head ns) hp)
    refine rest.trans ?_
    by_cases e : m = n
    · subst e
      rw [if_neg fresh, if_pos (.head ns), self m p (.head ns) hp]
    · rw [only n p m e]
      simp only [List.mem_cons, e, false_or]

/-- Acts that reach their own channel alone, and record errors that depend on that channel: the bank takes them in order. -/
theorem Part.forEach_bank {b : BankId} {es : ChannelId → Channel → List ErrorRecord} (nd : ns.Nodup)
    (keep : ∀ n q, n ∈ ns → inv q → inv (act n q))
    (bank : ∀ n q, n ∈ ns → inv q → (act n q).bank b = (q.bank b).takeAll (es n (q.chan n)))
    (only : ∀ (n : ChannelId) (q : Part), q.OnlyChan n (act n q)) (hp : inv p) :
    (p.forEach ns act).bank b = (p.bank b).takeAll (ns.flatMap fun n => es n (p.chan n)) := by
  induction ns generalizing p with
  | nil => rfl
  | cons n ns ih =>
    obtain ⟨fresh, nd⟩ := List.nodup_cons.1 nd
    have rest := ih nd (fun m q hm => keep m q (.tail n hm)) (fun m q hm => bank m q (.tail n hm)) (keep n p (.head ns) hp)
    have same : (ns.flatMap fun m => es m ((act n p).chan m)) = ns.flatMap fun m => es m (p.chan m) :=
      List.flatMap_congr fun m hm => by rw [only n p m fun e => fresh (e ▸ hm)]
    refine rest.trans ?_
    rw [same, bank n p (.head ns) hp, List.flatMap_cons, Bank.takeAll, Bank.takeAll, Bank.takeAll, List.foldl_append]

end

/-- The errors of the channels that meet a condition, drawn from a filtered list. -/
theorem flatMap_filter_ite {α β : Type} (l : List α) (b w : α → Bool) (e : α → β) :
    ((l.filter b).flatMap fun n => if w n then [e n] else []) = (l.filter fun n => b n && w n).map e := by
  induction l with
  | nil => rfl
  | cons n l ih => cases hb : b n <;> cases hw : w n <;> simp [hb, hw, ih]

theorem allChannels_nodup : allChannels.Nodup := List.nodup_finRange 48
theorem mem_allChannels (n : ChannelId) : n ∈ allChannels := List.mem_finRange n

theorem Part.boundChannels_nodup (p : Part) (l : LineId) : (p.boundChannels l).Nodup := allChannels_nodup.filter _

theorem Part.mem_boundChannels {p : Part} {l : LineId} {n : ChannelId} :
    n ∈ p.boundChannels l ↔ (p.chan n).boundTo l = true := by
  rw [Part.boundChannels, List.mem_filter, and_iff_right (mem_allChannels n)]

/-! ## A channel whose line leaves service (R20) -/

/-- The record of a channel that loses its work and its position, in OFFLINE. -/
def Channel.wentOffline (c : Channel) (now : Nat) : Channel :=
  ({ c with accepted := none, travel := none, shortMark := false, position := none, report := none } : Channel).enter now .offline

/-- R20: the record of a channel whose line leaves service. -/
def Channel.leftService (c : Channel) (now : Nat) : Channel :=
  if working c.motion then ({ c with miss := 0 } : Channel).wentOffline now else c

/-- CHANNEL_OFFLINE of a channel (R116). -/
def offlineRecord (n : ChannelId) (c : Channel) : ErrorRecord := ⟨ruledSeverity c, .channelOffline, some (.channel n), none⟩

section
variable (p : Part) (n : ChannelId)

theorem Part.dropWork_chan_self :
    (p.dropWork n).chan n = { p.chan n with accepted := none, travel := none, shortMark := false } := by
  rw [Part.dropWork, Part.chan_modChan_self, Part.removeOrder_chan]

theorem Part.goOffline_chan_self : (p.goOffline n).chan n = (p.chan n).wentOffline p.now := by
  show ((((p.dropWork n).forgetPosition n).setMotion n .offline)).chan n = _
  rw [Part.setMotion_chan_self, Part.forgetPosition, Part.chan_modChan_self, Part.dropWork_chan_self]
  rfl

/-- CHANNEL_OFFLINE is recorded, and nothing else. -/
theorem Part.goOffline_bank (b : BankId) :
    (p.goOffline n).bank b =
      if b = .channel then ((p.bank .channel).take (offlineRecord n (p.chan n))).count else p.bank b := by
  have severity : channelSeverity ((((p.dropWork n).forgetPosition n).setMotion n .offline).chan n) = ruledSeverity (p.chan n) := by
    rw [Part.setMotion_chan_self, Part.forgetPosition, Part.chan_modChan_self, Part.dropWork_chan_self]
    rfl
  show ((((p.dropWork n).forgetPosition n).setMotion n .offline).recordOffline n).bank b = _
  rw [Part.recordOffline, Part.bank_record, severity]
  rfl

/-- A record of an error reaches the banks alone. -/
theorem Part.goOffline_queueWork : p.QueueWork n (((p.dropWork n).forgetPosition n).setMotion n .offline) :=
  ((Part.QueueWork.refl p).dropWork.forgetPosition).setMotion _

theorem Part.goOffline_line (l : LineId) : (p.goOffline n).line l = (p.removeOrder n).line l := rfl
@[simp] theorem Part.goOffline_now : (p.goOffline n).now = p.now := rfl

/-- Only the records of the channel bank are written. -/
theorem Part.outOfService_eq :
    p.outOfService n = if working (p.chan n).motion then (p.clearMiss n).goOffline n else p := by
  unfold Part.outOfService
  cases (p.chan n).motion <;> rfl

theorem Part.outOfService_chan_self : (p.outOfService n).chan n = (p.chan n).leftService p.now := by
  rw [Part.outOfService_eq, Channel.leftService]
  split
  · rw [Part.goOffline_chan_self, Part.clearMiss, Part.chan_modChan_self]; rfl
  · rfl

theorem Part.outOfService_bank (b : BankId) :
    (p.outOfService n).bank b =
      if b = .channel then (p.bank .channel).takeAll (if working (p.chan n).motion then [offlineRecord n (p.chan n)] else [])
      else p.bank b := by
  rw [Part.outOfService_eq]
  split
  · have cleared : (p.clearMiss n).chan n = { p.chan n with miss := 0 } := p.chan_modChan_self n _
    rw [Part.goOffline_bank, cleared]
    rfl
  · split
    next e => rw [e]; rfl
    next => rfl

theorem Part.outOfService_onlyChan : p.OnlyChan n (p.outOfService n) := by
  rw [Part.outOfService_eq]
  split
  · exact (Part.OnlyChan.refl p).clearMiss.goOffline
  · exact .refl p

@[simp] theorem Part.outOfService_now : (p.outOfService n).now = p.now := by
  rw [Part.outOfService_eq]; split <;> rfl

/-- A line with no queue and no retake is untouched. -/
theorem Line.remove_of_empty {x : Line} (hu : x.urgent = []) (hr : x.routine = []) (ht : x.retake = none) (n : ChannelId) :
    x.remove n = x := by
  obtain ⟨_, urgent, routine, _, _, _, retake⟩ := x
  dsimp only at hu hr ht
  subst hu hr ht
  rfl

theorem Part.outOfService_line (hu : (p.line (p.lineOf n)).urgent = []) (hr : (p.line (p.lineOf n)).routine = [])
    (ht : (p.line (p.lineOf n)).retake = none) (l : LineId) : (p.outOfService n).line l = p.line l := by
  rw [Part.outOfService_eq]
  split
  · have lineOf : (p.clearMiss n).lineOf n = p.lineOf n := by
      rw [Part.lineOf, Part.clearMiss, Part.chan_modChan_self]; rfl
    rw [Part.goOffline_line, Part.removeOrder, lineOf, Part.line_modLine]
    split
    next e => rw [e]; exact Line.remove_of_empty hu hr ht n
    next => rfl
  · rfl

end

/-! ## A line that leaves service (R135, R136) -/

/-- R125: the exchange in flight is abandoned. -/
def Line.abandoned (x : Line) (now : Nat) : Line :=
  match x.exchange with
  | some e => x.endExchange ((match e.sentAt with | some t => t | none => now) + replyTime)
  | none => x

/-- The line without exchange, retake, answer, frame being received and queue. -/
def Line.cleared (x : Line) (now : Nat) : Line :=
  { x.abandoned now with retake := none, answer := none, receiving := false, urgent := [], routine := [] }

/-- R149: a test in progress is aborted. -/
def Line.aborted (x : Line) : Line :=
  if x.state = .test then { x with test := { x.test with result := some .aborted } } else x

/-- The error of a test aborted (R149). -/
def abortRecord (l : LineId) : ErrorRecord := ⟨.notice, .testAborted, some (.line l), none⟩

section
variable (x : Line) (now : Nat)

/-- The wait and the window apart, an abandonment ends the exchange alone. -/
theorem Line.abandoned_eq :
    x.abandoned now = { x with exchange := none, freeAt := (x.abandoned now).freeAt, window := (x.abandoned now).window } := by
  unfold Line.abandoned
  split
  · rfl
  next h => rw [← h]

theorem Line.cleared_eq :
    x.cleared now = { x with
      urgent := [], routine := [], exchange := none, retake := none, answer := none, receiving := false,
      freeAt := (x.cleared now).freeAt, window := (x.cleared now).window } := by
  unfold Line.cleared
  rw [Line.abandoned_eq]

theorem Line.cleared_state : (x.cleared now).state = x.state := by rw [Line.cleared_eq]

end

section
variable (p : Part) (l : LineId)

theorem Part.abandon_line (k : LineId) :
    (p.abandon l).line k = if k = l then (p.line l).abandoned p.now else p.line k := by
  unfold Part.abandon Line.abandoned
  cases h : (p.line l).exchange with
  | some e =>
    obtain ⟨kind, node, sentAt⟩ := e
    cases sentAt <;> simp [Part.line_modLine]
  | none =>
    by_cases e : k = l
    · simp [e]
    · simp [e]

/-- The line is emptied, before its channels are treated. -/
def Part.emptyLine (p : Part) (l : LineId) : Part :=
  (p.abandon l).modLine l (fun x => { x with retake := none, answer := none, receiving := false, urgent := [], routine := [] })

@[simp] theorem Part.abandon_chan (n : ChannelId) : (p.abandon l).chan n = p.chan n := by unfold Part.abandon; split <;> rfl
@[simp] theorem Part.abandon_now : (p.abandon l).now = p.now := by unfold Part.abandon; split <;> rfl
@[simp] theorem Part.abandon_bank (b : BankId) : (p.abandon l).bank b = p.bank b := by unfold Part.abandon; split <;> rfl
@[simp] theorem Part.emptyLine_chan (n : ChannelId) : (p.emptyLine l).chan n = p.chan n := p.abandon_chan l n
@[simp] theorem Part.emptyLine_now : (p.emptyLine l).now = p.now := p.abandon_now l
@[simp] theorem Part.emptyLine_bank (b : BankId) : (p.emptyLine l).bank b = p.bank b := p.abandon_bank l b
@[simp] theorem Part.emptyLine_boundChannels : (p.emptyLine l).boundChannels l = p.boundChannels l := by
  simp only [Part.boundChannels, Part.emptyLine_chan]

theorem Part.emptyLine_line (k : LineId) :
    (p.emptyLine l).line k = if k = l then (p.line l).cleared p.now else p.line k := by
  rw [Part.emptyLine, Part.line_modLine, Part.abandon_line, if_pos rfl]
  split
  next => rfl
  next e => rw [Part.abandon_line, if_neg e]

/-- R20: what the channels of a line that leaves service share while they are treated one by one. -/
structure Part.Emptied (p : Part) (l : LineId) (q : Part) : Prop where
  lines : ∀ k, q.line k = (p.emptyLine l).line k
  now : q.now = p.now
  bound : ∀ n, (q.chan n).cfg = (p.chan n).cfg
  banks : ∀ b, b ≠ .channel → q.bank b = p.bank b

theorem Part.Emptied.start : p.Emptied l (p.emptyLine l) := ⟨fun _ => rfl, by simp, by simp, by simp⟩

theorem Part.Emptied.outOfService {p q : Part} {l : LineId} (h : p.Emptied l q) {n : ChannelId} (hn : n ∈ p.boundChannels l) :
    p.Emptied l (q.outOfService n) := by
  have lineOf : q.lineOf n = l := by
    rw [Part.lineOf, h.bound]; exact (Channel.boundTo_iff.mp (Part.mem_boundChannels.mp hn)).2
  have empty : q.line (q.lineOf n) = (p.line l).cleared p.now := by rw [lineOf, h.lines, Part.emptyLine_line, if_pos rfl]
  refine ⟨fun k => ?_, by rw [Part.outOfService_now, h.now], fun m => ?_, fun b hb => ?_⟩
  · rw [Part.outOfService_line, h.lines] <;> rw [empty] <;> rfl
  · by_cases e : m = n
    · subst e
      rw [Part.outOfService_chan_self, Channel.leftService, ← h.bound]
      split <;> rfl
    · rw [Part.outOfService_onlyChan _ _ _ e, h.bound]
  · rw [Part.outOfService_bank, if_neg hb, h.banks b hb]

/-- The line is emptied and its channels are treated. -/
def Part.leaveService (p : Part) (l : LineId) : Part :=
  (p.emptyLine l).forEach (p.boundChannels l) (fun n q => q.outOfService n)

theorem Part.clearLine_eq : p.clearLine l = (p.leaveService l).abortTest l := by
  rw [Part.leaveService, ← Part.emptyLine_boundChannels]; rfl

theorem Part.leaveService_emptied : p.Emptied l (p.leaveService l) :=
  Part.forEach_inv (inv := p.Emptied l) (fun _ _ hn h => h.outOfService hn) (.start p l)

theorem Part.leaveService_chan (n : ChannelId) :
    (p.leaveService l).chan n = if (p.chan n).boundTo l then (p.chan n).leftService p.now else p.chan n := by
  have treated := Part.forEach_chan (inv := p.Emptied l) (f := fun _ c => c.leftService p.now) (p.boundChannels_nodup l)
    (fun _ _ hn h => h.outOfService hn) (fun m q _ h => by rw [Part.outOfService_chan_self, h.now])
    (fun m q => q.outOfService_onlyChan m) (.start p l) n
  rw [Part.leaveService, treated, Part.emptyLine_chan]
  simp only [Part.mem_boundChannels]

/-- R20: CHANNEL_OFFLINE of each working channel, in ascending order. -/
theorem Part.leaveService_bank_channel :
    (p.leaveService l).bank .channel =
      (p.bank .channel).takeAll (offlineErrors p fun n => (p.chan n).boundTo l && working (p.chan n).motion) := by
  have taken := Part.forEach_bank (inv := p.Emptied l) (b := .channel)
    (es := fun n c => if working c.motion then [offlineRecord n c] else []) (p.boundChannels_nodup l)
    (fun _ _ hn h => h.outOfService hn) (fun m q _ _ => by rw [Part.outOfService_bank, if_pos rfl])
    (fun m q => q.outOfService_onlyChan m) (.start p l)
  rw [Part.leaveService, taken]
  simp only [Part.emptyLine_chan, Part.emptyLine_bank]
  exact congrArg _ (flatMap_filter_ite allChannels _ _ fun n => offlineRecord n (p.chan n))

/-! ## A line cleared -/

theorem Part.abortTest_line (k : LineId) : (p.abortTest l).line k = if k = l then (p.line l).aborted else p.line k := by
  unfold Part.abortTest Line.aborted
  split
  next h => rw [Part.record_line, Part.line_modTest]
  next h =>
    split
    next e => rw [e]
    next => rfl

theorem Part.abortTest_bank (b : BankId) :
    (p.abortTest l).bank b =
      if b = .line l ∧ (p.line l).state = .test then ((p.bank (.line l)).take (abortRecord l)).count else p.bank b := by
  unfold Part.abortTest
  split
  next h =>
    rw [Part.bank_record]
    simp only [h, and_true]
    rfl
  next h => simp only [h, and_false, if_false]

@[simp] theorem Part.abortTest_chan (n : ChannelId) : (p.abortTest l).chan n = p.chan n := by
  unfold Part.abortTest; split <;> rfl
@[simp] theorem Part.abortTest_now : (p.abortTest l).now = p.now := by unfold Part.abortTest; split <;> rfl

theorem Part.clearLine_chan (n : ChannelId) :
    (p.clearLine l).chan n = if (p.chan n).boundTo l then (p.chan n).leftService p.now else p.chan n := by
  rw [Part.clearLine_eq, Part.abortTest_chan, Part.leaveService_chan]

@[simp] theorem Part.clearLine_now : (p.clearLine l).now = p.now := by
  rw [Part.clearLine_eq, Part.abortTest_now, (p.leaveService_emptied l).now]

theorem Part.clearLine_line (k : LineId) :
    (p.clearLine l).line k = if k = l then ((p.line l).cleared p.now).aborted else p.line k := by
  have emptied := (p.leaveService_emptied l).lines
  rw [Part.clearLine_eq, Part.abortTest_line, emptied, emptied, Part.emptyLine_line, Part.emptyLine_line, if_pos rfl]
  split <;> rfl

theorem Part.clearLine_bank_channel :
    (p.clearLine l).bank .channel =
      (p.bank .channel).takeAll (offlineErrors p fun n => (p.chan n).boundTo l && working (p.chan n).motion) := by
  rw [Part.clearLine_eq, Part.abortTest_bank, if_neg fun h => BankId.noConfusion h.1, Part.leaveService_bank_channel]

theorem Part.clearLine_bank_line :
    (p.clearLine l).bank (.line l) =
      if (p.line l).state = .test then ((p.bank (.line l)).take (abortRecord l)).count else p.bank (.line l) := by
  have emptied := p.leaveService_emptied l
  rw [Part.clearLine_eq, Part.abortTest_bank, emptied.lines, Part.emptyLine_line, if_pos rfl, Line.cleared_state,
    emptied.banks _ BankId.noConfusion]
  simp only [true_and]

theorem Part.clearLine_bank_of_ne {b : BankId} (hc : b ≠ .channel) (hl : b ≠ .line l) :
    (p.clearLine l).bank b = p.bank b := by
  rw [Part.clearLine_eq, Part.abortTest_bank, if_neg fun h => hl h.1, (p.leaveService_emptied l).banks b hc]

end

/-! ## A line that takes up its service (R132, R137) -/

section
variable (p : Part) (n : ChannelId) (l : LineId)

/-- R132: supervision falls due at once. -/
def Channel.supervisedAtOnce (c : Channel) : Channel := if supervised c.motion then { c with supDue := true } else c

theorem Part.dueAtOnce_chan_self : (p.dueAtOnce n).chan n = (p.chan n).supervisedAtOnce := by
  unfold Part.dueAtOnce Channel.supervisedAtOnce
  split
  · exact p.chan_modChan_self n _
  · rfl

theorem Part.dueAtOnce_onlyChan : p.OnlyChan n (p.dueAtOnce n) := by
  unfold Part.dueAtOnce
  split
  · exact (Part.OnlyChan.refl p).modChan _
  · exact .refl p

theorem Part.dueAtOnce_rest : (p.dueAtOnce n).lines = p.lines ∧ (p.dueAtOnce n).banks = p.banks ∧
    (p.dueAtOnce n).now = p.now := by
  unfold Part.dueAtOnce; split <;> exact ⟨rfl, rfl, rfl⟩

/-- R137: the line as it starts afresh in RUN. -/
def Line.restarted (x : Line) (now : Nat) : Line :=
  ({ x with exchange := none, retake := none, pollPos := none, supPos := none } : Line).enter now .run

/-- The line has started, and its channels are not yet due. -/
def Part.startLine (p : Part) (l : LineId) : Part :=
  (p.modLine l (fun x => { x with exchange := none, retake := none, pollPos := none, supPos := none })).enterLine l .run

theorem Part.startLine_line (k : LineId) :
    (p.startLine l).line k = if k = l then (p.line l).restarted p.now else p.line k := by
  rw [Part.startLine, Part.enterLine, Part.line_modLine, Part.line_modLine_self, Part.line_modLine]
  split <;> rfl

theorem Part.restartLine_eq :
    p.restartLine l = (p.startLine l).forEach (p.boundChannels l) (fun n q => q.dueAtOnce n) := rfl

theorem Part.restartLine_chan :
    (p.restartLine l).chan n = if (p.chan n).boundTo l then (p.chan n).supervisedAtOnce else p.chan n := by
  have due := Part.forEach_chan (inv := fun _ => True) (f := fun _ c => c.supervisedAtOnce) (p.boundChannels_nodup l)
    (fun _ _ _ _ => trivial) (fun m q _ _ => q.dueAtOnce_chan_self m) (fun m q => q.dueAtOnce_onlyChan m)
    (p := p.startLine l) trivial n
  rw [Part.restartLine_eq, due]
  simp only [Part.mem_boundChannels]
  rfl

theorem Part.restartLine_rest : (p.restartLine l).lines = (p.startLine l).lines ∧ (p.restartLine l).banks = p.banks ∧
    (p.restartLine l).now = p.now := by
  have rest := Part.forEach_inv (inv := fun q => q.lines = (p.startLine l).lines ∧ q.banks = p.banks ∧ q.now = p.now)
    (act := fun n q => q.dueAtOnce n) (ns := p.boundChannels l) (p := p.startLine l) (fun n q _ ⟨h1, h2, h3⟩ => by
      obtain ⟨k1, k2, k3⟩ := q.dueAtOnce_rest n
      exact ⟨k1.trans h1, k2.trans h2, k3.trans h3⟩) ⟨rfl, rfl, rfl⟩
  exact rest

theorem Part.restartLine_line (k : LineId) :
    (p.restartLine l).line k = if k = l then (p.line l).restarted p.now else p.line k := by
  rw [← Part.startLine_line, Part.line, (p.restartLine_rest l).1]; rfl

@[simp] theorem Part.restartLine_bank (b : BankId) : (p.restartLine l).bank b = p.bank b := by
  rw [Part.bank, (p.restartLine_rest l).2.1]; rfl

@[simp] theorem Part.restartLine_now : (p.restartLine l).now = p.now := (p.restartLine_rest l).2.2

end

end Sys2Proof.Machine
end

section
/-! SUPPORT. The watch of a line through the frames it hears (R136, R137). -/

namespace Sys2Proof.Machine

/-- No line's watch differs. -/
structure Part.SameWatch (p q : Part) : Prop where
  watch : ∀ k, (q.line k).watch = (p.line k).watch

theorem Line.QueueOnly.watch {x y : Line} (h : x.QueueOnly y) : y.watch = x.watch := by
  unfold Line.QueueOnly at h; rw [← h]

section
variable {p q r : Part}

theorem Part.SameWatch.refl (p : Part) : p.SameWatch p := ⟨fun _ => rfl⟩
theorem Part.SameWatch.trans (h : p.SameWatch q) (k : q.SameWatch r) : p.SameWatch r :=
  ⟨fun l => (k.watch l).trans (h.watch l)⟩

theorem Part.SameWatch.of_lines (h : p.SameWatch q) (k : r.lines = q.lines) : p.SameWatch r :=
  h.trans ⟨fun l => by rw [Part.line, k]; rfl⟩

theorem Part.SameWatch.modLine (h : p.SameWatch q) (l : LineId) (f : Line → Line) (hf : ∀ x, (f x).watch = x.watch) :
    p.SameWatch (q.modLine l f) :=
  h.trans ⟨fun k => by
    rw [Part.line_modLine]
    split
    next e => rw [e, hf]
    next => rfl⟩

theorem Part.SameWatch.modTest (h : p.SameWatch q) (l : LineId) (f : LineTest → LineTest) : p.SameWatch (q.modTest l f) :=
  h.modLine l _ fun _ => rfl

theorem Part.SameWatch.modChan (h : p.SameWatch q) (n : ChannelId) (f : Channel → Channel) : p.SameWatch (q.modChan n f) :=
  h.of_lines rfl
theorem Part.SameWatch.record (h : p.SameWatch q) (b : BankId) (e : ErrorRecord) : p.SameWatch (q.record b e) := h.of_lines rfl
theorem Part.SameWatch.joinNotices (h : p.SameWatch q) (n : ChannelId) : p.SameWatch (q.joinNotices n) := h.of_lines rfl

theorem Part.SameWatch.foldl {α : Type} (h : p.SameWatch q) (act : Part → α → Part) (step : ∀ (r : Part) (a : α), r.SameWatch (act r a))
    (as : List α) : p.SameWatch (as.foldl act q) :=
  h.trans (foldl_keeps Part.SameWatch.refl Part.SameWatch.trans step as q)

theorem Part.SameWatch.queueWork {n : ChannelId} (h : p.SameWatch q) (k : q.QueueWork n r) : p.SameWatch r :=
  h.trans ⟨fun l => by
    by_cases e : l = q.lineOf n
    · rw [e]; exact k.own.watch
    · rw [k.other l e]⟩

theorem Part.SameWatch.setMotion (h : p.SameWatch q) (n : ChannelId) (m : Motion) : p.SameWatch (q.setMotion n m) :=
  h.modChan n _
theorem Part.SameWatch.removeOrder (h : p.SameWatch q) (n : ChannelId) : p.SameWatch (q.removeOrder n) :=
  h.queueWork (Part.QueueWork.refl q).removeOrder
theorem Part.SameWatch.testIdle (h : p.SameWatch q) (n : ChannelId) : p.SameWatch (q.testIdle n) :=
  h.queueWork (Part.QueueWork.refl q).testIdle
theorem Part.SameWatch.reenter (h : p.SameWatch q) (l : LineId) (o : Order) : p.SameWatch (q.modLine l fun x => x.reenter o) :=
  h.modLine l _ fun x => (Line.QueueOnly.reenter x o).watch
theorem Part.SameWatch.enterFaulted (h : p.SameWatch q) (n : ChannelId) (f : FaultCode) : p.SameWatch (q.enterFaulted n f) :=
  ((h.modChan n _).setMotion n _).record _ _
theorem Part.SameWatch.faultChannel (h : p.SameWatch q) (n : ChannelId) (f : FaultCode) : p.SameWatch (q.faultChannel n f) :=
  (h.queueWork (Part.QueueWork.refl q).dropWork).enterFaulted n f
theorem Part.SameWatch.goOffline (h : p.SameWatch q) (n : ChannelId) : p.SameWatch (q.goOffline n) :=
  (h.queueWork (q.goOffline_queueWork n)).record _ _

theorem Part.SameWatch.settleAttempt (h : p.SameWatch q) (l : LineId) (o : Order) : p.SameWatch (q.settleAttempt l o) := by
  unfold Part.settleAttempt
  dsimp only
  split
  · exact h.reenter _ _
  · have entered : p.SameWatch (if ((q.line l).queued o.channel).isSome then q else q.modLine l fun x => x.reenter o) := by
      split; exacts [h, h.reenter l o]
    split
    · exact entered.setMotion _ _
    · split
      · exact Part.SameWatch.setMotion (entered.modChan _ _) _ _
      · exact entered.setMotion _ _
theorem Part.SameWatch.orderFailed (h : p.SameWatch q) (l : LineId) (o : Order) (f : Failure) :
    p.SameWatch (q.orderFailed l o f) := by
  unfold Part.orderFailed
  dsimp only
  split
  · split
    · exact h.settleAttempt l o
    · split
      · exact h.faultChannel _ _
      · exact h.settleAttempt l _
  · split
    · exact h.enterFaulted _ _
    · exact h.settleAttempt l _
theorem Part.SameWatch.queryMissed (h : p.SameWatch q) (n : ChannelId) : p.SameWatch (q.queryMissed n) := by
  grind [Part.queryMissed, modChan, Part.forgetPosition, goOffline]
theorem Part.SameWatch.orderAccepted (h : p.SameWatch q) (o : Order) : p.SameWatch (q.orderAccepted o) := by
  grind [Part.orderAccepted, Part.clearMiss, enterFaulted, modChan, setMotion]
theorem Part.SameWatch.orderBusy (h : p.SameWatch q) (l : LineId) (o : Order) : p.SameWatch (q.orderBusy l o) :=
  Part.SameWatch.settleAttempt (h.modChan _ _) l _
theorem Part.SameWatch.orderRefused (h : p.SameWatch q) (o : Order) (reason : Byte) :
    p.SameWatch (q.orderRefused o reason) := by
  grind [Part.orderRefused, Part.clearMiss, enterFaulted, faultChannel, modChan]
theorem Part.SameWatch.complete (h : p.SameWatch q) (n : ChannelId) : p.SameWatch (q.complete n) := by
  have ended := h.modChan n fun c => { c with accepted := none, travel := none, shortMark := false }
  unfold Part.complete
  extract_lets p1 p2
  have noticed : p.SameWatch p2 := by unfold p2; split; exacts [ended.joinNotices n, ended]
  grind [removeOrder, setMotion, testIdle]
theorem Part.SameWatch.shortTravel (h : p.SameWatch q) (n : ChannelId) (t : Nat) : p.SameWatch (q.shortTravel n t) := by
  unfold Part.shortTravel
  dsimp only
  split
  · exact (h.modChan n _).setMotion n _
  · split
    · exact h.faultChannel n _
    · exact ((h.modChan n _).reenter _ _).setMotion n _
theorem Part.SameWatch.queryStatus (h : p.SameWatch q) (n : ChannelId) (position : Word) (m : NodeMotion)
    (motion faults : Byte) : p.SameWatch (q.queryStatus n position m motion faults) := by
  have taken : p.SameWatch (q.takeStatus n position m motion) := h.modChan n _
  unfold Part.queryStatus
  extract_lets p1 c
  have taken : p.SameWatch p1 := taken
  split
  · exact taken.faultChannel n _
  · split
    · split
      · split
        · exact taken.complete n
        · exact taken.shortTravel n _
      · exact taken
    · exact (taken.setMotion n _).testIdle n
    · exact taken.testIdle n
    all_goals exact taken

theorem Part.SameWatch.endExchange (h : p.SameWatch q) (l : LineId) (free : Nat) : p.SameWatch (q.endExchange l free) := by
  have ended := h.modLine l (fun x => x.endExchange free) fun _ => rfl
  unfold Part.endExchange
  split
  · dsimp only
    split
    · split
      · exact (ended.modChan _ _).modChan _ _
      · exact ended.modChan _ _
    all_goals exact ended
  · exact h
theorem Part.SameWatch.failExchange (h : p.SameWatch q) (l : LineId) (f : Failure) (free : Nat) :
    p.SameWatch (q.failExchange l f free) := by
  grind [Part.failExchange, endExchange, record, orderFailed, queryMissed]
theorem Part.SameWatch.countTest (h : p.SameWatch q) (l : LineId) (bytes : Pattern) (discarded : Bool)
    (back : List (Option Byte)) (free : Nat) : p.SameWatch (q.countTest l bytes discarded back free) := by
  grind [Part.countTest, Part.countFrame, endExchange, modTest]
theorem Part.SameWatch.recordHeard (h : p.SameWatch q) (l : LineId) (k : Heard) : p.SameWatch (q.recordHeard l k) := h.record _ _
theorem Part.SameWatch.lineBusyUntilGap (h : p.SameWatch q) (l : LineId) : p.SameWatch (q.lineBusyUntilGap l) :=
  h.modLine l _ fun _ => rfl
theorem Part.SameWatch.hearOther (h : p.SameWatch q) (l : LineId) (k : Heard) : p.SameWatch (q.hearOther l k) := by
  unfold Part.hearOther
  dsimp only
  split
  · exact h
  · split
    · exact (h.lineBusyUntilGap l).recordHeard l k
    · split
      · exact h
      · split
        · exact h.failExchange l _ _
        · exact h.failExchange l _ _
        · exact (h.countTest l _ _ _ _).recordHeard l k
theorem Part.SameWatch.hearStatus (h : p.SameWatch q) (l : LineId) (addr : BitVec 4) (position : Word)
    (motion faults : Byte) : p.SameWatch (q.hearStatus l addr position motion faults) := by
  unfold Part.hearStatus
  split
  · exact h.hearOther l _
  · split
    · exact (h.endExchange l _).queryStatus _ _ _ _ _
    · split
      · exact ((h.endExchange l _).modChan _ _).enterFaulted _ _
      · exact h.hearOther l _
    all_goals exact h.hearOther l _
theorem Part.SameWatch.hearAccept (h : p.SameWatch q) (l : LineId) (addr : BitVec 4) : p.SameWatch (q.hearAccept l addr) := by
  grind [Part.hearAccept, endExchange, orderAccepted, hearOther]
theorem Part.SameWatch.hearBusy (h : p.SameWatch q) (l : LineId) (addr : BitVec 4) : p.SameWatch (q.hearBusy l addr) := by
  grind [Part.hearBusy, endExchange, orderBusy, hearOther]
theorem Part.SameWatch.hearRefuse (h : p.SameWatch q) (l : LineId) (addr : BitVec 4) (reason : Byte) :
    p.SameWatch (q.hearRefuse l addr reason) := by
  grind [Part.hearRefuse, endExchange, orderRefused, hearOther]
theorem Part.SameWatch.hearEcho (h : p.SameWatch q) (l : LineId) (addr : BitVec 4) (received : List Byte) (good : Bool) :
    p.SameWatch (q.hearEcho l addr received good) := by
  grind [Part.hearEcho, countTest, hearOther]

theorem Part.SameWatch.recomputeZone (h : p.SameWatch q) (z : ZoneId) : p.SameWatch (q.recomputeZone z) :=
  h.foldl _ (fun r n => (refl r).queueWork ((Part.QueueWork.refl r).recompute (n := n))) _
theorem Part.SameWatch.takeKey (h : p.SameWatch q) (zones : BitVec 6) (cmd : KeyCommand) (l : LineId) (station : BitVec 4) :
    p.SameWatch (q.takeKey zones cmd l station) :=
  h.foldl _ (fun r z => by split; exacts [((refl r).of_lines (Part.modZone_lines _ _ _)).recomputeZone z, refl r]) _
theorem Part.SameWatch.answerKey (h : p.SameWatch q) (l : LineId) (addr : BitVec 4) (zones command : Byte) :
    p.SameWatch (q.answerKey l addr zones command) := by
  have answered (a : Answer) : p.SameWatch ((q.lineBusyUntilGap l).modLine l fun x => { x with answer := some a }) :=
    (h.lineBusyUntilGap l).modLine l _ fun _ => rfl
  unfold Part.answerKey
  dsimp only
  split
  · split
    · exact (answered _).record _ _
    · exact (answered _).takeKey _ _ _ _
  · exact (answered _).record _ _
theorem Part.SameWatch.hearKey (h : p.SameWatch q) (l : LineId) (addr : BitVec 4) (zones command : Byte) (resultFirst : Bool) :
    p.SameWatch (q.hearKey l addr zones command resultFirst) := by
  unfold Part.hearKey
  dsimp only
  split
  · split <;> try exact h
    all_goals
      split
      · exact h.answerKey l _ _ _
      · split
        · exact h
        · split
          · exact (h.countTest l _ _ _ _).answerKey l _ _ _
          all_goals
            split
            · exact (h.failExchange l _ _).answerKey l _ _ _
            · exact (h.answerKey l _ _ _).failExchange l _ _
  · exact h.hearOther l _
theorem Part.SameWatch.takeFrame (h : p.SameWatch q) (l : LineId) (f : Frame) : p.SameWatch (q.takeFrame l f) := by
  cases f with
  | key a z c => exact h.hearKey l a z c true
  | status a x m y => exact h.hearStatus l a x m y
  | accept a => exact h.hearAccept l a
  | busy a => exact h.hearBusy l a
  | refuse a r => exact h.hearRefuse l a r
  | test a b => exact h.hearEcho l a _ true
  | order _ _ => exact h.hearOther l .valid
  | query _ => exact h.hearOther l .valid
  | halt _ => exact h.hearOther l .valid
theorem Part.SameWatch.takeFound (h : p.SameWatch q) (l : LineId) (found : Found) : p.SameWatch (q.takeFound l found) := by
  cases found with
  | nothing => exact h
  | frame f => exact h.takeFrame l f
  | damagedEcho a received => exact h.hearEcho l a received false
  | damaged => exact h.hearOther l .damaged

/-- A line in QUIETING comes to rest without a change of its watch. -/
theorem Part.SameWatch.completeQuieting (h : p.SameWatch q) : p.SameWatch q.completeQuieting := by
  refine h.foldl _ (fun r l => ?_) _
  split
  next hq =>
    refine ⟨fun k => ?_⟩
    rw [Part.enterLine, Part.line_modLine]
    split
    next e => rw [e, Line.enter, hq.1]
    next => rfl
  next => exact refl r

end

end Sys2Proof.Machine
end

section
/-! SUPPORT. A stuck line, its recovery, and the watch (R136, R137, R149). -/

namespace Sys2Proof.Machine

/-! ## The watch of a line that hears a frame -/

section
variable {s : State} {l : LineId} (on : (s.part.line l).state ≠ .disabled)
  (sent : ∀ e, (s.part.line l).exchange = some e → e.sentAt ≠ none)

/-- A line not DISABLED listens while the part is not sending on it. -/
theorem Line.listens_of {x : Line} (on : x.state ≠ .disabled) (sent : ∀ e, x.exchange = some e → e.sentAt ≠ none) :
    x.listens = true := by
  have quiet : x.sending = false := by
    unfold Line.sending
    cases h : x.exchange with
    | none => rfl
    | some e => exact Option.isNone_eq_false_iff.2 (Option.isSome_iff_ne_none.2 (sent e h))
  simp [Line.listens, on, quiet]

/-- The watch after an event that keeps it. -/
theorem State.event_watch (s : State) {act : Part → Part} {q : Part} (h : q.SameWatch (act s.part)) (k : LineId) :
    ((s.event act).part.line k).watch = (q.line k).watch := by
  rw [State.event_part]; exact h.completeQuieting.watch k

include on sent

/-- A frame seen sets the measure back. -/
theorem State.event_watch_of_frame {act : Part → Part} (h : (s.part.frameSeen l).SameWatch (act s.part)) :
    ((s.event act).part.line l).watch = (s.part.line l).watch.restart s.part.now := by
  rw [s.event_watch h, Part.frameSeen_line, if_pos ⟨rfl, Line.listens_of on sent⟩]

/-- A reception sets the measure back, or, where it shows no recessive level, the recovery measure alone. -/
theorem State.hearReception_watch (heard : Reception) :
    ((s.event fun p => p.hearReception l heard).part.line l).watch =
      if sawRecessive heard then (s.part.line l).watch.restart s.part.now else (s.part.line l).watch.dominant s.part.now := by
  have taken : (s.part.modLine l fun x => x.receive heard s.part.now).SameWatch (s.part.hearReception l heard) := by
    unfold Part.hearReception
    rw [if_pos (Line.listens_of on sent)]
    exact (Part.SameWatch.refl _).takeFound l _
  rw [s.event_watch (act := fun p => p.hearReception l heard) taken, Part.line_modLine_self]
  rfl

/-- Every row of a frame that the line hears to its end sets the measure back. -/
theorem exec_frame_watch (c : Instr) (a : BitVec 4) (p : Word) (m f : Byte) (came : List Byte) (good : Bool)
    (heard : Reception)
    (hc : c = .status l a p m f ∨ c = .accept l a ∨ c = .busy l a ∨ c = .refuse l a m ∨ c = .key l a m f good ∨
      c = .testEcho l a came good ∨ c = .damagedFrame l heard ∧ (heard.gap ≠ .none ∨ heard.bytes ≠ [])) :
    ∃ t, exec c s = .next t ∧ (t.part.line l).watch = (s.part.line l).watch.restart s.part.now := by
  have frame := Part.SameWatch.refl (s.part.frameSeen l)
  rcases hc with rfl | rfl | rfl | rfl | rfl | rfl | ⟨rfl, recessive⟩
  · exact ⟨_, rfl, s.event_watch_of_frame on sent (frame.hearStatus l a p m f)⟩
  · exact ⟨_, rfl, s.event_watch_of_frame on sent (frame.hearAccept l a)⟩
  · exact ⟨_, rfl, s.event_watch_of_frame on sent (frame.hearBusy l a)⟩
  · exact ⟨_, rfl, s.event_watch_of_frame on sent (frame.hearRefuse l a m)⟩
  · exact ⟨_, rfl, s.event_watch_of_frame on sent (frame.hearKey l a m f good)⟩
  · exact ⟨_, rfl, s.event_watch_of_frame on sent (frame.hearEcho l a came good)⟩
  · have saw : sawRecessive heard = true := by
      simp only [sawRecessive, Bool.or_eq_true, decide_eq_true_iff, Bool.not_eq_true', List.isEmpty_eq_false_iff]
      exact .inl recessive
    exact ⟨_, rfl, (s.hearReception_watch on sent heard).trans (if_pos saw)⟩

end

/-! ## A line that fails (R136) -/

/-- The line emptied, with a test in progress aborted. -/
theorem Line.cleared_aborted_eq (x : Line) (now : Nat) :
    (x.cleared now).aborted = { x with
      urgent := [], routine := [], exchange := none, retake := none, answer := none, receiving := false,
      freeAt := (x.cleared now).freeAt, window := (x.cleared now).window,
      test := { x.test with result := if x.state = .test then some .aborted else x.test.result } } := by
  unfold Line.aborted
  rw [Line.cleared_state]
  split <;> rw [Line.cleared_eq]

theorem Part.failLine_eq (p : Part) {l : LineId} (hd : (p.line l).state ≠ .disabled) (hf : (p.line l).state ≠ .failed) :
    p.failLine l = ((p.clearLine l).record (.line l) ⟨.fault, .lineFailed, some (.line l), none⟩).enterLine l .failed := by
  unfold Part.failLine
  cases h : (p.line l).state with
  | disabled => exact absurd h hd
  | failed => exact absurd h hf
  | _ => rfl

theorem Part.failLine_line (p : Part) {l : LineId} (hd : (p.line l).state ≠ .disabled) (hf : (p.line l).state ≠ .failed) :
    (p.failLine l).line l = ((p.line l).cleared p.now).aborted.enter p.now .failed := by
  rw [p.failLine_eq hd hf, Part.enterLine, Part.line_modLine_self, Part.record_line, Part.clearLine_line, if_pos rfl,
    Part.record_now, Part.clearLine_now]

section
variable (p : Part) {l : LineId} (hd : (p.line l).state ≠ .disabled) (hf : (p.line l).state ≠ .failed)
include hd hf

theorem Part.failLine_chan (n : ChannelId) :
    (p.failLine l).chan n = if (p.chan n).boundTo l then (p.chan n).leftService p.now else p.chan n := by
  rw [p.failLine_eq hd hf, Part.enterLine, Part.modLine_chan, Part.record_chan, Part.clearLine_chan]

theorem Part.failLine_now : (p.failLine l).now = p.now := by
  rw [p.failLine_eq hd hf, Part.enterLine, Part.modLine_now, Part.record_now, Part.clearLine_now]

theorem Part.failLine_bank (b : BankId) :
    (p.failLine l).bank b =
      if b = .line l then (((p.clearLine l).bank (.line l)).take ⟨.fault, .lineFailed, some (.line l), none⟩).count
      else (p.clearLine l).bank b := by
  rw [p.failLine_eq hd hf, Part.enterLine, Part.modLine_bank, Part.bank_record]

end

/-- FAULT is on while a line is FAILED (R195). -/
theorem faultOutput_of_failed {p : Part} (l : LineId) (h : (p.line l).state = .failed) : p.faultOutput = true := by
  simp only [Part.faultOutput, Bool.or_eq_true, List.any_eq_true]
  exact .inr ⟨l, List.mem_finRange l, by simp [h]⟩

/-- R20: the record of a working channel whose line leaves service. -/
theorem Channel.leftService_of_working {c : Channel} (h : working c.motion = true) (now : Nat) :
    let d := c.leftService now
    d.motion = .offline ∧ d.position = none ∧ d.report = none ∧ d.travel = none ∧ d.accepted = none ∧ d.miss = 0 ∧
      d.shortMark = false := by
  rw [Channel.leftService, if_pos h]
  exact ⟨rfl, rfl, rfl, rfl, rfl, rfl, rfl⟩

theorem Channel.leftService_of_idle {c : Channel} (h : working c.motion = false) (now : Nat) : c.leftService now = c := by
  rw [Channel.leftService, h]; rfl

theorem working_iff (m : Motion) :
    working m = true ↔ m = .idle ∨ m = .queued ∨ m = .ordering ∨ m = .moving ∨ m = .halting := by
  cases m <;> simp [working]

theorem lineStuck_clause (s : State) (l : LineId) (began since : Nat) (hd : (s.part.line l).state ≠ .disabled)
    (hf : (s.part.line l).state ≠ .failed) (hw : (s.part.line l).watch = .stuck since) :
    ∃ t, exec (.lineStuck l began) s = .next t ∧
      let x := s.part.line l
      let y := t.part.line l
      y.state = .failed ∧ y.urgent = [] ∧ y.routine = [] ∧ y.exchange = none ∧ y.retake = none ∧ y.answer = none ∧
      y.clock = none ∧ y.window = .none ∧ y.watch = .recovery t.part.now ∧
      t.part.now = max s.part.now (max since began + 100) ∧
      y.test = { x.test with result := if x.state = .test then some .aborted else x.test.result } ∧
      y.receiving = false ∧
      t.part.bank (.line l) =
        ((if x.state = .test then
            ((s.part.bank (.line l)).take ⟨.notice, .testAborted, some (.line l), none⟩).count
          else s.part.bank (.line l)).take ⟨.fault, .lineFailed, some (.line l), none⟩).count ∧
      (∀ n : ChannelId, (s.part.chan n).boundTo l = true →
        ((s.part.chan n).motion = .idle ∨ (s.part.chan n).motion = .queued ∨ (s.part.chan n).motion = .ordering ∨
          (s.part.chan n).motion = .moving ∨ (s.part.chan n).motion = .halting →
          (t.part.chan n).motion = .offline ∧ (t.part.chan n).position = none ∧ (t.part.chan n).report = none ∧
          (t.part.chan n).travel = none ∧ (t.part.chan n).accepted = none ∧ (t.part.chan n).miss = 0 ∧
          (t.part.chan n).shortMark = false) ∧
        ((s.part.chan n).motion = .faulted ∨ (s.part.chan n).motion = .offline → t.part.chan n = s.part.chan n)) ∧
      (∀ n : ChannelId, (s.part.chan n).boundTo l = false → t.part.chan n = s.part.chan n) ∧
      t.part.bank .channel = (s.part.bank .channel).takeAll
        (offlineErrors s.part (fun n => (s.part.chan n).boundTo l && working (s.part.chan n).motion)) ∧
      (∀ b : BankId, b ≠ .channel → b ≠ .line l → t.part.bank b = s.part.bank b) ∧
      t.part.faultOutput = true := by
  have act : s.part.lineStuck l began = (s.part.advanceTo (max since began + 100)).failLine l := by
    unfold Part.lineStuck; rw [hw]; rfl
  refine ⟨_, rfl, ?_⟩
  generalize ht : s.event (fun p => p.lineStuck l began) = t
  have now : t.part.now = max s.part.now (max since began + 100) := by
    rw [← ht, State.event_now, act, (s.part.advanceTo _).failLine_now hd hf]; rfl
  have chan (n : ChannelId) : t.part.chan n =
      if (s.part.chan n).boundTo l then (s.part.chan n).leftService t.part.now else s.part.chan n := by
    rw [now, ← ht, State.event_chan, act, (s.part.advanceTo _).failLine_chan hd hf]; rfl
  have bank (b : BankId) := (congrArg (fun q => q.part.bank b) ht.symm).trans ((State.event_bank ..).trans
    ((congrArg (fun q => q.bank b) act).trans ((s.part.advanceTo _).failLine_bank hd hf b)))
  have line := (s.part.advanceTo (max since began + 100)).failLine_line (l := l) hd hf
  have own : t.part.line l = ((s.part.line l).cleared t.part.now).aborted.enter t.part.now .failed := by
    rw [now, ← ht, State.event_line _ _ _ (by rw [act, line]; exact LineState.noConfusion), act, line]
    rfl
  have state : (t.part.line l).state = .failed := by rw [own]; rfl
  dsimp only
  refine ⟨state, ?_, ?_, ?_, ?_, ?_, ?_, ?_, ?_, now, ?_, ?_, ?_, fun n hn => ⟨fun hm => ?_, fun hm => ?_⟩, fun n hn => ?_, ?_,
    fun b hc hl => ?_, faultOutput_of_failed l state⟩
  iterate 8 rw [own, Line.cleared_aborted_eq]; rfl
  iterate 2 rw [own, Line.cleared_aborted_eq]; rfl
  · rw [bank, if_pos rfl, Part.clearLine_bank_line]; rfl
  · rw [chan, if_pos hn]; exact Channel.leftService_of_working ((working_iff _).2 hm) _
  · rw [chan, if_pos hn, Channel.leftService_of_idle]
    rcases hm with hm | hm <;> rw [hm] <;> rfl
  · rw [chan, hn]; rfl
  · rw [bank, if_neg BankId.noConfusion, Part.clearLine_bank_channel]; rfl
  · rw [bank, if_neg hl, Part.clearLine_bank_of_ne _ _ hc hl]; rfl

/-! ## A line that recovers (R137) -/

theorem lineRecovery_clause (s : State) (l : LineId) (began since : Nat) (hf : (s.part.line l).state = .failed)
    (hw : (s.part.line l).watch = .recovery since) :
    ∃ t, exec (.lineRecovery l began) s = .next t ∧
      t.part.now = max s.part.now (max since began + 1000) ∧
      t.part.line l = { s.part.line l with
        state := .run, exchange := none, retake := none, pollPos := none, supPos := none,
        clock := some (t.part.now + 250), watch := .stuck t.part.now, receiver := .looking } ∧
      (∀ n : ChannelId, (s.part.chan n).boundTo l = true → supervised (s.part.chan n).motion = true →
        t.part.chan n = { s.part.chan n with supDue := true }) ∧
      (∀ n : ChannelId, (s.part.chan n).boundTo l = false → t.part.chan n = s.part.chan n) ∧
      s.part.SameBanks t.part := by
  have act : s.part.lineRecovery l began =
      ((s.part.advanceTo (max since began + 1000)).modLine l (fun x => { x with receiver := .looking })).restartLine l := by
    unfold Part.lineRecovery; rw [hw]; exact if_pos hf
  have line : (s.part.lineRecovery l began).line l =
      ({ s.part.line l with receiver := .looking } : Line).restarted (max s.part.now (max since began + 1000)) := by
    rw [act, Part.restartLine_line, if_pos rfl, Part.line_modLine_self]; rfl
  have now : (s.part.lineRecovery l began).now = max s.part.now (max since began + 1000) := by
    rw [act, Part.restartLine_now]; rfl
  have chan (n : ChannelId) : (s.part.lineRecovery l began).chan n =
      if (s.part.chan n).boundTo l then (s.part.chan n).supervisedAtOnce else s.part.chan n := by
    rw [act]; exact Part.restartLine_chan _ n l
  refine ⟨_, rfl, (State.event_now ..).trans now, ?_, fun n hn hs => ?_, fun n hn => ?_, fun b => ?_⟩
  · rw [State.event_line _ _ _ (by rw [line]; exact LineState.noConfusion), line, State.event_now, now]
    simp only [Line.restarted, Line.enter, hf]
    rfl
  · rw [State.event_chan, chan, if_pos hn, Channel.supervisedAtOnce, if_pos hs]
  · rw [State.event_chan, chan, hn]; rfl
  · rw [State.event_bank, act, Part.restartLine_bank]; rfl

/-- Settles O57: a failed line is one cleared, a recovered one is started afresh, and a frame heard keeps every watch but
for the measure it sets back. -/
theorem stuckLineFailsAndRecovers : Obligations.StuckLineFailsAndRecovers := by
  intro s l began
  refine ⟨fun since hd hf hw => lineStuck_clause s l began since hd hf hw,
    fun since hf hw => lineRecovery_clause s l began since hf hw, fun c a p m f came good heard on sent hc => ?_,
    fun on sent => ?_⟩
  · obtain ⟨t, next, watch⟩ := exec_frame_watch on sent c a p m f came good heard hc
    exact ⟨t, next, fun since hw => by rw [watch, hw, Watch.restart_stuck],
      fun since hw => by rw [watch, hw, Watch.restart_recovery]⟩
  · have watch := (s.hearReception_watch on sent ⟨.none, [], .dominantStop 0⟩).trans (if_neg (by decide))
    exact ⟨_, rfl, fun since hw => by rw [watch, hw, Watch.dominant_stuck],
      fun since hw => by rw [watch, hw, Watch.dominant_recovery]⟩

end Sys2Proof.Machine
end

section
/-! SUPPORT. What the taking of a command does besides its decision (R157, R170, R181). -/

namespace Sys2Proof.Machine

section
variable (p : Part) (c : Option CommandCode)

@[simp] theorem Part.interrupt_chan (n : ChannelId) : (p.interrupt c).chan n = p.chan n := by
  unfold Part.interrupt; split <;> rfl
@[simp] theorem Part.interrupt_line (l : LineId) : (p.interrupt c).line l = p.line l := by
  unfold Part.interrupt; split <;> rfl
@[simp] theorem Part.interrupt_zone (z : ZoneId) : (p.interrupt c).zone z = p.zone z := by
  unfold Part.interrupt; split <;> rfl
@[simp] theorem Part.interrupt_zones : (p.interrupt c).zones = p.zones := by unfold Part.interrupt; split <;> rfl
@[simp] theorem Part.interrupt_ga : (p.interrupt c).ga = p.ga := by unfold Part.interrupt; split <;> rfl
@[simp] theorem Part.interrupt_weather : (p.interrupt c).weather = p.weather := by unfold Part.interrupt; split <;> rfl
@[simp] theorem Part.interrupt_globals : (p.interrupt c).globals = p.globals := by unfold Part.interrupt; split <;> rfl
@[simp] theorem Part.interrupt_notices : (p.interrupt c).notices = p.notices := by unfold Part.interrupt; split <;> rfl
@[simp] theorem Part.interrupt_noticeAcks : (p.interrupt c).noticeAcks = p.noticeAcks := by
  unfold Part.interrupt; split <;> rfl
@[simp] theorem Part.interrupt_now : (p.interrupt c).now = p.now := by unfold Part.interrupt; split <;> rfl
@[simp] theorem Part.interrupt_args : (p.interrupt c).cmd.args = p.cmd.args := by unfold Part.interrupt; split <;> rfl
@[simp] theorem Part.interrupt_pending : (p.interrupt c).cmd.pending = p.cmd.pending := by
  unfold Part.interrupt; split <;> rfl
@[simp] theorem Part.interrupt_generation : (p.interrupt c).cmd.generation = p.cmd.generation := by
  unfold Part.interrupt; split <;> rfl
@[simp] theorem Part.interrupt_arg (i : Fin 3) : (p.interrupt c).arg i = p.arg i := by
  unfold Part.arg; simp only [Part.interrupt_args]
@[simp] theorem Part.interrupt_anyLatch : (p.interrupt c).anyLatch = p.anyLatch := by
  simp only [Part.anyLatch, Part.interrupt_zone]

theorem Part.interrupt_bank_of_ne {b : BankId} (h : b ≠ .gate) : (p.interrupt c).bank b = p.bank b := by
  unfold Part.interrupt
  split
  · rw [Part.abandonRelease, Part.bank_record, if_neg h]; rfl
  · rfl

/-- R181: a command that is none of the release commands abandons a sequence begun. -/
theorem Part.interrupt_bank_gate (h : interrupts c = true) : (p.interrupt c).bank .gate = gateAfterAbandonment p := by
  unfold Part.interrupt gateAfterAbandonment
  by_cases r : p.cmd.release = .idle
  · rw [if_neg fun k => k.2 r, if_pos r]
  · rw [if_pos ⟨h, r⟩, if_neg r, Part.abandonRelease, Part.bank_record_self]; rfl

end

section
variable (v : Verdict) (code : Word)

@[simp] theorem Verdict.conclude_chan (n : ChannelId) : (v.conclude code).chan n = v.part.chan n := by
  unfold Verdict.conclude; dsimp only; split <;> rfl
@[simp] theorem Verdict.conclude_chans : (v.conclude code).chans = v.part.chans := by
  unfold Verdict.conclude; dsimp only; split <;> rfl
@[simp] theorem Verdict.conclude_lines : (v.conclude code).lines = v.part.lines := by
  unfold Verdict.conclude; dsimp only; split <;> rfl
@[simp] theorem Verdict.conclude_line (l : LineId) : (v.conclude code).line l = v.part.line l := by
  unfold Verdict.conclude; dsimp only; split <;> rfl
@[simp] theorem Verdict.conclude_zones : (v.conclude code).zones = v.part.zones := by
  unfold Verdict.conclude; dsimp only; split <;> rfl
@[simp] theorem Verdict.conclude_ga : (v.conclude code).ga = v.part.ga := by
  unfold Verdict.conclude; dsimp only; split <;> rfl
@[simp] theorem Verdict.conclude_weather : (v.conclude code).weather = v.part.weather := by
  unfold Verdict.conclude; dsimp only; split <;> rfl
@[simp] theorem Verdict.conclude_globals : (v.conclude code).globals = v.part.globals := by
  unfold Verdict.conclude; dsimp only; split <;> rfl
@[simp] theorem Verdict.conclude_notices : (v.conclude code).notices = v.part.notices := by
  unfold Verdict.conclude; dsimp only; split <;> rfl
@[simp] theorem Verdict.conclude_noticeAcks : (v.conclude code).noticeAcks = v.part.noticeAcks := by
  unfold Verdict.conclude; dsimp only; split <;> rfl
@[simp] theorem Verdict.conclude_now : (v.conclude code).now = v.part.now := by
  unfold Verdict.conclude; dsimp only; split <;> rfl

theorem Verdict.conclude_cmd : (v.conclude code).cmd = v.part.cmd.conclude code v := by
  unfold Verdict.conclude; dsimp only; split <;> rfl

theorem Verdict.conclude_bank_of_ne {b : BankId} (h : b ≠ .gate) : (v.conclude code).bank b = v.part.bank b := by
  unfold Verdict.conclude
  dsimp only
  split
  · rw [Part.setCmd_bank, Part.bank_record, if_neg h]
  · rfl

theorem Verdict.conclude_bank_done (h : v.refusal = none) (b : BankId) : (v.conclude code).bank b = v.part.bank b := by
  unfold Verdict.conclude; rw [h]; rfl

/-- R170: the refusal is recorded in GATE. -/
theorem Verdict.conclude_bank_refused {r : Reason} (h : v.refusal = some r) :
    (v.conclude code).bank .gate = ((v.part.bank .gate).take (refusalRecord (commandOfCode code) r v.subject)).count := by
  unfold Verdict.conclude; rw [h]; exact Part.bank_record_self _ _ _

end

section
variable (s : State) (c : CommandCode)

theorem commandOfCode_codeOf : commandOfCode (codeOf c) = some c := by cases c <;> rfl

/-- The decision of a command row on the state in which its write has its grant. -/
def State.verdict : Verdict := (s.grant.part.interrupt (some c)).decideCommand [] (some c)

/-- The state after a command row without loop changes. -/
def State.commanded : State := s.forwarded (s.bus.addressOf 0x1D0) (codeOf c) (fun p => p.takeCommand (codeOf c) [])

theorem State.writeCommand_eq_commanded {s : State} (hr : s.bus.rstn = false) : s.writeCommand (codeOf c) [] = s.commanded c := by
  rw [State.writeCommand, hr]; rfl

theorem Part.takeCommand_codeOf : s.grant.part.takeCommand (codeOf c) [] = (s.verdict c).conclude (codeOf c) := by
  rw [Part.takeCommand, commandOfCode_codeOf]; rfl

@[simp] theorem State.commanded_chan (n : ChannelId) : (s.commanded c).part.chan n = (s.verdict c).part.chan n := by
  rw [State.commanded, State.forwarded_chan, Part.takeCommand_codeOf, Verdict.conclude_chan]
@[simp] theorem State.commanded_weather : (s.commanded c).part.weather = (s.verdict c).part.weather := by
  rw [State.commanded, State.forwarded_weather, Part.takeCommand_codeOf, Verdict.conclude_weather]
@[simp] theorem State.commanded_globals : (s.commanded c).part.globals = (s.verdict c).part.globals := by
  rw [State.commanded, State.forwarded_globals, Part.takeCommand_codeOf, Verdict.conclude_globals]
@[simp] theorem State.commanded_zones : (s.commanded c).part.zones = (s.verdict c).part.zones := by
  rw [State.commanded, State.forwarded_zones, Part.takeCommand_codeOf, Verdict.conclude_zones]
@[simp] theorem State.commanded_zone (z : ZoneId) : (s.commanded c).part.zone z = (s.verdict c).part.zone z := by
  rw [Part.zone, State.commanded_zones]; rfl
@[simp] theorem State.commanded_ga : (s.commanded c).part.ga = (s.verdict c).part.ga := by
  rw [State.commanded, State.forwarded_ga, Part.takeCommand_codeOf, Verdict.conclude_ga]
@[simp] theorem State.commanded_notices : (s.commanded c).part.notices = (s.verdict c).part.notices := by
  rw [State.commanded, State.forwarded_notices, Part.takeCommand_codeOf, Verdict.conclude_notices]
@[simp] theorem State.commanded_noticeAcks : (s.commanded c).part.noticeAcks = (s.verdict c).part.noticeAcks := by
  rw [State.commanded, State.forwarded_noticeAcks, Part.takeCommand_codeOf, Verdict.conclude_noticeAcks]

theorem State.commanded_cmd : (s.commanded c).part.cmd = (s.verdict c).part.cmd.conclude (codeOf c) (s.verdict c) := by
  rw [State.commanded, State.forwarded_cmd, Part.takeCommand_codeOf, Verdict.conclude_cmd]

theorem State.commanded_bank_of_ne {b : BankId} (h : b ≠ .gate) : (s.commanded c).part.bank b = (s.verdict c).part.bank b := by
  rw [State.commanded, State.forwarded_bank, Part.takeCommand_codeOf, Verdict.conclude_bank_of_ne _ _ h]

theorem State.commanded_bank_done (h : (s.verdict c).refusal = none) (b : BankId) :
    (s.commanded c).part.bank b = (s.verdict c).part.bank b := by
  rw [State.commanded, State.forwarded_bank, Part.takeCommand_codeOf, Verdict.conclude_bank_done _ _ h]

theorem State.commanded_bank_refused {r : Reason} (h : (s.verdict c).refusal = some r) :
    (s.commanded c).part.bank .gate =
      (((s.verdict c).part.bank .gate).take (refusalRecord (some c) r (s.verdict c).subject)).count := by
  rw [State.commanded, State.forwarded_bank, Part.takeCommand_codeOf, Verdict.conclude_bank_refused _ _ h,
    commandOfCode_codeOf]

/-- The lines as quieting complete leaves those of the decision (R134). -/
theorem State.commanded_line_eq (l : LineId) :
    (s.commanded c).part.line l = (s.verdict c).part.completeQuieting.line l := by
  have rest := Part.atRest_congr (Verdict.conclude_line (s.verdict c) (codeOf c) l) (Verdict.conclude_chans ..)
  rw [State.commanded, State.forwarded_part, Part.takeCommand_codeOf, Part.line_completeQuieting, Part.line_completeQuieting,
    rest, Verdict.conclude_line, Verdict.conclude_now]

theorem State.commanded_line {l : LineId} (h : ((s.verdict c).part.line l).state ≠ .quieting) :
    (s.commanded c).part.line l = (s.verdict c).part.line l := by
  rw [State.commanded_line_eq, Part.line_completeQuieting, if_neg fun k => h k.1]

theorem State.commanded_writesOnly : s.WritesOnly (s.commanded c) (s.bus.addressOf 0x1D0) := State.forwarded_writesOnly ..

theorem State.commanded_wordAt : (s.commanded c).bus.wordAt (s.bus.addressOf 0x1D0) = codeOf c := State.forwarded_wordAt ..

theorem State.commanded_done (h : (s.verdict c).refusal = none) : (s.commanded c).part.cmd.outcome = .done := by
  rw [State.commanded_cmd, CommandUnit.conclude, h]; rfl

theorem State.commanded_refused {r : Reason} (h : (s.verdict c).refusal = some r) :
    (s.commanded c).part.cmd.outcome = .refused ∧ (s.commanded c).part.cmd.reason = some r := by
  rw [State.commanded_cmd, CommandUnit.conclude, h]; exact ⟨rfl, rfl⟩

/-- A refusal on the part as the command found it: only the GATE bank and the command status change. -/
theorem State.commanded_of_refused {r : Reason} (h : s.verdict c = refused (s.grant.part.interrupt (some c)) r) :
    s.grant.part.SameBanksBut (s.commanded c).part .gate ∧ s.part.SameChans (s.commanded c).part ∧
      s.part.SameLines (s.commanded c).part ∧ s.part.SameZones (s.commanded c).part ∧
      (s.commanded c).part.weather = s.part.weather ∧ (s.commanded c).part.globals = s.part.globals ∧
      s.part.SameNotices (s.commanded c).part := by
  refine ⟨fun b hb => ?_, fun n => ?_, fun l hl => ?_, ⟨?_, ?_⟩, ?_, ?_, ?_, ?_⟩
  · rw [State.commanded_bank_of_ne _ _ hb, h]; exact Part.interrupt_bank_of_ne _ _ hb
  · rw [State.commanded_chan, h]; simp
  · rw [State.commanded_line _ _ (by rw [h]; simpa using hl), h]; simp
  all_goals simp [h]

end

end Sys2Proof.Machine
end

section
/-! SUPPORT. LINE_STATE (R126, R133 to R135, R137, R149, R175). -/

namespace Sys2Proof.Machine

/-! ## A line disabled (R135) -/

section
variable (p : Part) {l : LineId}

theorem Part.disableLine_of_disabled (h : (p.line l).state = .disabled) : p.disableLine l = p := by
  unfold Part.disableLine; rw [h]

theorem Part.disableLine_of_failed (h : (p.line l).state = .failed) : p.disableLine l = p.enterLine l .disabled := by
  unfold Part.disableLine; rw [h]

theorem Part.disableLine_eq (hd : (p.line l).state ≠ .disabled) (hf : (p.line l).state ≠ .failed) :
    p.disableLine l = (p.clearLine l).enterLine l .disabled := by
  unfold Part.disableLine
  cases h : (p.line l).state with
  | disabled => exact absurd h hd
  | failed => exact absurd h hf
  | _ => rfl

theorem Part.enterLine_line (s : LineState) (k : LineId) :
    (p.enterLine l s).line k = if k = l then (p.line l).enter p.now s else p.line k := p.line_modLine l k _

/-- The other lines stand. -/
theorem Part.disableLine_line_of_ne {k : LineId} (h : k ≠ l) : (p.disableLine l).line k = p.line k := by
  by_cases hd : (p.line l).state = .disabled
  · rw [p.disableLine_of_disabled hd]
  · by_cases hf : (p.line l).state = .failed
    · rw [p.disableLine_of_failed hf, Part.enterLine_line, if_neg h]
    · rw [p.disableLine_eq hd hf, Part.enterLine_line, if_neg h, Part.clearLine_line, if_neg h]

theorem Part.disableLine_state : ((p.disableLine l).line l).state = .disabled := by
  by_cases hd : (p.line l).state = .disabled
  · rw [p.disableLine_of_disabled hd, hd]
  · by_cases hf : (p.line l).state = .failed
    · rw [p.disableLine_of_failed hf, Part.enterLine_line, if_pos rfl]; rfl
    · rw [p.disableLine_eq hd hf, Part.enterLine_line, if_pos rfl]; rfl

/-- Channels not bound to the line stand. -/
theorem Part.disableLine_chan_of_unbound {n : ChannelId} (h : (p.chan n).boundTo l = false) :
    (p.disableLine l).chan n = p.chan n := by
  by_cases hd : (p.line l).state = .disabled
  · rw [p.disableLine_of_disabled hd]
  · by_cases hf : (p.line l).state = .failed
    · rw [p.disableLine_of_failed hf]; rfl
    · rw [p.disableLine_eq hd hf, Part.enterLine, Part.modLine_chan, Part.clearLine_chan, h]; rfl

theorem Part.disableLine_bank_of_ne {b : BankId} (hc : b ≠ .channel) (hl : b ≠ .line l) :
    (p.disableLine l).bank b = p.bank b := by
  by_cases hd : (p.line l).state = .disabled
  · rw [p.disableLine_of_disabled hd]
  · by_cases hf : (p.line l).state = .failed
    · rw [p.disableLine_of_failed hf]; rfl
    · rw [p.disableLine_eq hd hf, Part.enterLine, Part.modLine_bank, Part.clearLine_bank_of_ne _ _ hc hl]

/-- A line already out of service: no channel and no bank is touched. -/
theorem Part.disableLine_of_out (h : (p.line l).state = .disabled ∨ (p.line l).state = .failed) :
    (∀ n, (p.disableLine l).chan n = p.chan n) ∧ ∀ b, (p.disableLine l).bank b = p.bank b := by
  rcases h with h | h
  · rw [p.disableLine_of_disabled h]; exact ⟨fun _ => rfl, fun _ => rfl⟩
  · rw [p.disableLine_of_failed h]; exact ⟨fun _ => rfl, fun _ => rfl⟩

/-- The disablement reaches neither zones nor weather. -/
theorem Part.disableLine_keeps : p.KeepsGrants (p.disableLine l) := (Part.KeepsGrants.refl p).disableLine l

end

/-- At rest, spelled out (R134). -/
theorem Part.atRest_iff (p : Part) (l : LineId) :
    p.atRest l = true ↔ (p.line l).exchange = none ∧ ∀ n : ChannelId, (p.chan n).boundTo l = true →
      (p.chan n).motion ≠ .moving ∧ (p.chan n).motion ≠ .halting := by
  simp only [Part.atRest, Bool.and_eq_true, Option.isNone_iff_eq_none, List.all_eq_true, Part.mem_boundChannels,
    decide_eq_true_iff]

/-- The errors of channels read the channels alone. -/
theorem offlineErrors_congr {p q : Part} (h : ∀ n, q.chan n = p.chan n) (due : ChannelId → Bool) :
    offlineErrors q due = offlineErrors p due := by
  simp only [offlineErrors, h]

theorem Part.anyLatch_iff (p : Part) : p.anyLatch = true ↔ ∃ z : ZoneId, (p.zone z).latch = true := by
  simp [Part.anyLatch, allZones]

/-! ## The decision -/

section
variable (s : State)

/-- The part that a LINE_STATE row decides on. -/
def State.atLineState : Part := s.grant.part.interrupt (some .lineState)

@[simp] theorem State.atLineState_chan (n : ChannelId) : s.atLineState.chan n = s.part.chan n := by simp [State.atLineState]
@[simp] theorem State.atLineState_line (l : LineId) : s.atLineState.line l = s.part.line l := by simp [State.atLineState]
@[simp] theorem State.atLineState_zones : s.atLineState.zones = s.part.zones := by simp [State.atLineState]
@[simp] theorem State.atLineState_ga : s.atLineState.ga = s.part.ga := by simp [State.atLineState]
@[simp] theorem State.atLineState_weather : s.atLineState.weather = s.part.weather := by simp [State.atLineState]
@[simp] theorem State.atLineState_now : s.atLineState.now = s.part.now := by
  rw [State.atLineState, Part.interrupt_now]; exact s.grant_part.2.2.2.2.2.2.2.2.2
theorem State.atLineState_bank {b : BankId} (h : b ≠ .gate) : s.atLineState.bank b = s.grant.part.bank b :=
  Part.interrupt_bank_of_ne _ _ h
@[simp] theorem State.atLineState_anyLatch : s.atLineState.anyLatch = s.part.anyLatch := by
  simp [State.atLineState, Part.anyLatch]
@[simp] theorem State.atLineState_atRest (l : LineId) : s.atLineState.atRest l = s.part.atRest l := by
  simp [Part.atRest, Part.boundChannels]
theorem State.atLineState_arg (i : Fin 3) : s.atLineState.arg i = s.part.cmd.args[i.val] := by
  rw [State.atLineState, Part.interrupt_arg, Part.arg, State.grant_cmd]

theorem lineOfArgument_ofNat (l : LineId) : lineOfArgument (BitVec.ofNat 16 l.val) = some l := by revert l; decide

/-- An argument that names no line or no state. -/
theorem State.verdict_lineState_bad (h : 4 ≤ s.part.cmd.args[0].toNat ∨ 3 ≤ s.part.cmd.args[1].toNat) :
    s.verdict .lineState = refused s.atLineState .badArg := by
  show s.atLineState.lineStateCommand = _
  unfold Part.lineStateCommand
  rw [State.atLineState_arg, State.atLineState_arg]
  rcases h with h | h
  · have none : lineOfArgument s.part.cmd.args[(0 : Fin 3).val] = none := dif_neg (Nat.not_lt.2 h)
    rw [none]
  · have none : lineRequestOfArgument s.part.cmd.args[(1 : Fin 3).val] = none := by
      unfold lineRequestOfArgument
      split
      · next e => exact absurd (e ▸ h) (by decide)
      · next e => exact absurd (e ▸ h) (by decide)
      · next e => exact absurd (e ▸ h) (by decide)
      · rfl
    rw [none]
    cases lineOfArgument s.part.cmd.args[(0 : Fin 3).val] <;> rfl

variable {l : LineId} (hl : s.part.cmd.args[0] = BitVec.ofNat 16 l.val)
include hl

theorem State.verdict_lineState_run (hw : s.part.cmd.args[1] = 0) : s.verdict .lineState = s.atLineState.lineToRun l := by
  show s.atLineState.lineStateCommand = _
  have h1 : s.atLineState.arg 1 = 0 := (s.atLineState_arg 1).trans hw
  unfold Part.lineStateCommand
  rw [(s.atLineState_arg 0).trans hl, h1, lineOfArgument_ofNat]
  rfl

theorem State.verdict_lineState_quiet (hw : s.part.cmd.args[1] = 1) :
    s.verdict .lineState =
      if s.part.anyLatch then refused s.atLineState .smokeActive else s.atLineState.lineToQuiet l := by
  show s.atLineState.lineStateCommand = _
  have h1 : s.atLineState.arg 1 = 1 := (s.atLineState_arg 1).trans hw
  unfold Part.lineStateCommand
  rw [(s.atLineState_arg 0).trans hl, h1, lineOfArgument_ofNat, ← s.atLineState_anyLatch]
  rfl

theorem State.verdict_lineState_disabled (hw : s.part.cmd.args[1] = 2) :
    s.verdict .lineState = done (s.atLineState.disableLine l) := by
  show s.atLineState.lineStateCommand = _
  have h1 : s.atLineState.arg 1 = 2 := (s.atLineState_arg 1).trans hw
  unfold Part.lineStateCommand
  rw [(s.atLineState_arg 0).trans hl, h1, lineOfArgument_ofNat]
  rfl

end

section
variable (p : Part) {l : LineId}

theorem Part.lineToRun_of_run (h : (p.line l).state = .run) : p.lineToRun l = done p := by
  unfold Part.lineToRun; rw [h]
theorem Part.lineToRun_of_rest (h : (p.line l).state = .quieting ∨ (p.line l).state = .quiet) :
    p.lineToRun l = done (p.enterLine l .run) := by
  unfold Part.lineToRun; rcases h with h | h <;> rw [h]
theorem Part.lineToRun_of_disabled (h : (p.line l).state = .disabled) : p.lineToRun l = done (p.restartLine l) := by
  unfold Part.lineToRun; rw [h]
theorem Part.lineToRun_of_wrong (h : (p.line l).state = .test ∨ (p.line l).state = .failed) :
    p.lineToRun l = refused p .wrongState := by
  unfold Part.lineToRun; rcases h with h | h <;> rw [h]

theorem Part.lineToQuiet_of_run (h : (p.line l).state = .run) : p.lineToQuiet l = done (p.enterLine l .quieting) := by
  unfold Part.lineToQuiet; rw [h]
theorem Part.lineToQuiet_of_rest (h : (p.line l).state = .quieting ∨ (p.line l).state = .quiet) :
    p.lineToQuiet l = done p := by
  unfold Part.lineToQuiet; rcases h with h | h <;> rw [h]
theorem Part.lineToQuiet_of_wrong (h : (p.line l).state = .test ∨ (p.line l).state = .disabled ∨ (p.line l).state = .failed) :
    p.lineToQuiet l = refused p .wrongState := by
  unfold Part.lineToQuiet; rcases h with h | h | h <;> rw [h]

/-- What LINE_STATE RUN and QUIET leave of the rest of the part. -/
structure Part.OnlyLine (p q : Part) (l : LineId) : Prop where
  line : ∀ k, k ≠ l → q.line k = p.line k
  zones : q.zones = p.zones
  ga : q.ga = p.ga
  weather : q.weather = p.weather

theorem Part.OnlyLine.refl (p : Part) (l : LineId) : p.OnlyLine p l := ⟨fun _ _ => rfl, rfl, rfl, rfl⟩
theorem Part.OnlyLine.enterLine (p : Part) (l : LineId) (s : LineState) : p.OnlyLine (p.enterLine l s) l :=
  ⟨fun k h => by rw [Part.enterLine_line, if_neg h], rfl, rfl, rfl⟩
theorem Part.OnlyLine.restartLine (p : Part) (l : LineId) : p.OnlyLine (p.restartLine l) l := by
  have keeps := (Part.KeepsGrants.refl p).restartLine l
  exact ⟨fun k h => by rw [Part.restartLine_line, if_neg h], keeps.zones, keeps.ga, keeps.weather⟩

theorem Part.lineToRun_only (l : LineId) : p.OnlyLine (p.lineToRun l).part l := by
  unfold Part.lineToRun
  split
  · exact .refl p l
  · exact .enterLine p l _
  · exact .enterLine p l _
  · exact .restartLine p l
  · exact .refl p l
  · exact .refl p l

theorem Part.lineToQuiet_only (l : LineId) : p.OnlyLine (p.lineToQuiet l).part l := by
  unfold Part.lineToQuiet
  split
  · exact .enterLine p l _
  all_goals exact .refl p l

theorem Part.lineToQuiet_chan (l : LineId) (n : ChannelId) : (p.lineToQuiet l).part.chan n = p.chan n := by
  unfold Part.lineToQuiet; split <;> rfl

theorem Part.lineToRun_chan {l : LineId} (h : (p.line l).state ≠ .disabled) (n : ChannelId) :
    (p.lineToRun l).part.chan n = p.chan n := by
  unfold Part.lineToRun
  split
  case h_4 e => exact absurd e h
  all_goals rfl

end

/-- What a row that decides on one line alone leaves as it was. -/
theorem State.commanded_onlyLine (s : State) {l : LineId} (h : s.atLineState.OnlyLine (s.verdict .lineState).part l) :
    (∀ k : LineId, k ≠ l → (s.part.line k).state ≠ .quieting →
      (s.commanded .lineState).part.line k = s.part.line k) ∧
    s.part.SameZones (s.commanded .lineState).part ∧ (s.commanded .lineState).part.weather = s.part.weather ∧
    s.WritesOnly (s.commanded .lineState) (s.bus.addressOf 0x1D0) := by
  refine ⟨fun k hk hq => ?_, ⟨?_, ?_⟩, ?_, s.commanded_writesOnly _⟩
  · have same : (s.verdict .lineState).part.line k = s.part.line k := by rw [h.line k hk, State.atLineState_line]
    rw [State.commanded_line _ _ (by rwa [same]), same]
  · rw [State.commanded_zones, h.zones, State.atLineState_zones]
  · rw [State.commanded_ga, h.ga, State.atLineState_ga]
  · rw [State.commanded_weather, h.weather, State.atLineState_weather]

end Sys2Proof.Machine
end

section
/-! SUPPORT. LINE_STATE, row by row (R133 to R135, R175). -/

namespace Sys2Proof.Machine

section
variable {s : State} (hr : s.bus.rstn = false)
include hr

theorem exec_lineState {c : Instr} (hc : c = .lineStateRun ∨ c = .lineStateQuiet ∨ c = .lineStateDisabled) :
    exec c s = .next (s.commanded .lineState) := by
  rw [← State.writeCommand_eq_commanded _ hr]
  rcases hc with rfl | rfl | rfl <;> rfl

theorem lineState_badArg (bad : 4 ≤ s.part.cmd.args[0].toNat ∨ 3 ≤ s.part.cmd.args[1].toNat) {c : Instr}
    (hc : c = .lineStateRun ∨ c = .lineStateQuiet ∨ c = .lineStateDisabled) :
    ∃ t, exec c s = .next t ∧
      t.part.cmd.outcome = .refused ∧ t.part.cmd.reason = some .badArg ∧
      t.part.bank .gate = ((gateAfterAbandonment s.grant.part).take
        ⟨.notice, .commandRefused, none, some (.reason .badArg)⟩).count ∧
      s.grant.part.SameBanksBut t.part .gate ∧ s.part.SameChans t.part ∧ s.part.SameLines t.part ∧ s.part.SameZones t.part ∧
      t.part.weather = s.part.weather ∧ t.part.globals = s.part.globals ∧ s.part.SameNotices t.part ∧
      s.WritesOnly t (s.bus.addressOf 0x1D0) := by
  have verdict := s.verdict_lineState_bad bad
  have refusal : (s.verdict .lineState).refusal = some .badArg := by rw [verdict]; rfl
  obtain ⟨banks, chans, lines, zones, weather, globals, notices⟩ := s.commanded_of_refused _ verdict
  obtain ⟨outcome, reason⟩ := s.commanded_refused _ refusal
  refine ⟨_, exec_lineState hr hc, outcome, reason, ?_, banks, chans, lines, zones, weather, globals, notices,
    s.commanded_writesOnly _⟩
  rw [State.commanded_bank_refused _ _ refusal, verdict, ← Part.interrupt_bank_gate _ (some .lineState) rfl]
  rfl

variable {l : LineId} (hl : s.part.cmd.args[0] = BitVec.ofNat 16 l.val)
include hl

theorem lineState_run (hw : s.part.cmd.args[1] = 0) :
    let x := s.part.line l
    ∃ t, exec .lineStateRun s = .next t ∧
      (x.state ≠ .test → x.state ≠ .failed → t.part.cmd.outcome = .done ∧ (t.part.line l).state = .run) ∧
      (x.state = .run → t.part.line l = x) ∧
      (x.state = .quieting ∨ x.state = .quiet →
        (t.part.line l).urgent = x.urgent ∧ (t.part.line l).routine = x.routine ∧
        (t.part.line l).exchange = x.exchange ∧ (t.part.line l).pollPos = x.pollPos ∧
        (t.part.line l).supPos = x.supPos ∧ (t.part.line l).clock = some (s.part.now + 250) ∧
        (t.part.line l).watch = x.watch) ∧
      (x.state = .disabled →
        (t.part.line l).exchange = none ∧ (t.part.line l).retake = none ∧ (t.part.line l).pollPos = none ∧
        (t.part.line l).supPos = none ∧ (t.part.line l).clock = some (s.part.now + 250) ∧
        (t.part.line l).watch = .stuck s.part.now ∧
        ∀ n : ChannelId, (s.part.chan n).boundTo l = true → supervised (s.part.chan n).motion = true →
          (t.part.chan n).supDue = true) ∧
      (x.state = .test ∨ x.state = .failed →
        t.part.cmd.outcome = .refused ∧ t.part.cmd.reason = some .wrongState ∧ t.part.line l = x) ∧
      (x.state ≠ .disabled → s.part.SameChans t.part) ∧
      (∀ k : LineId, k ≠ l → (s.part.line k).state ≠ .quieting → t.part.line k = s.part.line k) ∧
      s.part.SameZones t.part ∧ t.part.weather = s.part.weather ∧ s.WritesOnly t (s.bus.addressOf 0x1D0) := by
  dsimp only
  have verdict := s.verdict_lineState_run hl hw
  have only := s.commanded_onlyLine (l := l) (by rw [verdict]; exact s.atLineState.lineToRun_only l)
  have atLine := s.atLineState_line l
  -- where the decision leaves the line in RUN, the end of the event does too
  have line {y : Line} (h : ((s.verdict .lineState).part.line l) = y) (hy : y.state = .run) :
      (s.commanded .lineState).part.line l = y := by
    rw [State.commanded_line _ _ (by rw [h, hy]; exact LineState.noConfusion), h]
  have atRun (h : (s.part.line l).state = .run) : s.verdict .lineState = done s.atLineState := by
    rw [verdict, Part.lineToRun_of_run _ (by rwa [atLine])]
  have atRest (h : (s.part.line l).state = .quieting ∨ (s.part.line l).state = .quiet) :
      s.verdict .lineState = done (s.atLineState.enterLine l .run) := by
    rw [verdict, Part.lineToRun_of_rest _ (by rwa [atLine])]
  have atDisabled (h : (s.part.line l).state = .disabled) :
      s.verdict .lineState = done (s.atLineState.restartLine l) := by
    rw [verdict, Part.lineToRun_of_disabled _ (by rwa [atLine])]
  have runLine (h : (s.part.line l).state = .run) : (s.commanded .lineState).part.line l = s.part.line l :=
    line (by rw [atRun h]; exact atLine) h
  have restLine (h : (s.part.line l).state = .quieting ∨ (s.part.line l).state = .quiet) :
      (s.commanded .lineState).part.line l = (s.part.line l).enter s.part.now .run :=
    line (by rw [atRest h, Verdict.done_part, Part.enterLine_line, if_pos rfl, atLine, State.atLineState_now]) rfl
  have disabledLine (h : (s.part.line l).state = .disabled) :
      (s.commanded .lineState).part.line l = (s.part.line l).restarted s.part.now :=
    line (by rw [atDisabled h, Verdict.done_part, Part.restartLine_line, if_pos rfl, atLine, State.atLineState_now]) rfl
  refine ⟨_, exec_lineState hr (.inl rfl), fun ht hf => ?_, runLine, fun h => ?_, fun h => ?_, fun h => ?_, fun h => ?_, only⟩
  · cases hx : (s.part.line l).state with
    | run => exact ⟨s.commanded_done _ (by rw [atRun hx]; rfl), by rw [runLine hx, hx]⟩
    | quieting => exact ⟨s.commanded_done _ (by rw [atRest (.inl hx)]; rfl), by rw [restLine (.inl hx)]; rfl⟩
    | quiet => exact ⟨s.commanded_done _ (by rw [atRest (.inr hx)]; rfl), by rw [restLine (.inr hx)]; rfl⟩
    | disabled => exact ⟨s.commanded_done _ (by rw [atDisabled hx]; rfl), by rw [disabledLine hx]; rfl⟩
    | test => exact absurd hx ht
    | failed => exact absurd hx hf
  · rw [restLine h]
    refine ⟨rfl, rfl, rfl, rfl, rfl, rfl, ?_⟩
    rcases h with h | h <;> rw [Line.enter, h]
  · rw [disabledLine h]
    refine ⟨rfl, rfl, rfl, rfl, rfl, ?_, fun n hn hs => ?_⟩
    · simp only [Line.restarted, Line.enter, h]
    · rw [State.commanded_chan, atDisabled h, Verdict.done_part, Part.restartLine_chan, State.atLineState_chan, if_pos hn,
        Channel.supervisedAtOnce, if_pos hs]
  · have wrong : s.verdict .lineState = refused s.atLineState .wrongState := by
      rw [verdict, Part.lineToRun_of_wrong _ (by rwa [atLine])]
    obtain ⟨outcome, reason⟩ := s.commanded_refused (r := .wrongState) _ (by rw [wrong]; rfl)
    refine ⟨outcome, reason, (s.commanded_line _ ?_).trans ?_⟩
    · rw [wrong, Verdict.refused_part, atLine]
      rcases h with h | h <;> rw [h] <;> exact LineState.noConfusion
    · rw [wrong]; exact atLine
  · intro n
    rw [State.commanded_chan, verdict, Part.lineToRun_chan _ (by rwa [atLine]), State.atLineState_chan]

theorem lineState_quiet (hw : s.part.cmd.args[1] = 1) :
    let x := s.part.line l
    ∃ t, exec .lineStateQuiet s = .next t ∧
      ((∃ z : ZoneId, (s.part.zone z).latch = true) →
        t.part.cmd.outcome = .refused ∧ t.part.cmd.reason = some .smokeActive ∧
        (x.state ≠ .quieting → t.part.line l = x)) ∧
      ((∀ z : ZoneId, (s.part.zone z).latch = false) → x.state = .run →
        t.part.cmd.outcome = .done ∧
        (t.part.line l).state =
          (if x.exchange = none ∧ ∀ n : ChannelId, (s.part.chan n).boundTo l = true →
            (s.part.chan n).motion ≠ .moving ∧ (s.part.chan n).motion ≠ .halting then .quiet else .quieting) ∧
        (t.part.line l).urgent = x.urgent ∧ (t.part.line l).routine = x.routine) ∧
      ((∀ z : ZoneId, (s.part.zone z).latch = false) → x.state = .quieting →
        t.part.cmd.outcome = .done ∧ (s.part.atRest l = false → t.part.line l = x) ∧
        (s.part.atRest l = true → (t.part.line l).state = .quiet)) ∧
      ((∀ z : ZoneId, (s.part.zone z).latch = false) → x.state = .quiet →
        t.part.cmd.outcome = .done ∧ t.part.line l = x) ∧
      ((∀ z : ZoneId, (s.part.zone z).latch = false) → x.state = .test ∨ x.state = .disabled ∨ x.state = .failed →
        t.part.cmd.outcome = .refused ∧ t.part.cmd.reason = some .wrongState ∧ t.part.line l = x) ∧
      s.part.SameChans t.part ∧
      (∀ k : LineId, k ≠ l → (s.part.line k).state ≠ .quieting → t.part.line k = s.part.line k) ∧
      s.part.SameZones t.part ∧ t.part.weather = s.part.weather ∧ s.WritesOnly t (s.bus.addressOf 0x1D0) := by
  dsimp only
  have verdict := s.verdict_lineState_quiet hl hw
  have only := s.commanded_onlyLine (l := l) (by
    rw [verdict]
    split
    · exact .refl _ l
    · exact s.atLineState.lineToQuiet_only l)
  have atLine := s.atLineState_line l
  have unlatched (h : ∀ z : ZoneId, (s.part.zone z).latch = false) :
      s.verdict .lineState = s.atLineState.lineToQuiet l := by
    rw [verdict, if_neg fun k => ?_]
    obtain ⟨z, hz⟩ := s.part.anyLatch_iff.1 k
    exact Bool.noConfusion (hz.symm.trans (h z))
  have stands {r : Verdict} (h : s.verdict .lineState = r) (hp : r.part = s.atLineState)
      (hq : (s.part.line l).state ≠ .quieting) : (s.commanded .lineState).part.line l = s.part.line l := by
    have same : (s.verdict .lineState).part.line l = s.part.line l := by rw [h, hp, atLine]
    rw [State.commanded_line _ _ (by rwa [same]), same]
  refine ⟨_, exec_lineState hr (.inr (.inl rfl)), fun latched => ?_, fun free h => ?_, fun free h => ?_, fun free h => ?_,
    fun free h => ?_, fun n => ?_, only⟩
  · have active : s.verdict .lineState = refused s.atLineState .smokeActive := by
      rw [verdict, if_pos (s.part.anyLatch_iff.2 latched)]
    obtain ⟨outcome, reason⟩ := s.commanded_refused (r := .smokeActive) _ (by rw [active]; rfl)
    exact ⟨outcome, reason, stands active rfl⟩
  · have quieting : s.verdict .lineState = done (s.atLineState.enterLine l .quieting) := by
      rw [unlatched free, Part.lineToQuiet_of_run _ (by rwa [atLine])]
    have entered : (s.atLineState.enterLine l .quieting).line l = (s.part.line l).enter s.part.now .quieting := by
      rw [Part.enterLine_line, if_pos rfl, atLine, State.atLineState_now]
    have rest : (s.atLineState.enterLine l .quieting).atRest l = s.part.atRest l := by
      rw [← s.atLineState_atRest l]
      simp only [Part.atRest, Part.boundChannels, Part.enterLine, Part.modLine_chan, Part.line_modLine_self]
      rfl
    obtain ⟨hu, hro, -⟩ := Part.completeQuieting_line_fields (s.atLineState.enterLine l .quieting) l
    rw [State.commanded_line_eq, quieting, Verdict.done_part, hu, hro, entered]
    refine ⟨s.commanded_done _ (by rw [quieting]; rfl), ?_, rfl, rfl⟩
    rw [Part.line_completeQuieting, entered, rest]
    by_cases still : s.part.atRest l = true
    · rw [if_pos ⟨rfl, still⟩, if_pos ((Part.atRest_iff _ l).1 still)]; rfl
    · rw [if_neg fun k => still k.2, if_neg fun k => still ((Part.atRest_iff _ l).2 k)]; rfl
  · have done_ : s.verdict .lineState = done s.atLineState := by
      rw [unlatched free, Part.lineToQuiet_of_rest _ (by rw [atLine]; exact .inl h)]
    rw [State.commanded_line_eq, done_, Verdict.done_part, Part.line_completeQuieting, atLine, s.atLineState_atRest]
    exact ⟨s.commanded_done _ (by rw [done_]; rfl), fun busy => if_neg fun k => Bool.noConfusion (busy.symm.trans k.2),
      fun still => by rw [if_pos ⟨h, still⟩]; rfl⟩
  · have done_ : s.verdict .lineState = done s.atLineState := by
      rw [unlatched free, Part.lineToQuiet_of_rest _ (by rw [atLine]; exact .inr h)]
    exact ⟨s.commanded_done _ (by rw [done_]; rfl), stands done_ rfl (by rw [h]; exact LineState.noConfusion)⟩
  · have wrong : s.verdict .lineState = refused s.atLineState .wrongState := by
      rw [unlatched free, Part.lineToQuiet_of_wrong _ (by rwa [atLine])]
    obtain ⟨outcome, reason⟩ := s.commanded_refused (r := .wrongState) _ (by rw [wrong]; rfl)
    refine ⟨outcome, reason, stands wrong rfl ?_⟩
    rcases h with h | h | h <;> rw [h] <;> exact LineState.noConfusion
  · rw [State.commanded_chan, verdict, ← s.atLineState_chan n]
    split
    · rfl
    · exact s.atLineState.lineToQuiet_chan l n

theorem lineState_disabled (hw : s.part.cmd.args[1] = 2) :
    let x := s.part.line l
    ∃ t, exec .lineStateDisabled s = .next t ∧
      t.part.cmd.outcome = .done ∧ (t.part.line l).state = .disabled ∧
      (x.state ≠ .disabled → x.state ≠ .failed →
        (t.part.line l).urgent = [] ∧ (t.part.line l).routine = [] ∧ (t.part.line l).exchange = none ∧
        (t.part.line l).retake = none ∧ (t.part.line l).clock = none ∧ (t.part.line l).watch = .off ∧
        (x.state = .test → (t.part.line l).test.result = some .aborted) ∧
        t.part.bank (.line l) =
          (if x.state = .test then
            ((s.grant.part.bank (.line l)).take ⟨.notice, .testAborted, some (.line l), none⟩).count
          else s.grant.part.bank (.line l)) ∧
        t.part.bank .channel = (s.grant.part.bank .channel).takeAll
          (offlineErrors s.part (fun n => (s.part.chan n).boundTo l && working (s.part.chan n).motion)) ∧
        ∀ n : ChannelId, (s.part.chan n).boundTo l = true →
          ((s.part.chan n).motion = .faulted ∨ (s.part.chan n).motion = .offline → t.part.chan n = s.part.chan n) ∧
          ((s.part.chan n).motion = .idle ∨ (s.part.chan n).motion = .queued ∨ (s.part.chan n).motion = .ordering ∨
            (s.part.chan n).motion = .moving ∨ (s.part.chan n).motion = .halting →
            (t.part.chan n).motion = .offline ∧ (t.part.chan n).position = none ∧ (t.part.chan n).report = none ∧
            (t.part.chan n).travel = none ∧ (t.part.chan n).miss = 0 ∧ (t.part.chan n).shortMark = false)) ∧
      (x.state = .disabled ∨ x.state = .failed → s.part.SameChans t.part ∧ s.grant.part.SameBanksBut t.part .gate) ∧
      (∀ b : BankId, b ≠ .gate → b ≠ .channel → b ≠ .line l → t.part.bank b = s.grant.part.bank b) ∧
      (∀ n : ChannelId, (s.part.chan n).boundTo l = false → t.part.chan n = s.part.chan n) ∧
      (∀ k : LineId, k ≠ l → (s.part.line k).state ≠ .quieting →
        (t.part.line k).state = (s.part.line k).state ∧ (t.part.line k).exchange = (s.part.line k).exchange) ∧
      s.part.SameZones t.part ∧ t.part.weather = s.part.weather ∧ s.WritesOnly t (s.bus.addressOf 0x1D0) := by
  dsimp only
  have verdict := s.verdict_lineState_disabled hl hw
  have atLine := s.atLineState_line l
  have state := s.atLineState.disableLine_state (l := l)
  have keeps := s.atLineState.disableLine_keeps (l := l)
  obtain ⟨others, zones, weather, writes⟩ := s.commanded_onlyLine (l := l) (by
    rw [verdict]
    exact ⟨fun k hk => Part.disableLine_line_of_ne _ hk, keeps.zones, keeps.ga, keeps.weather⟩)
  have line : (s.commanded .lineState).part.line l = (s.atLineState.disableLine l).line l := by
    rw [State.commanded_line _ _ (by rw [verdict, Verdict.done_part, state]; exact LineState.noConfusion), verdict]; rfl
  have bank {b : BankId} (hb : b ≠ .gate) : (s.commanded .lineState).part.bank b = (s.atLineState.disableLine l).bank b := by
    rw [State.commanded_bank_of_ne _ _ hb, verdict]; rfl
  have chan (n : ChannelId) : (s.commanded .lineState).part.chan n = (s.atLineState.disableLine l).chan n := by
    rw [State.commanded_chan, verdict]; rfl
  refine ⟨_, exec_lineState hr (.inr (.inr rfl)), s.commanded_done _ (by rw [verdict]; rfl), by rw [line, state],
    fun hd hf => ?_, fun out => ?_, fun b hg hc hb => ?_, fun n hn => ?_, fun k hk hq => ?_, zones, weather, writes⟩
  · have disabled := s.atLineState.disableLine_eq (l := l) (by rwa [atLine]) (by rwa [atLine])
    have own : (s.commanded .lineState).part.line l =
        ((s.part.line l).cleared s.part.now).aborted.enter s.part.now .disabled := by
      rw [line, disabled, Part.enterLine_line, if_pos rfl, Part.clearLine_line, if_pos rfl, Part.clearLine_now, atLine,
        State.atLineState_now]
    refine ⟨?_, ?_, ?_, ?_, ?_, ?_, fun ht => ?_, ?_, ?_, fun n hn => ⟨fun hm => ?_, fun hm => ?_⟩⟩
    iterate 6 rw [own, Line.cleared_aborted_eq]; rfl
    · rw [own, Line.cleared_aborted_eq]
      exact if_pos ht
    · rw [bank BankId.noConfusion, disabled, Part.enterLine, Part.modLine_bank, Part.clearLine_bank_line, atLine,
        State.atLineState_bank _ BankId.noConfusion]
      rfl
    · rw [bank BankId.noConfusion, disabled, Part.enterLine, Part.modLine_bank, Part.clearLine_bank_channel,
        State.atLineState_bank _ BankId.noConfusion, offlineErrors_congr s.atLineState_chan]
      simp only [State.atLineState_chan]
    · rw [chan, disabled, Part.enterLine, Part.modLine_chan, Part.clearLine_chan, s.atLineState_chan, if_pos hn,
        Channel.leftService_of_idle]
      rcases hm with hm | hm <;> rw [hm] <;> rfl
    · rw [chan, disabled, Part.enterLine, Part.modLine_chan, Part.clearLine_chan, s.atLineState_chan, if_pos hn]
      obtain ⟨h1, h2, h3, h4, -, h5, h6⟩ := Channel.leftService_of_working ((working_iff _).2 hm) s.atLineState.now
      exact ⟨h1, h2, h3, h4, h5, h6⟩
  · obtain ⟨chans, banks⟩ := s.atLineState.disableLine_of_out (l := l) (by rwa [atLine])
    exact ⟨fun n => by rw [chan, chans, s.atLineState_chan], fun b hb => by rw [bank hb, banks, s.atLineState_bank hb]⟩
  · rw [bank hg, Part.disableLine_bank_of_ne _ hc hb, s.atLineState_bank hg]
  · rw [chan, Part.disableLine_chan_of_unbound _ (by rwa [s.atLineState_chan]), s.atLineState_chan]
  · rw [others k hk hq]
    exact ⟨rfl, rfl⟩

end

/-- Settles O35: a refusal without a named line or state, and the three rows by the line's state. -/
theorem lineStateMovesTheNamedLine : Obligations.LineStateMovesTheNamedLine :=
  ⟨fun _ hr bad _ hc => lineState_badArg hr bad hc, fun _ _ hr hl =>
    ⟨lineState_run hr hl, lineState_quiet hr hl, lineState_disabled hr hl⟩⟩

end Sys2Proof.Machine
end

section
/-! SUPPORT. FAULT_CLEAR (R18, R19, R174). -/

namespace Sys2Proof.Machine

/-! ## A channel that leaves FAULTED (R18) -/

/-- Out of service: a line on which a channel that leaves FAULTED becomes OFFLINE. -/
def LineState.isOut (x : LineState) : Bool := decide (x = .disabled ∨ x = .failed)

/-- The record without its fault. -/
def Channel.unfaulted (c : Channel) : Channel :=
  { c with lastFault := c.fault, fault := none, miss := 0, shortMark := false }

/-- An IDLE channel tested against its tolerance (R99). -/
def Channel.tested (c : Channel) (now : Nat) : Channel :=
  if c.motion = .idle ∧ withinTolerance c c.granted = false ∧ c.granted ≠ none then c.enter now .queued else c

/-- R18: the record of a channel that leaves FAULTED. -/
def Channel.leftFaulted (c : Channel) (out : Bool) (now : Nat) : Channel :=
  if out then ({ c.unfaulted with position := none, report := none } : Channel).enter now .offline
  else (c.unfaulted.enter now .idle).tested now

/-- The record of a channel that FAULT_CLEAR names. -/
def Channel.cleared (c : Channel) (out : Bool) (now : Nat) : Channel :=
  if c.motion = .faulted then c.leftFaulted out now else c

/-- The errors that freeing a channel records (R18, R116). -/
def freeingErrors (out : Bool) (n : ChannelId) (c : Channel) : List ErrorRecord :=
  if decide (c.motion = .faulted) && out then [offlineRecord n c] else []

section
variable (p : Part) (n : ChannelId)

theorem Part.testIdle_chan_tested : (p.testIdle n).chan n = (p.chan n).tested p.now := p.testIdle_chan_self n

/-- On a line out of service the channel becomes OFFLINE; on one in service it is tested from IDLE. -/
theorem Part.leaveFaulted_eq :
    p.leaveFaulted n =
      if LineState.isOut (p.line (p.lineOf n)).state then
        (((p.modChan n Channel.unfaulted).forgetPosition n).setMotion n .offline).recordOffline n
      else ((p.modChan n Channel.unfaulted).setMotion n .idle).testIdle n := by
  unfold Part.leaveFaulted
  cases (p.line (p.lineOf n)).state <;> rfl

theorem Part.leaveFaulted_chan_self :
    (p.leaveFaulted n).chan n = (p.chan n).leftFaulted (LineState.isOut (p.line (p.lineOf n)).state) p.now := by
  rw [Part.leaveFaulted_eq, Channel.leftFaulted]
  split
  · show ((((p.modChan n Channel.unfaulted).forgetPosition n).setMotion n .offline)).chan n = _
    rw [Part.setMotion_chan_self, Part.forgetPosition, Part.chan_modChan_self, Part.chan_modChan_self]
    rfl
  · rw [Part.testIdle_chan_tested, Part.setMotion_chan_self, Part.chan_modChan_self]
    rfl

/-- What leaving FAULTED reaches besides its channel: its line's queue, and the channel bank's errors. -/
structure Part.Freeing (p q : Part) : Prop where
  state : ∀ l, (q.line l).state = (p.line l).state
  now : q.now = p.now
  bank : ∀ b, b ≠ .channel → q.bank b = p.bank b
  notices : q.notices = p.notices
  noticeAcks : q.noticeAcks = p.noticeAcks
  cfg : ∀ m, (q.chan m).cfg = (p.chan m).cfg

theorem Part.Freeing.refl (p : Part) : p.Freeing p := ⟨fun _ => rfl, rfl, fun _ _ => rfl, rfl, rfl, fun _ => rfl⟩

theorem Part.Freeing.trans {q r : Part} (h : p.Freeing q) (k : q.Freeing r) : p.Freeing r :=
  ⟨fun l => (k.state l).trans (h.state l), k.now.trans h.now, fun b hb => (k.bank b hb).trans (h.bank b hb),
    k.notices.trans h.notices, k.noticeAcks.trans h.noticeAcks, fun m => (k.cfg m).trans (h.cfg m)⟩

theorem Part.Freeing.leaveFaulted : p.Freeing (p.leaveFaulted n) := by
  have cfg := ((Part.KeepsGrants.refl p).leaveFaulted n).cfg
  have unfaulted : p.QueueWork n (p.modChan n Channel.unfaulted) := (Part.QueueWork.refl p).modChan _ fun _ => rfl
  rw [Part.leaveFaulted_eq] at cfg ⊢
  split at cfg
  next h =>
    rw [if_pos h]
    have work := unfaulted.forgetPosition.setMotion .offline
    exact ⟨work.state, work.now, fun b hb => by rw [Part.recordOffline, Part.bank_record, if_neg hb, work.bank],
      work.notices, work.noticeAcks, cfg⟩
  next h =>
    rw [if_neg h]
    have work := (unfaulted.setMotion .idle).testIdle
    exact ⟨work.state, work.now, fun b _ => work.bank b, work.notices, work.noticeAcks, cfg⟩

theorem Part.Freeing.clearFault : p.Freeing (p.clearFault n) := by
  unfold Part.clearFault
  split
  · exact .leaveFaulted p n
  · exact .refl p

theorem Part.clearFault_keepsGrants : p.KeepsGrants (p.clearFault n) := by
  unfold Part.clearFault
  split
  · exact (Part.KeepsGrants.refl p).leaveFaulted n
  · exact .refl p

theorem Part.clearFault_onlyChan : p.OnlyChan n (p.clearFault n) := by
  unfold Part.clearFault
  split
  · exact (Part.OnlyChan.refl p).leaveFaulted
  · exact .refl p

theorem Part.clearFault_chan_self :
    (p.clearFault n).chan n = (p.chan n).cleared (LineState.isOut (p.line (p.lineOf n)).state) p.now := by
  unfold Part.clearFault Channel.cleared
  split
  · exact p.leaveFaulted_chan_self n
  · rfl

theorem Part.clearFault_bank :
    (p.clearFault n).bank .channel =
      (p.bank .channel).takeAll (freeingErrors (LineState.isOut (p.line (p.lineOf n)).state) n (p.chan n)) := by
  unfold Part.clearFault freeingErrors
  by_cases h : (p.chan n).motion = .faulted
  · rw [if_pos h, decide_eq_true h, Bool.true_and, Part.leaveFaulted_eq]
    split
    · have severity : channelSeverity ((((p.modChan n Channel.unfaulted).forgetPosition n).setMotion n .offline).chan n) =
          ruledSeverity (p.chan n) := by
        rw [Part.setMotion_chan_self, Part.forgetPosition, Part.chan_modChan_self, Part.chan_modChan_self]
        rfl
      rw [Part.recordOffline, Part.bank_record_self, severity]
      rfl
    · have work := ((Part.QueueWork.refl p).modChan (n := n) Channel.unfaulted fun _ => rfl).setMotion .idle
      exact work.testIdle.bank _
  · rw [if_neg h, decide_eq_false h]
    rfl

/-! ## The channels named (R174) -/

variable (ns : List ChannelId)

theorem Part.Freeing.forEach : p.Freeing (p.forEach ns fun n q => q.clearFault n) :=
  Part.forEach_inv (inv := p.Freeing) (fun n q _ h => h.trans _ (.clearFault q n)) (.refl p)

theorem Part.forEach_clearFault_chan (nd : ns.Nodup) (m : ChannelId) :
    (p.forEach ns fun n q => q.clearFault n).chan m =
      if m ∈ ns then (p.chan m).cleared (LineState.isOut (p.line (p.lineOf m)).state) p.now else p.chan m := by
  refine Part.forEach_chan (inv := p.Freeing)
    (f := fun n c => c.cleared (LineState.isOut (p.line (p.lineOf n)).state) p.now) nd
    (fun n q _ h => h.trans _ (.clearFault q n)) (fun n q _ h => ?_) (fun n q => q.clearFault_onlyChan n) (.refl p) m
  have lineOf : q.lineOf n = p.lineOf n := congrArg ChannelConfig.line (h.cfg n)
  rw [Part.clearFault_chan_self, lineOf, h.state, h.now]

theorem Part.forEach_clearFault_bank (nd : ns.Nodup) :
    (p.forEach ns fun n q => q.clearFault n).bank .channel =
      (p.bank .channel).takeAll (ns.flatMap fun n => freeingErrors (LineState.isOut (p.line (p.lineOf n)).state) n (p.chan n)) := by
  refine Part.forEach_bank (inv := p.Freeing)
    (es := fun n c => freeingErrors (LineState.isOut (p.line (p.lineOf n)).state) n c) nd
    (fun n q _ h => h.trans _ (.clearFault q n)) (fun n q _ h => ?_) (fun n q => q.clearFault_onlyChan n) (.refl p)
  have lineOf : q.lineOf n = p.lineOf n := congrArg ChannelConfig.line (h.cfg n)
  rw [Part.clearFault_bank, lineOf, h.state]

end

/-- The channels an argument names, in ascending order. -/
def namedBy (w : Word) (n : ChannelId) : Bool := decide (w.toNat = n.val ∨ w.toNat = 255)

theorem filter_eq_singleton : ∀ k : ChannelId, allChannels.filter (fun n => decide (k.val = n.val)) = [k] := by
  decide +kernel

theorem channelsOfArgument_eq (w : Word) (h : w.toNat < 48 ∨ w.toNat = 255) :
    channelsOfArgument w = some (allChannels.filter (namedBy w)) := by
  unfold channelsOfArgument
  by_cases hw : w.toNat < 48
  · rw [dif_pos hw, ← filter_eq_singleton]
    have other : w.toNat ≠ 255 := by omega
    exact congrArg some (List.filter_congr fun n _ => by simp [namedBy, other])
  · have all : w.toNat = 255 := h.resolve_left hw
    rw [dif_neg hw, if_pos all]
    exact congrArg some (List.filter_eq_self.2 fun n _ => by simp [namedBy, all]).symm

theorem channelsOfArgument_eq_none (w : Word) (h : 48 ≤ w.toNat) (hw : w.toNat ≠ 255) : channelsOfArgument w = none := by
  rw [channelsOfArgument, dif_neg (Nat.not_lt.2 h), if_neg hw]

/-! ## The command -/

section
variable (s : State)

/-- The part that FAULT_CLEAR decides on. -/
def State.atFaultClear : Part := s.grant.part.interrupt (some .faultClear)

@[simp] theorem State.atFaultClear_chan (n : ChannelId) : s.atFaultClear.chan n = s.part.chan n := by
  simp [State.atFaultClear]
@[simp] theorem State.atFaultClear_line (l : LineId) : s.atFaultClear.line l = s.part.line l := by
  simp [State.atFaultClear]
@[simp] theorem State.atFaultClear_lineOf (n : ChannelId) : s.atFaultClear.lineOf n = s.part.lineOf n := by
  simp [Part.lineOf]
theorem State.atFaultClear_arg (i : Fin 3) : s.atFaultClear.arg i = s.part.cmd.args[i.val] := by
  rw [State.atFaultClear, Part.interrupt_arg, Part.arg, State.grant_cmd]
theorem State.atFaultClear_bank {b : BankId} (h : b ≠ .gate) : s.atFaultClear.bank b = s.grant.part.bank b :=
  Part.interrupt_bank_of_ne _ _ h

theorem State.verdict_faultClear (h : s.part.cmd.args[0].toNat < 48 ∨ s.part.cmd.args[0].toNat = 255) :
    s.verdict .faultClear =
      done (s.atFaultClear.forEach (allChannels.filter (namedBy s.part.cmd.args[0])) fun n q => q.clearFault n) := by
  show s.atFaultClear.faultClear = _
  unfold Part.faultClear
  have h0 : s.atFaultClear.arg 0 = s.part.cmd.args[0] := s.atFaultClear_arg 0
  rw [h0, channelsOfArgument_eq _ h]

theorem State.verdict_faultClear_bad (h : 48 ≤ s.part.cmd.args[0].toNat) (hw : s.part.cmd.args[0].toNat ≠ 255) :
    s.verdict .faultClear = refused s.atFaultClear .badArg := by
  show s.atFaultClear.faultClear = _
  unfold Part.faultClear
  have h0 : s.atFaultClear.arg 0 = s.part.cmd.args[0] := s.atFaultClear_arg 0
  rw [h0, channelsOfArgument_eq_none _ h hw]

/-- Named or not, a channel's record after FAULT_CLEAR. -/
theorem State.faultClear_chan (n : ChannelId) :
    (s.commanded .faultClear).part.chan n =
      if namedBy s.part.cmd.args[0] n then
        (s.part.chan n).cleared (LineState.isOut (s.part.line (s.part.lineOf n)).state) s.atFaultClear.now
      else s.part.chan n := by
  rw [State.commanded_chan]
  by_cases h : s.part.cmd.args[0].toNat < 48 ∨ s.part.cmd.args[0].toNat = 255
  · rw [s.verdict_faultClear h, Verdict.done_part, Part.forEach_clearFault_chan _ _ (allChannels_nodup.filter _)]
    simp only [List.mem_filter, mem_allChannels, true_and, State.atFaultClear_chan, State.atFaultClear_line,
      State.atFaultClear_lineOf]
  · obtain ⟨low, all⟩ := not_or.1 h
    have bad := s.verdict_faultClear_bad (Nat.not_lt.1 low) all
    have unnamed : namedBy s.part.cmd.args[0] n = false := by
      have := n.isLt
      simp only [namedBy, decide_eq_false_iff_not, not_or]
      exact ⟨by omega, all⟩
    rw [bad, unnamed]
    exact s.atFaultClear_chan n

/-- CHANNEL_OFFLINE of the freed channels of lines out of service, in ascending order. -/
theorem State.faultClear_bank_channel :
    (s.commanded .faultClear).part.bank .channel = (s.grant.part.bank .channel).takeAll (offlineErrors s.part fun n =>
      decide ((s.part.chan n).motion = .faulted ∧ (s.part.cmd.args[0].toNat = n.val ∨ s.part.cmd.args[0].toNat = 255) ∧
        ((s.part.line (s.part.chan n).cfg.line).state = .disabled ∨
          (s.part.line (s.part.chan n).cfg.line).state = .failed))) := by
  rw [State.commanded_bank_of_ne _ _ BankId.noConfusion]
  by_cases h : s.part.cmd.args[0].toNat < 48 ∨ s.part.cmd.args[0].toNat = 255
  · rw [s.verdict_faultClear h, Verdict.done_part, Part.forEach_clearFault_bank _ _ (allChannels_nodup.filter _),
      s.atFaultClear_bank BankId.noConfusion]
    simp only [State.atFaultClear_chan, State.atFaultClear_line, State.atFaultClear_lineOf, freeingErrors]
    rw [flatMap_filter_ite allChannels _ _ fun n => offlineRecord n (s.part.chan n)]
    refine congrArg _ (congrArg _ (List.filter_congr fun n _ => ?_))
    rw [namedBy, LineState.isOut, ← Bool.decide_and, ← Bool.decide_and]
    exact decide_eq_decide.2 and_left_comm
  · obtain ⟨low, all⟩ := not_or.1 h
    rw [s.verdict_faultClear_bad (Nat.not_lt.1 low) all]
    have none (n : ChannelId) (_ : n ∈ allChannels) : ¬ decide ((s.part.chan n).motion = .faulted ∧
        (s.part.cmd.args[0].toNat = n.val ∨ s.part.cmd.args[0].toNat = 255) ∧
        ((s.part.line (s.part.chan n).cfg.line).state = .disabled ∨
          (s.part.line (s.part.chan n).cfg.line).state = .failed)) = true := by
      have := n.isLt
      rw [decide_eq_true_iff]
      rintro ⟨-, named, -⟩
      omega
    rw [offlineErrors, List.filter_eq_nil_iff.2 none]
    exact s.atFaultClear_bank BankId.noConfusion

/-- What FAULT_CLEAR leaves as it was, whatever its argument. -/
theorem State.faultClear_rest :
    (∀ b : BankId, b ≠ .gate → b ≠ .channel → (s.commanded .faultClear).part.bank b = s.grant.part.bank b) ∧
      s.part.SameZones (s.commanded .faultClear).part ∧ (s.commanded .faultClear).part.weather = s.part.weather ∧
      (s.commanded .faultClear).part.globals = s.part.globals ∧ s.part.SameNotices (s.commanded .faultClear).part := by
  by_cases h : s.part.cmd.args[0].toNat < 48 ∨ s.part.cmd.args[0].toNat = 255
  · have verdict := s.verdict_faultClear h
    have freeing := s.atFaultClear.forEach_clearFault_chan
    have free := Part.Freeing.forEach s.atFaultClear (allChannels.filter (namedBy s.part.cmd.args[0]))
    have keeps := (Part.KeepsGrants.refl s.atFaultClear).forEach (allChannels.filter (namedBy s.part.cmd.args[0]))
      (fun n q => q.clearFault n) fun n q => q.clearFault_keepsGrants n
    refine ⟨fun b hg hc => ?_, ⟨?_, ?_⟩, ?_, ?_, ?_, ?_⟩
    · rw [State.commanded_bank_of_ne _ _ hg, verdict, Verdict.done_part, free.bank b hc, s.atFaultClear_bank hg]
    · rw [State.commanded_zones, verdict, Verdict.done_part, keeps.zones]; simp [State.atFaultClear]
    · rw [State.commanded_ga, verdict, Verdict.done_part, keeps.ga]; simp [State.atFaultClear]
    · rw [State.commanded_weather, verdict, Verdict.done_part, keeps.weather]; simp [State.atFaultClear]
    · rw [State.commanded_globals, verdict, Verdict.done_part, keeps.globals]; simp [State.atFaultClear]
    · rw [State.commanded_notices, verdict, Verdict.done_part, free.notices]; simp [State.atFaultClear]
    · rw [State.commanded_noticeAcks, verdict, Verdict.done_part, free.noticeAcks]; simp [State.atFaultClear]
  · obtain ⟨low, all⟩ := not_or.1 h
    obtain ⟨banks, -, -, zones, weather, globals, notices⟩ :=
      s.commanded_of_refused _ (s.verdict_faultClear_bad (Nat.not_lt.1 low) all)
    exact ⟨fun b hg _ => banks b hg, zones, weather, globals, notices⟩

end

/-- R18: the record of a FAULTED channel that is freed. -/
theorem Channel.cleared_fields {c : Channel} (hc : c.motion = .faulted) (out : Bool) (now : Nat) :
    let d := c.cleared out now
    d.fault = none ∧ d.lastFault = c.fault ∧ d.miss = 0 ∧ d.shortMark = false ∧ d.granted = c.granted ∧
      d.governing = c.governing ∧ d.cfg = c.cfg ∧
      (out = true → d.motion = .offline ∧ d.position = none ∧ d.report = none) ∧
      (out = false → d.position = c.position ∧ d.report = c.report ∧
        (withinTolerance c c.granted = true → d.motion = .idle) ∧
        (withinTolerance c c.granted = false → c.granted ≠ none → d.motion = .queued)) := by
  rw [Channel.cleared, if_pos hc, Channel.leftFaulted]
  cases out with
  | true => exact ⟨rfl, rfl, rfl, rfl, rfl, rfl, rfl, fun _ => ⟨rfl, rfl, rfl⟩, fun h => Bool.noConfusion h⟩
  | false =>
    have same : withinTolerance (c.unfaulted.enter now .idle) (c.unfaulted.enter now .idle).granted =
        withinTolerance c c.granted := rfl
    have granted : (c.unfaulted.enter now .idle).granted = c.granted := rfl
    simp only [Bool.false_eq_true, if_false, Channel.tested]
    rw [same, granted]
    by_cases h : (c.unfaulted.enter now .idle).motion = .idle ∧ withinTolerance c c.granted = false ∧ c.granted ≠ none
    · rw [if_pos h]
      exact ⟨rfl, rfl, rfl, rfl, rfl, rfl, rfl, fun k => False.elim k, fun _ => ⟨rfl, rfl,
        fun k => Bool.noConfusion (k.symm.trans h.2.1), fun _ _ => rfl⟩⟩
    · rw [if_neg h]
      exact ⟨rfl, rfl, rfl, rfl, rfl, rfl, rfl, fun k => False.elim k, fun _ => ⟨rfl, rfl, fun _ => rfl,
        fun k hk => absurd ⟨rfl, k, hk⟩ h⟩⟩

/-- Settles O34: the channels named are freed one by one, or the argument is refused. -/
theorem faultClearFreesTheNamedFaultedChannels : Obligations.FaultClearFreesTheNamedFaultedChannels := by
  intro s hr
  obtain ⟨banks, zones, weather, globals, notices⟩ := s.faultClear_rest
  have bad (low : 48 ≤ s.part.cmd.args[0].toNat) (other : s.part.cmd.args[0].toNat ≠ 255) :=
    s.verdict_faultClear_bad low other
  refine ⟨s.commanded .faultClear, ?next, fun h => ?done, fun low other => ?refused, fun n hm hn => ?freed,
    fun n hn => ?stands, s.faultClear_bank_channel, fun low other => ⟨?gate, ?lines⟩, banks, zones, weather, globals, notices,
    s.commanded_writesOnly _⟩
  case next => rw [← State.writeCommand_eq_commanded _ hr]; rfl
  case done => exact s.commanded_done _ (by rw [s.verdict_faultClear h]; rfl)
  case refused =>
    obtain ⟨-, chans, -⟩ := s.commanded_of_refused _ (bad low other)
    exact ⟨(s.commanded_refused _ (by rw [bad low other]; rfl)).2, chans⟩
  case freed =>
    obtain ⟨h1, h2, h3, h4, h5, h6, h7, out, inService⟩ := Channel.cleared_fields hm
      (LineState.isOut (s.part.line (s.part.lineOf n)).state) s.atFaultClear.now
    dsimp only
    have named : namedBy s.part.cmd.args[0] n = true := decide_eq_true hn
    rw [s.faultClear_chan, if_pos named]
    refine ⟨h1, h2, h3, h4, h5, h6, h7, fun h => out (decide_eq_true h), fun hd hf => inService (decide_eq_false ?_)⟩
    exact not_or.2 ⟨hd, hf⟩
  case stands =>
    rw [s.faultClear_chan, Channel.cleared]
    split
    next named =>
      rcases hn with hm | hn
      · rw [if_neg hm]
      · exact absurd (of_decide_eq_true named) (not_or.2 hn)
    next => rfl
  case gate =>
    rw [State.commanded_bank_refused _ _ (r := .badArg) (by rw [bad low other]; rfl), bad low other,
      ← Part.interrupt_bank_gate _ (some .faultClear) rfl]
    rfl
  case lines =>
    obtain ⟨-, -, lines, -⟩ := s.commanded_of_refused _ (bad low other)
    exact lines

end Sys2Proof.Machine
end

section
/-! SUPPORT. The timed events of a channel (R13, R105, R113, R131, R132). -/

namespace Sys2Proof.Machine

/-! ## The queue of a line after quieting complete, a change, a removal -/

section
variable (x : Line) (n : ChannelId)

theorem Line.queued_change (f : Order → Order) (hf : ∀ o, (f o).channel = o.channel) :
    (x.change n f).queued n = (x.queued n).map f := by
  rw [Line.queued_eq, Line.queued_eq, Line.ordersOf_change x n n f hf, if_pos rfl, List.head?_map]

theorem Line.queued_remove_self : (x.remove n).queued n = none := by
  rw [Line.queued_eq, Line.ordersOf_remove, if_pos rfl]; rfl

end

section
variable (s : State) (act : Part → Part)

@[simp] theorem State.event_lineOf (n : ChannelId) : (s.event act).part.lineOf n = (act s.part).lineOf n := by
  rw [Part.lineOf, State.event_chan]; rfl

theorem State.event_line_fields (l : LineId) :
    ((s.event act).part.line l).urgent = ((act s.part).line l).urgent ∧
      ((s.event act).part.line l).routine = ((act s.part).line l).routine ∧
      ((s.event act).part.line l).exchange = ((act s.part).line l).exchange ∧
      ((s.event act).part.line l).freeAt = ((act s.part).line l).freeAt := by
  obtain ⟨urgent, routine, exchange, -, -, -, freeAt, -⟩ := Part.completeQuieting_line_fields (act s.part) l
  rw [State.event_part]
  exact ⟨urgent, routine, exchange, freeAt⟩

theorem State.event_queuedOf (n : ChannelId) : (s.event act).part.queuedOf n = (act s.part).queuedOf n := by
  obtain ⟨urgent, routine, -⟩ := s.event_line_fields act ((act s.part).lineOf n)
  rw [Part.queuedOf, State.event_lineOf, Line.queued, urgent, routine]; rfl

/-- Where an act changes no line, at most quieting complete does. -/
theorem State.event_sameLines (h : ∀ l, (act s.part).line l = s.part.line l) : s.part.SameLines (s.event act).part :=
  fun l hq => by rw [State.event_line _ _ _ (by rw [h]; exact hq), h]

end

/-! ## Entry into FAULTED (R15, R116) -/

/-- The record of a channel that loses its work and faults. -/
def Channel.faultedWith (c : Channel) (now : Nat) (f : FaultCode) : Channel :=
  ({ c with accepted := none, travel := none, shortMark := false, fault := some f } : Channel).enter now .faulted

/-- CHANNEL_FAULTED of a channel (R116). -/
def faultedRecord (n : ChannelId) (c : Channel) (f : FaultCode) : ErrorRecord :=
  ⟨ruledSeverity c, .channelFaulted, some (.channel n), some (.fault f)⟩

section
variable (p : Part) (n : ChannelId) (f : FaultCode)

theorem Part.faultChannel_chan_self : (p.faultChannel n f).chan n = (p.chan n).faultedWith p.now f := by
  show (((p.dropWork n).modChan n fun c => { c with fault := some f }).setMotion n .faulted).chan n = _
  rw [Part.setMotion_chan_self, Part.chan_modChan_self, Part.dropWork_chan_self]
  rfl

theorem Part.faultChannel_bank (b : BankId) :
    (p.faultChannel n f).bank b =
      if b = .channel then ((p.bank .channel).take (faultedRecord n (p.chan n) f)).count else p.bank b := by
  have severity : channelSeverity ((((p.dropWork n).modChan n fun c => { c with fault := some f }).setMotion n .faulted).chan n) =
      ruledSeverity (p.chan n) := by
    rw [Part.setMotion_chan_self, Part.chan_modChan_self, Part.dropWork_chan_self]
    rfl
  rw [Part.faultChannel, Part.enterFaulted, Part.recordFaulted, Part.bank_record, severity]
  rfl

theorem Part.faultChannel_line (l : LineId) : (p.faultChannel n f).line l = (p.removeOrder n).line l := rfl
@[simp] theorem Part.faultChannel_now : (p.faultChannel n f).now = p.now := rfl

theorem Part.faultChannel_onlyChan : p.OnlyChan n (p.faultChannel n f) := (Part.OnlyChan.refl p).faultChannel f

end

/-! ## The exchange of a channel abandoned (R22, R23, R125) -/

/-- The exchange in flight is abandoned if it is for the channel. -/
def Line.abandonedFor (x : Line) (n : ChannelId) (now : Nat) : Line :=
  if (x.flightOf n).isSome then x.abandoned now else x

section
variable (p : Part) (l : LineId) (n : ChannelId)

theorem Part.abandonFor_eq : p.abandonFor l n = if ((p.line l).flightOf n).isSome then p.abandon l else p := by
  unfold Part.abandonFor Line.flightOf
  rcases (p.line l).exchange with _ | e
  · rfl
  · by_cases h : e.kind.channel = some n <;> simp [h]

theorem Part.abandonFor_line (k : LineId) :
    (p.abandonFor l n).line k = if k = l then (p.line l).abandonedFor n p.now else p.line k := by
  rw [Part.abandonFor_eq, Line.abandonedFor]
  split
  · exact p.abandon_line l k
  · split
    next e => rw [e]
    next => rfl

@[simp] theorem Part.abandonFor_chan (m : ChannelId) : (p.abandonFor l n).chan m = p.chan m := by
  rw [Part.abandonFor_eq]; split <;> simp
@[simp] theorem Part.abandonFor_now : (p.abandonFor l n).now = p.now := by rw [Part.abandonFor_eq]; split <;> simp
@[simp] theorem Part.abandonFor_bank (b : BankId) : (p.abandonFor l n).bank b = p.bank b := by
  rw [Part.abandonFor_eq]; split <;> simp

variable (x : Line) (now : Nat)

@[simp] theorem Line.abandonedFor_urgent : (x.abandonedFor n now).urgent = x.urgent := by
  unfold Line.abandonedFor; rw [Line.abandoned_eq]; split <;> rfl
@[simp] theorem Line.abandonedFor_routine : (x.abandonedFor n now).routine = x.routine := by
  unfold Line.abandonedFor; rw [Line.abandoned_eq]; split <;> rfl
@[simp] theorem Line.abandonedFor_retake : (x.abandonedFor n now).retake = x.retake := by
  unfold Line.abandonedFor; rw [Line.abandoned_eq]; split <;> rfl
@[simp] theorem Line.abandonedFor_state : (x.abandonedFor n now).state = x.state := by
  unfold Line.abandonedFor; rw [Line.abandoned_eq]; split <;> rfl

/-- R125: an abandoned exchange leaves a wait of 10 ms. -/
theorem Line.abandonedFor_of_exchange {x : Line} {n : ChannelId} {e : Exchange} (he : x.exchange = some e)
    (hk : e.kind.channel = some n) :
    (x.abandonedFor n now).exchange = none ∧ (x.abandonedFor n now).freeAt = e.sentAt.getD now + 10 := by
  have flight : x.flightOf n = some e := Line.flightOf_eq_some.mpr ⟨he, hk⟩
  rw [Line.abandonedFor, flight, Line.abandoned, he]
  cases hs : e.sentAt <;> exact ⟨rfl, by simp [Line.endExchange, hs, replyTime]⟩

end

/-! ## Travel expiry (R113) -/

/-- The record of a MOVING channel that its travel timer brings to HALTING. -/
def Channel.halted (c : Channel) (now : Nat) : Channel :=
  ({ c with accepted := none, travel := none } : Channel).enter now .halting

section
variable (p : Part) (n : ChannelId) (e : Nat)

/-- The exchange in flight is for an ORDERING channel alone. -/
theorem Part.expireTravel_of_pending (h : (p.chan n).motion = .queued ∨ (p.chan n).motion = .ordering) :
    p.expireTravel n e =
      (if (p.chan n).motion = .ordering then p.abandonFor (p.lineOf n) n else p).faultChannel n (.travelTimeout e) := by
  unfold Part.expireTravel
  rcases h with h | h <;> rw [h] <;> rfl

theorem Part.expireTravel_of_settled (hp : (p.chan n).motion ≠ .queued ∧ (p.chan n).motion ≠ .ordering)
    (hm : (p.chan n).motion ≠ .moving) : p.expireTravel n e = p := by
  unfold Part.expireTravel
  cases h : (p.chan n).motion <;> simp_all

/-- What the expiry removes before the HALT enters. -/
def Part.dropMove (p : Part) (n : ChannelId) : Part :=
  ((p.removeOrder n).modChan n (fun c => { c with accepted := none, travel := none })).setMotion n .halting

theorem Part.expireTravel_of_moving (h : (p.chan n).motion = .moving) :
    p.expireTravel n e =
      (p.dropMove n).modLine ((p.dropMove n).lineOf n) (fun x => x.reenter ((p.dropMove n).newOrder n (.halt e) .urgent)) := by
  unfold Part.expireTravel
  rw [h]
  rfl

theorem Part.dropMove_chan_self : (p.dropMove n).chan n = (p.chan n).halted p.now := by
  rw [Part.dropMove, Part.setMotion_chan_self, Part.chan_modChan_self]; rfl

theorem Part.expireTravel_chan_self :
    (p.expireTravel n e).chan n =
      if (p.chan n).motion = .queued ∨ (p.chan n).motion = .ordering then (p.chan n).faultedWith p.now (.travelTimeout e)
      else if (p.chan n).motion = .moving then (p.chan n).halted p.now
      else p.chan n := by
  split
  next h =>
    rw [Part.expireTravel_of_pending p n e h, Part.faultChannel_chan_self]
    split <;> simp
  next h =>
    split
    next hm => rw [Part.expireTravel_of_moving p n e hm]; exact p.dropMove_chan_self n
    next hm => rw [Part.expireTravel_of_settled p n e (not_or.1 h) hm]

theorem Part.expireTravel_onlyChan : p.OnlyChan n (p.expireTravel n e) := (Part.OnlyChan.refl p).expireTravel e

@[simp] theorem Part.expireTravel_now : (p.expireTravel n e).now = p.now := by
  unfold Part.expireTravel
  split <;> first | rfl | exact p.abandonFor_now _ _

/-- R116: CHANNEL_FAULTED of a QUEUED or ORDERING channel, and nothing else. -/
theorem Part.expireTravel_bank (b : BankId) :
    (p.expireTravel n e).bank b =
      if b = .channel ∧ ((p.chan n).motion = .queued ∨ (p.chan n).motion = .ordering) then
        ((p.bank .channel).take (faultedRecord n (p.chan n) (.travelTimeout e))).count
      else p.bank b := by
  by_cases h : (p.chan n).motion = .queued ∨ (p.chan n).motion = .ordering
  · rw [Part.expireTravel_of_pending p n e h, Part.faultChannel_bank]
    simp only [h, and_true]
    split <;> split <;> simp
  · rw [if_neg fun k => h k.2]
    by_cases hm : (p.chan n).motion = .moving
    · rw [Part.expireTravel_of_moving p n e hm]; rfl
    · rw [Part.expireTravel_of_settled p n e (not_or.1 h) hm]

/-- The line of an expired channel without its order, and without an exchange for an ORDERING one. -/
theorem Part.expireTravel_line_of_pending (h : (p.chan n).motion = .queued ∨ (p.chan n).motion = .ordering) :
    (p.expireTravel n e).line (p.lineOf n) =
      (if (p.chan n).motion = .ordering then (p.line (p.lineOf n)).abandonedFor n p.now else p.line (p.lineOf n)).remove n := by
  rw [Part.expireTravel_of_pending p n e h, Part.faultChannel_line]
  split
  · have lineOf : (p.abandonFor (p.lineOf n) n).lineOf n = p.lineOf n := by rw [Part.lineOf, Part.abandonFor_chan]; rfl
    have removed := (p.abandonFor (p.lineOf n) n).removeOrder_line_self n
    rw [lineOf] at removed
    rw [removed, Part.abandonFor_line, if_pos rfl]
  · exact p.removeOrder_line_self n

theorem Part.expireTravel_line_of_moving (h : (p.chan n).motion = .moving) :
    (p.expireTravel n e).line (p.lineOf n) =
      ((p.line (p.lineOf n)).remove n).reenter (p.newOrder n (.halt e) .urgent) := by
  have lineOf : (p.dropMove n).lineOf n = p.lineOf n := by rw [Part.lineOf, Part.dropMove_chan_self]; rfl
  have removed : (p.dropMove n).line (p.lineOf n) = (p.line (p.lineOf n)).remove n := p.removeOrder_line_self n
  rw [Part.expireTravel_of_moving p n e h, lineOf, Part.line_modLine_self, removed]
  rfl

theorem Part.expireTravel_lineOf (m : ChannelId) : (p.expireTravel n e).lineOf m = p.lineOf m := by
  by_cases h : m = n
  · subst h
    rw [Part.lineOf, Part.expireTravel_chan_self]
    split
    · rfl
    · split <;> rfl
  · rw [Part.lineOf, Part.expireTravel_onlyChan p n e m h]; rfl

end

/-! ## A second of the travel timer (R13) -/

/-- The second has passed: travel elapsed takes the value, at the second's instant. -/
def Part.secondPassed (p : Part) (n : ChannelId) (elapsed : Nat) : Part :=
  (p.advanceTo ((p.chan n).secondMark + second)).modChan n
    (fun c => { c with travel := some elapsed, secondMark := max p.now ((p.chan n).secondMark + second) })

section
variable (p : Part) (n : ChannelId) (e : Nat)

theorem Part.travelStep_eq :
    p.travelStep n e =
      if (p.chan n).cfg.travelLimit ≤ e + 1 then (p.secondPassed n (e + 1)).expireTravel n (e + 1)
      else p.secondPassed n (e + 1) := rfl

theorem Part.secondPassed_chan_self :
    (p.secondPassed n e).chan n = { p.chan n with
      travel := some e, secondMark := max p.now ((p.chan n).secondMark + 1000) } :=
  (p.advanceTo _).chan_modChan_self n _

theorem Part.secondPassed_onlyChan : p.OnlyChan n (p.secondPassed n e) :=
  fun m hm => by rw [Part.secondPassed, Part.chan_modChan, if_neg hm]; rfl
@[simp] theorem Part.secondPassed_line (l : LineId) : (p.secondPassed n e).line l = p.line l := rfl
@[simp] theorem Part.secondPassed_bank (b : BankId) : (p.secondPassed n e).bank b = p.bank b := rfl
theorem Part.secondPassed_now : (p.secondPassed n e).now = max p.now ((p.chan n).secondMark + 1000) := rfl
theorem Part.secondPassed_lineOf : (p.secondPassed n e).lineOf n = p.lineOf n := by
  rw [Part.lineOf, Part.secondPassed_chan_self]; rfl

theorem Part.travelSecond_of_travel (h : (p.chan n).travel = some e) : p.travelSecond n = p.travelStep n e := by
  rw [Part.travelSecond, h]

/-- R113: both rows of the expiry are the same step. -/
theorem Part.travelExpiry_of_limit (h : (p.chan n).travel = some e) (hl : (p.chan n).cfg.travelLimit ≤ e + 1) :
    p.travelExpiry n = p.travelStep n e := by
  rw [Part.travelExpiry, h]; exact if_pos hl

end

end Sys2Proof.Machine
end

section
/-! PROOF. O55: the timed events of a channel. -/

namespace Sys2Proof.Machine

section
variable (s : State) (n : ChannelId)

theorem State.backoffEnd_frees {o : Order} {since : Nat} (ho : s.part.queuedOf n = some o) (hb : o.backoff = some since) :
    ∃ t, exec (.backoffEnd n) s = .next t ∧ t.part.queuedOf n = some { o with backoff := none } ∧
      t.part.now = max s.part.now (since + 50) ∧ s.part.SameChans t.part ∧ s.part.SameBanks t.part := by
  have ends : s.part.endBackoff n =
      (s.part.advanceTo (since + backoffTime)).modLine (s.part.lineOf n) fun x => x.change n fun o => { o with backoff := none } := by
    rw [Part.endBackoff, ho, Option.bind_some, hb]
  refine ⟨_, rfl, ?_, ?_, fun m => ?_, fun b => ?_⟩
  · rw [State.event_queuedOf, ends]
    show (Part.line _ (s.part.lineOf n)).queued n = _
    rw [Part.line_modLine_self]
    exact (Line.queued_change (s.part.line (s.part.lineOf n)) n (fun o => { o with backoff := none }) fun _ => rfl).trans
      (congrArg (Option.map fun o => { o with backoff := none }) ho)
  · rw [State.event_now, ends]; rfl
  · rw [State.event_chan, ends]; rfl
  · rw [State.event_bank, ends]; rfl

theorem State.travelSecond_counts {e : Nat} (h : (s.part.chan n).travel = some e) (hl : e + 1 < (s.part.chan n).cfg.travelLimit) :
    ∃ t, exec (.travelSecond n) s = .next t ∧
      t.part.chan n = { s.part.chan n with
        travel := some (e + 1), secondMark := max s.part.now ((s.part.chan n).secondMark + 1000) } ∧
      (∀ m : ChannelId, m ≠ n → t.part.chan m = s.part.chan m) ∧ s.part.SameLines t.part ∧ s.part.SameBanks t.part := by
  have step : s.part.travelSecond n = s.part.secondPassed n (e + 1) := by
    rw [Part.travelSecond_of_travel _ _ _ h, Part.travelStep_eq, if_neg (by omega)]
  refine ⟨_, rfl, ?_, fun m hm => ?_, s.event_sameLines _ fun l => ?_, fun b => ?_⟩
  · rw [State.event_chan, step, Part.secondPassed_chan_self]
  · rw [State.event_chan, step, Part.secondPassed_onlyChan _ _ _ m hm]
  · rw [step, Part.secondPassed_line]
  · rw [State.event_bank, step, Part.secondPassed_bank]

/-- R113: both rows of the expiry lead to the same event. -/
theorem State.exec_travelExpires {e : Nat} {c : Instr} (h : (s.part.chan n).travel = some e)
    (hl : (s.part.chan n).cfg.travelLimit ≤ e + 1) (hc : c = .travelSecond n ∨ c = .travelExpiry n) :
    ∃ act : Part → Part, exec c s = .next (s.event act) ∧
      act s.part = (s.part.secondPassed n (e + 1)).expireTravel n (e + 1) := by
  have step : s.part.travelStep n e = (s.part.secondPassed n (e + 1)).expireTravel n (e + 1) := by
    rw [Part.travelStep_eq, if_pos hl]
  rcases hc with rfl | rfl
  · exact ⟨_, rfl, (s.part.travelSecond_of_travel n e h).trans step⟩
  · exact ⟨_, rfl, (s.part.travelExpiry_of_limit n e h hl).trans step⟩

theorem State.pollDue_fallsDue {since : Nat} (hm : (s.part.chan n).motion = .moving)
    (hp : (s.part.chan n).pollFrom = some since) :
    ∃ t, exec (.pollDue n) s = .next t ∧ t.part.chan n = { s.part.chan n with pollDue := true } ∧
      t.part.now = max s.part.now (since + 200) ∧ (∀ m : ChannelId, m ≠ n → t.part.chan m = s.part.chan m) ∧
      s.part.SameLines t.part ∧ s.part.SameBanks t.part := by
  have step : s.part.pollFallsDue n =
      (s.part.advanceTo (since + pollTime)).modChan n fun c => { c with pollDue := true } := by
    rw [Part.pollFallsDue, hm, hp]
  refine ⟨_, rfl, ?_, ?_, fun m hm => ?_, s.event_sameLines _ fun l => ?_, fun b => ?_⟩
  · rw [State.event_chan, step, Part.chan_modChan_self]; rfl
  · rw [State.event_now, step]; rfl
  · rw [State.event_chan, step, Part.chan_modChan, if_neg hm]; rfl
  · rw [step]; rfl
  · rw [State.event_bank, step]; rfl

theorem State.supervisionDue_fallsDue {since : Nat} (hm : supervised (s.part.chan n).motion = true)
    (hp : (s.part.chan n).supFrom = some since) :
    ∃ t, exec (.supervisionDue n) s = .next t ∧ t.part.chan n = { s.part.chan n with supDue := true } ∧
      t.part.now = max s.part.now (since + s.part.globals.supervisionInterval * 1000) ∧
      (∀ m : ChannelId, m ≠ n → t.part.chan m = s.part.chan m) ∧ s.part.SameLines t.part ∧ s.part.SameBanks t.part := by
  have step : s.part.supervisionFallsDue n =
      (s.part.advanceTo (since + s.part.globals.supervisionInterval * second)).modChan n
        fun c => { c with supDue := true } := by
    rw [Part.supervisionFallsDue, hp]; exact if_pos hm
  refine ⟨_, rfl, ?_, ?_, fun m hm => ?_, s.event_sameLines _ fun l => ?_, fun b => ?_⟩
  · rw [State.event_chan, step, Part.chan_modChan_self]; rfl
  · rw [State.event_now, step]; rfl
  · rw [State.event_chan, step, Part.chan_modChan, if_neg hm]; rfl
  · rw [step]; rfl
  · rw [State.event_bank, step]; rfl

end

/-- Settles O55, one timer after the other. -/
theorem channelTimersExpire : Obligations.ChannelTimersExpire := by
  intro s n
  refine ⟨fun o since ho hb => s.backoffEnd_frees n ho hb, fun e he hl => s.travelSecond_counts n he hl,
    fun e c he hl hc => ?expires, fun since hm hp => s.pollDue_fallsDue n hm hp,
    fun since hm hp => s.supervisionDue_fallsDue n (by rcases hm with h | h | h | h <;> rw [h] <;> rfl) hp⟩
  obtain ⟨act, next, step⟩ := s.exec_travelExpires n he hl hc
  have passed := s.part.secondPassed_chan_self n (e + 1)
  have motion : ((s.part.secondPassed n (e + 1)).chan n).motion = (s.part.chan n).motion := by rw [passed]
  have lineOf := s.part.secondPassed_lineOf n (e + 1)
  have lineOf' : (act s.part).lineOf n = s.part.lineOf n := by rw [step, Part.expireTravel_lineOf, lineOf]
  obtain ⟨urgent, -, exchange, freeAt⟩ := s.event_line_fields act (s.part.lineOf n)
  have chan := (s.part.secondPassed n (e + 1)).expireTravel_chan_self n (e + 1)
  have bank := (s.part.secondPassed n (e + 1)).expireTravel_bank n (e + 1)
  have pending := (s.part.secondPassed n (e + 1)).expireTravel_line_of_pending n (e + 1)
  have moving := (s.part.secondPassed n (e + 1)).expireTravel_line_of_moving n (e + 1)
  rw [motion, passed, ← step] at chan
  rw [motion, lineOf, ← step] at pending moving
  simp only [passed, ← step] at bank
  refine ⟨s.event act, next, fun hm => ?faults, fun exch hm hx hk => ?abandons, fun hm => ?halts, ?position, ?now,
    fun m hm => ?others, fun b hb => ?banks⟩
  case faults =>
    rw [State.event_chan, State.event_bank, State.event_queuedOf, chan, if_pos hm, bank, if_pos ⟨rfl, hm⟩, Part.queuedOf, lineOf',
      pending hm, Line.queued_remove_self]
    exact ⟨rfl, rfl, rfl, rfl, rfl, rfl, rfl⟩
  case abandons =>
    have ends := Line.abandonedFor_of_exchange (s.part.secondPassed n (e + 1)).now hx hk
    have now : (s.event act).part.now = (s.part.secondPassed n (e + 1)).now := by
      rw [State.event_now, step, Part.expireTravel_now]
    refine ⟨?_, ?_⟩
    · refine exchange.trans ?_
      rw [pending (.inr hm), if_pos hm]
      exact ends.1
    · refine freeAt.trans ?_
      rw [pending (.inr hm), if_pos hm, now]
      refine ends.2.trans ?_
      cases exch.sentAt <;> rfl
  case halts =>
    have settled : ¬ ((s.part.chan n).motion = .queued ∨ (s.part.chan n).motion = .ordering) := by simp [hm]
    rw [State.event_chan, chan, if_neg settled, if_pos hm]
    refine ⟨rfl, rfl, rfl, urgent.trans ?_, fun b => ?_⟩
    · rw [moving hm]; rfl
    · rw [State.event_bank, bank, if_neg fun k => settled k.2, Part.secondPassed_bank]
  case position =>
    rw [State.event_chan, chan]
    split
    · rfl
    · split <;> rfl
  case now => rw [State.event_now, step, Part.expireTravel_now, Part.secondPassed_now]
  case others => rw [State.event_chan, step, Part.expireTravel_onlyChan _ _ _ m hm, Part.secondPassed_onlyChan _ _ _ m hm]
  case banks => rw [State.event_bank, bank, if_neg fun k => hb k.1, Part.secondPassed_bank]

end Sys2Proof.Machine
end

section
/-! SUPPORT. Steps that settle the work of one channel, and steps that leave every channel its work: what they need for the
agreement of channels, queues and exchanges to stand (R14, R15, R97, R122). -/

namespace Sys2Proof.Machine

/-! ## A channel's work by its motion state -/

section
variable {c : Channel} {os : List Order} {f g : Option Exchange}

theorem Channel.HasWork.of_resting (h : c.HasWork os f)
    (hm : c.motion = .unused ∨ c.motion = .offline ∨ c.motion = .idle ∨ c.motion = .faulted) : os = [] ∧ noOrder f := by
  cases h with
  | atRest _ hq hf => exact ⟨hq, hf⟩
  | _ => simp_all

theorem Channel.HasWork.of_queued (h : c.HasWork os f) (hm : c.motion = .queued) :
    (∃ o, os = [o] ∧ o.isHalt = false ∧ (o.sent = true ↔ c.travel ≠ none)) ∧ noOrder f := by
  cases h with
  | queued o _ hq hh hs hf => exact ⟨⟨o, hq, hh, hs⟩, hf⟩
  | _ => simp_all

theorem Channel.HasWork.of_moving (h : c.HasWork os f) (hm : c.motion = .moving) : superseding os ∧ noOrder f := by
  cases h with
  | moving _ hq hf => exact ⟨hq, hf⟩
  | _ => simp_all

/-- Only an ORDERING or a HALTING channel has an order in flight. -/
theorem Channel.HasWork.noOrder (h : c.HasWork os f) (ho : c.motion ≠ .ordering) (hh : c.motion ≠ .halting) : noOrder f := by
  cases h with
  | atRest _ _ hf => exact hf
  | queued _ _ _ _ _ hf => exact hf
  | moving _ _ hf => exact hf
  | ordering _ _ hm => exact absurd hm ho
  | haltQueued _ hm => exact absurd hm hh
  | haltInFlight _ _ hm => exact absurd hm hh

/-- A QUERY in flight or none is the same to a channel's work. -/
theorem Channel.HasWork.of_noOrder (h : c.HasWork os f) (hf : Machine.noOrder f) (hg : Machine.noOrder g) : c.HasWork os g := by
  cases h with
  | atRest hm hq _ => exact .atRest hm hq hg
  | queued o hm hq hh hs _ => exact .queued o hm hq hh hs hg
  | moving hm hq _ => exact .moving hm hq hg
  | haltQueued o hm hq hh _ => exact .haltQueued o hm hq hh hg
  | ordering e o _ _ he hk => exact absurd hk (hf e o he)
  | haltInFlight e o _ _ he hk => exact absurd hk (hf e o he)

theorem superseding_nil : superseding [] := .inl rfl
theorem superseding_singleton {o : Order} (hh : o.isHalt = false) (hs : o.sent = false) : superseding [o] := .inr ⟨o, rfl, hh, hs⟩

end

/-! ## What a channel and its line hold after a step near it -/

/-- After a step near a channel: its record, its orders on its line's queue and its exchange in flight there. -/
structure Part.Leaves (n : ChannelId) (p q : Part) (c : Channel) (os : List Order) (f : Option Exchange) : Prop where
  near : p.Near n q
  chan : q.chan n = c
  orders : (q.line (q.lineOf n)).ordersOf n = os
  flight : (q.line (q.lineOf n)).flightOf n = f

section
variable {n : ChannelId} {p q r : Part} {c : Channel} {os : List Order} {f : Option Exchange}

theorem Part.Leaves.refl (n : ChannelId) (p : Part) :
    p.Leaves n p (p.chan n) ((p.line (p.lineOf n)).ordersOf n) ((p.line (p.lineOf n)).flightOf n) := ⟨.refl p, rfl, rfl, rfl⟩

theorem Part.Leaves.of_same (h : p.Leaves n q c os f) (hc : ∀ m, r.chan m = q.chan m) (hl : ∀ l, r.line l = q.line l) :
    p.Leaves n r c os f := by
  have lineOf : r.lineOf n = q.lineOf n := by rw [Part.lineOf, hc]; rfl
  exact ⟨h.near.of_same hc hl, (hc n).trans h.chan, by rw [lineOf, hl, h.orders], by rw [lineOf, hl, h.flight]⟩

theorem Part.Leaves.record (h : p.Leaves n q c os f) (b : BankId) (e : ErrorRecord) : p.Leaves n (q.record b e) c os f :=
  h.of_same (fun _ => rfl) fun _ => rfl
theorem Part.Leaves.joinNotices (h : p.Leaves n q c os f) (m : ChannelId) : p.Leaves n (q.joinNotices m) c os f :=
  h.of_same (fun _ => rfl) fun _ => rfl
theorem Part.Leaves.advanceTo (h : p.Leaves n q c os f) (t : Nat) : p.Leaves n (q.advanceTo t) c os f :=
  h.of_same (fun _ => rfl) fun _ => rfl

theorem Part.Leaves.modChan (h : p.Leaves n q c os f) (g : Channel → Channel) (hg : ∀ d : Channel, (g d).cfg = d.cfg) :
    p.Leaves n (q.modChan n g) (g c) os f := by
  have lineOf : (q.modChan n g).lineOf n = q.lineOf n := by rw [Part.lineOf, Part.chan_modChan_self, hg]; rfl
  exact ⟨h.near.modChan g hg, by rw [Part.chan_modChan_self, h.chan], by rw [lineOf]; exact h.orders, by
    rw [lineOf]; exact h.flight⟩

theorem Part.Leaves.setMotion (h : p.Leaves n q c os f) (m : Motion) : p.Leaves n (q.setMotion n m) (c.enter q.now m) os f :=
  h.modChan _ fun _ => rfl

theorem Part.Leaves.modLine {g : Line → Line} (h : p.Leaves n q c os f)
    (hg : Line.WorkOnly n (q.line (q.lineOf n)) (g (q.line (q.lineOf n)))) :
    p.Leaves n (q.modLine (q.lineOf n) g) c ((g (q.line (q.lineOf n))).ordersOf n) ((g (q.line (q.lineOf n))).flightOf n) := by
  have line : (q.modLine (q.lineOf n) g).line (q.lineOf n) = g (q.line (q.lineOf n)) := q.line_modLine_self _ g
  exact ⟨h.near.modLine g hg, h.chan, congrArg (Line.ordersOf · n) line, congrArg (Line.flightOf · n) line⟩

theorem Part.Leaves.removeOrder (h : p.Leaves n q c os f) : p.Leaves n (q.removeOrder n) c [] f := by
  have step := h.modLine (g := fun x => x.remove n) (.remove n _)
  rw [Line.ordersOf_remove, if_pos rfl, Line.remove_flightOf, h.flight] at step
  exact step

theorem Part.Leaves.join {o : Order} (h : p.Leaves n q c [] f) (ho : o.channel = n) :
    p.Leaves n (q.modLine (q.lineOf n) fun x => x.join o) c [o] f := by
  have step := h.modLine (g := fun x => x.join o) (.join n _ ho)
  have empty := h.orders
  subst ho
  rwa [Line.ordersOf_join_self _ _ empty, Line.join_flightOf, h.flight] at step

theorem Part.Leaves.joinOrder (h : p.Leaves n q c [] f) (t : Nat) :
    p.Leaves n (q.joinOrder n t) c [q.newOrder n (.move t) (classOf (q.chan n).governing)] f := h.join rfl

theorem Part.Leaves.reenter {o : Order} (h : p.Leaves n q c [] f) (ho : o.channel = n) :
    p.Leaves n (q.modLine (q.lineOf n) fun x => x.reenter o) c [o] f := by
  have step := h.modLine (g := fun x => x.reenter o) (.reenter n _ ho)
  have empty := h.orders
  subst ho
  rwa [Line.ordersOf_reenter_self _ _ empty, Line.reenter_flightOf, h.flight] at step

/-- A retargeted ORDER stays one, and stays sent or not. -/
theorem Part.Leaves.retarget {o : Order} (h : p.Leaves n q c [o] f) (hh : o.isHalt = false) (t : Nat) (cls : OrderClass) :
    p.Leaves n (q.modLine (q.lineOf n) fun x => x.retarget n t cls) c [{ o with work := .move t, cls := cls }] f := by
  have step := h.modLine (g := fun x => x.retarget n t cls) (.retarget n _ t cls)
  rwa [Line.ordersOf_retarget_self n t cls h.orders, Line.retarget_flightOf, h.flight, if_neg (by simp [hh])] at step

/-- The channel's own exchange ends. -/
theorem Part.Leaves.dropExchange {g : Line → Line} {e : Exchange} (h : p.Leaves n q c os f)
    (he : (q.line (q.lineOf n)).exchange = some e) (hk : e.kind.channel = some n)
    (hs : ∀ x, (g x).state = x.state ∧ (g x).urgent = x.urgent ∧ (g x).routine = x.routine ∧ (g x).retake = x.retake ∧
      (g x).exchange = none) : p.Leaves n (q.modLine (q.lineOf n) g) c os none := by
  obtain ⟨state, urgent, routine, retake, none⟩ := hs (q.line (q.lineOf n))
  have step := h.modLine (g := g) (.of_exchange n _ state urgent routine retake
    (fun e' h' => by obtain rfl : e = e' := Option.some.inj (he ▸ h'); exact hk)
    (fun e' h' => by rw [none] at h'; exact nomatch h') fun _ _ => none)
  have orders : (g (q.line (q.lineOf n))).ordersOf n = os := by rw [Line.ordersOf, urgent, routine]; exact h.orders
  have flight : (g (q.line (q.lineOf n))).flightOf n = Option.none := by rw [Line.flightOf, none]; rfl
  rwa [orders, flight] at step

/-- The part agrees after a step near a channel in use whose work the step settles. -/
theorem Part.Leaves.motionFits (k : p.Leaves n q c os f) (h : p.motionFits) (used : (p.chan n).cfg.cls ≠ .unused)
    (record : c.fits) (work : c.HasWork os f)
    (quiet : (p.line (p.lineOf n)).state = .quiet ∨ (p.line (p.lineOf n)).state = .test → f = none)
    (out : (p.line (p.lineOf n)).state = .disabled ∨ (p.line (p.lineOf n)).state = .failed →
      c.motion = .unused ∨ c.motion = .offline ∨ c.motion = .faulted) : q.motionFits := by
  have state : (q.line (q.lineOf n)).state = (p.line (p.lineOf n)).state := by rw [k.near.lineOf, (k.near.line _).state]
  refine h.near k.near ⟨by rw [k.chan]; exact record, by rw [k.chan, k.orders, k.flight]; exact work,
    k.near.elsewhere used (h.chanFits n).elsewhere, ?_, ?_⟩
  · rw [state, k.flight]; exact quiet
  · rw [state, k.chan]; exact out

end

/-! ## Steps on a line that leave every channel its work -/

/-- The state and the queue of a line stand, and it has no new retake. -/
structure Line.Stands (x y : Line) : Prop where
  state : y.state = x.state
  urgent : y.urgent = x.urgent
  routine : y.routine = x.routine
  retake : ∀ r, y.retake = some r → x.retake = some r

section
variable {p : Part} {l : LineId} {f : Line → Line}

theorem Line.Stands.ordersOf {x y : Line} (h : x.Stands y) (m : ChannelId) : y.ordersOf m = x.ordersOf m := by
  rw [Line.ordersOf, h.urgent, h.routine]; rfl

/-- A line changes outside its queue, and at most a QUERY or a test frame of it ends. -/
theorem Part.ChanFits.modLine {m : ChannelId} (k : p.ChanFits m) (hs : (p.line l).Stands (f (p.line l)))
    (hf : (f (p.line l)).flightOf m = (p.line l).flightOf m ∨
      noOrder ((p.line l).flightOf m) ∧ (f (p.line l)).flightOf m = none) : (p.modLine l f).ChanFits m := by
  have none (h : (p.line l).flightOf m = none) : (f (p.line l)).flightOf m = none := hf.elim (·.trans h) (·.2)
  refine ⟨k.record, ?_, fun j hb => ?_, ?_, ?_⟩
  · show (p.chan m).HasWork (((p.modLine l f).line (p.lineOf m)).ordersOf m) (((p.modLine l f).line (p.lineOf m)).flightOf m)
    rw [Part.line_modLine]
    split
    next e =>
      have work := e ▸ k.work
      rw [hs.ordersOf]
      rcases hf with same | ⟨no, gone⟩
      · rw [same]; exact work
      · rw [gone]; exact work.of_noOrder no noOrder_none
    next => exact k.work
  · rw [Part.line_modLine]
    split
    next e =>
      have free := e ▸ k.elsewhere j hb
      exact ⟨(hs.ordersOf m).trans free.orders, none free.flight, fun ⟨r, hr, hc⟩ => free.retake ⟨r, hs.retake r hr, hc⟩⟩
    next => exact k.elsewhere j hb
  · show ((p.modLine l f).line (p.lineOf m)).state = .quiet ∨ ((p.modLine l f).line (p.lineOf m)).state = .test →
      ((p.modLine l f).line (p.lineOf m)).flightOf m = Option.none
    rw [Part.line_modLine]
    split
    next e => rw [hs.state]; exact fun q => none (e ▸ k.quiet (e ▸ q))
    next => exact k.quiet
  · show ((p.modLine l f).line (p.lineOf m)).state = .disabled ∨ ((p.modLine l f).line (p.lineOf m)).state = .failed → _
    rw [Part.line_modLine]
    split
    next e => rw [hs.state]; exact fun q => k.out (e ▸ q)
    next => exact k.out

theorem Part.motionFits.standing (h : p.motionFits) (hs : (p.line l).Stands (f (p.line l)))
    (hf : ∀ m, (f (p.line l)).flightOf m = (p.line l).flightOf m ∨
      noOrder ((p.line l).flightOf m) ∧ (f (p.line l)).flightOf m = none)
    (hn : (f (p.line l)).OutIsStill) : (p.modLine l f).motionFits :=
  .of (fun m => (h.chanFits m).modLine hs (hf m)) fun j => by
    rw [Part.line_modLine]
    split
    · exact hn
    · exact h.outIsStill j

/-- A line changes outside its queue and its exchange. -/
theorem Part.motionFits.sameExchange (h : p.motionFits) (hs : (p.line l).Stands (f (p.line l)))
    (he : (f (p.line l)).exchange = (p.line l).exchange) : (p.modLine l f).motionFits :=
  h.standing hs (fun m => .inl (by rw [Line.flightOf, he]; rfl)) fun k => he.trans (h.outIsStill l (hs.state ▸ k))

/-- A QUERY or a test frame ends. -/
theorem Part.motionFits.dropExchange (h : p.motionFits) (hs : (p.line l).Stands (f (p.line l)))
    (no : ∀ e o, (p.line l).exchange = some e → e.kind ≠ .order o) (he : (f (p.line l)).exchange = none) :
    (p.modLine l f).motionFits :=
  h.standing hs (fun m => .inr ⟨fun e o hf => no e o (Line.flightOf_eq_some.mp hf).1, by rw [Line.flightOf, he]; rfl⟩)
    fun _ => he

/-- A test frame is for no channel. -/
theorem Part.motionFits.setTestExchange (h : p.motionFits) (hs : (p.line l).Stands (f (p.line l)))
    (before : ∀ e, (p.line l).exchange = some e → e.kind.channel = none)
    (after : ∀ e, (f (p.line l)).exchange = some e → e.kind.channel = none) (hn : (f (p.line l)).OutIsStill) :
    (p.modLine l f).motionFits := by
  have none {x : Line} (hx : ∀ e, x.exchange = some e → e.kind.channel = none) (m : ChannelId) : x.flightOf m = none :=
    Line.flightOf_eq_none.mpr fun e he => by rw [hx e he]; exact nofun
  exact h.standing hs (fun m => .inl (by rw [none before, none after])) hn

/-- A line enters a state. -/
theorem Part.motionFits.enterLine (h : p.motionFits) (s : LineState)
    (quiet : s = .quiet ∨ s = .test → ∀ n, (p.line l).flightOf n = none)
    (out : s = .disabled ∨ s = .failed → (p.line l).exchange = none ∧
      ∀ n, (p.chan n).boundTo l = true → (p.chan n).motion = .offline ∨ (p.chan n).motion = .faulted) :
    (p.enterLine l s).motionFits := by
  have retake {r : Retake} (hr : ((p.line l).enter p.now s).retake = some r) : (p.line l).retake = some r := by
    revert hr
    cases s with
    | quieting =>
      unfold Line.enter
      dsimp only
      split
      next k hk => split <;> simp [hk]
      next => exact nofun
    | run => exact id
    | quiet | test | disabled | failed => exact nofun
  have fits (m : ChannelId) : (p.enterLine l s).ChanFits m := by
    have k := h.chanFits m
    have line : (p.enterLine l s).line (p.lineOf m) =
        if p.lineOf m = l then (p.line l).enter p.now s else p.line (p.lineOf m) := Part.line_modLine ..
    refine ⟨k.record, ?_, fun j hb => ?_, ?_, ?_⟩
    · show (p.chan m).HasWork (((p.enterLine l s).line (p.lineOf m)).ordersOf m) (((p.enterLine l s).line (p.lineOf m)).flightOf m)
      rw [line]
      split
      next e => exact e ▸ k.work
      next => exact k.work
    · rw [Part.enterLine, Part.line_modLine]
      split
      next e =>
        have free := e ▸ k.elsewhere j hb
        exact ⟨free.orders, free.flight, fun ⟨r, hr, hc⟩ => free.retake ⟨r, retake hr, hc⟩⟩
      next => exact k.elsewhere j hb
    · show ((p.enterLine l s).line (p.lineOf m)).state = .quiet ∨ ((p.enterLine l s).line (p.lineOf m)).state = .test →
        ((p.enterLine l s).line (p.lineOf m)).flightOf m = none
      rw [line]
      split
      next => exact fun q => quiet q m
      next => exact k.quiet
    · show ((p.enterLine l s).line (p.lineOf m)).state = .disabled ∨ ((p.enterLine l s).line (p.lineOf m)).state = .failed → _
      rw [line]
      split
      next e =>
        intro q
        by_cases hu : (p.chan m).cfg.cls = .unused
        · exact .inl (k.record.unused.mpr hu)
        · exact .inr ((out q).2 m (Channel.boundTo_iff.mpr ⟨hu, e⟩))
      next => exact k.out
  refine .of fits fun j => ?_
  rw [Part.enterLine, Part.line_modLine]
  split
  · exact fun q => (out q).1
  · exact h.outIsStill j

end

end Sys2Proof.Machine
end

section
/-! SUPPORT. The Motion Unit's operations keep channels, queues and exchanges agreeing: grants, faults, and replies to a QUERY
(R98 to R101, R106 to R112). -/

namespace Sys2Proof.Machine

/-! ## The record of a channel -/

section
variable {c : Channel}

theorem Channel.fits.untimed (h : c.fits) (hq : c.motion ≠ .queued) (ho : c.motion ≠ .ordering) (hm : c.motion ≠ .moving) :
    c.travel = none := by
  by_contra ht
  rcases h.timed ht with e | e | e
  · exact hq e
  · exact ho e
  · exact hm e

theorem Channel.fits.unaccepted (h : c.fits) (ho : c.motion ≠ .ordering) (hm : c.motion ≠ .moving) : c.accepted = none := by
  by_contra ha
  exact (h.accepted ha).1.elim ho hm

theorem Channel.fits.unfaulted (h : c.fits) (hm : c.motion ≠ .faulted) : c.fault = none := by
  cases hf : c.fault with
  | none => rfl
  | some f => exact absurd (h.fault.mp (by rw [hf]; rfl)) hm

theorem Channel.fits.used (h : c.fits) (hm : c.motion ≠ .unused) : c.cfg.cls ≠ .unused := fun e => hm (h.unused.mpr e)

/-- A channel in use enters a state that its fields allow. -/
theorem Channel.fits_enter {m : Motion} (now : Nat) (used : c.cfg.cls ≠ .unused) (hm : m ≠ .unused)
    (fault : c.fault.isSome = true ↔ m = .faulted) (timed : c.travel ≠ none → m = .queued ∨ m = .ordering ∨ m = .moving)
    (moving : m = .moving → c.accepted ≠ none)
    (accepted : c.accepted ≠ none → (m = .ordering ∨ m = .moving) ∧ c.travel ≠ none)
    (unknown : m = .offline → c.position = none ∧ c.report = none) : (c.enter now m).fits where
  unused := ⟨fun e => absurd e hm, fun e => absurd e used⟩
  fault := fault
  timed := timed
  moving := moving
  accepted := accepted
  unknown e := unknown (e.resolve_left hm)

theorem Channel.fits_faultedWith (now : Nat) (f : FaultCode) (used : c.cfg.cls ≠ .unused) : (c.faultedWith now f).fits :=
  Channel.fits_enter now used nofun ⟨fun _ => rfl, fun _ => rfl⟩ (fun h => absurd rfl h) nofun (fun h => absurd rfl h) nofun

/-- IDLE and QUEUED without a travel timer, and FAULTED without a fault left, differ in nothing else. -/
theorem Channel.fits_enter_untimed {m : Motion} (now : Nat) (used : c.cfg.cls ≠ .unused) (hm : m = .idle ∨ m = .queued)
    (fault : c.fault = none) (travel : c.travel = none) (accepted : c.accepted = none) : (c.enter now m).fits := by
  rcases hm with rfl | rfl <;>
    exact Channel.fits_enter now used nofun (by simp [fault]) (fun h => absurd travel h) nofun (fun h => absurd accepted h) nofun

theorem Channel.fits_wentOffline (now : Nat) (used : c.cfg.cls ≠ .unused) (fault : c.fault = none) : (c.wentOffline now).fits :=
  Channel.fits_enter now used nofun (by simp [fault]) (fun h => absurd rfl h) nofun (fun h => absurd rfl h) fun _ => ⟨rfl, rfl⟩

/-- An ORDERING or MOVING channel may hold another superseding order. -/
theorem Channel.HasWork.of_superseding {os qs : List Order} {f : Option Exchange} (h : c.HasWork os f)
    (hm : c.motion = .ordering ∨ c.motion = .moving) (hq : superseding qs) : c.HasWork qs f := by
  cases h with
  | ordering e o m _ hf hk hh hs ht hsent => exact .ordering e o m hq hf hk hh hs ht hsent
  | moving m _ hf => exact .moving m hq hf
  | atRest m => rcases m with m | m | m | m <;> simp [m] at hm
  | queued _ m => simp [m] at hm
  | haltQueued _ m => simp [m] at hm
  | haltInFlight _ _ m => simp [m] at hm

theorem Channel.HasWork.underWay {os : List Order} {f : Option Exchange} (h : c.HasWork os f)
    (hm : c.motion = .ordering ∨ c.motion = .moving) : superseding os := by
  cases h with
  | ordering _ _ _ hq => exact hq
  | moving _ hq _ => exact hq
  | atRest m => rcases m with m | m | m | m <;> simp [m] at hm
  | queued _ m => simp [m] at hm
  | haltQueued _ m => simp [m] at hm
  | haltInFlight _ _ m => simp [m] at hm

end

/-! ## Entry into FAULTED and OFFLINE -/

section
variable {n : ChannelId} {p q : Part} {c : Channel} {os : List Order} {f : Option Exchange}

theorem Part.Leaves.queuedOf (k : p.Leaves n q c os f) : q.queuedOf n = os.head? := by
  rw [Part.queuedOf, Line.queued_eq, k.orders]

theorem Part.Leaves.dropWork (k : p.Leaves n q c os f) :
    p.Leaves n (q.dropWork n) { c with accepted := none, travel := none, shortMark := false } [] f :=
  k.removeOrder.modChan (fun c => { c with accepted := none, travel := none, shortMark := false }) fun _ => rfl

theorem Part.Leaves.forgetPosition (k : p.Leaves n q c os f) :
    p.Leaves n (q.forgetPosition n) { c with position := none, report := none } os f :=
  k.modChan (fun c => { c with position := none, report := none }) fun _ => rfl

theorem Part.Leaves.enterFaulted (k : p.Leaves n q c os f) (fault : FaultCode) :
    p.Leaves n (q.enterFaulted n fault) (({ c with fault := some fault } : Channel).enter q.now .faulted) os f :=
  ((k.modChan (fun c => { c with fault := some fault }) fun _ => rfl).setMotion .faulted).record _ _

theorem Part.Leaves.faultChannel (k : p.Leaves n q c os f) (fault : FaultCode) :
    p.Leaves n (q.faultChannel n fault) (c.faultedWith q.now fault) [] f := k.dropWork.enterFaulted fault

theorem Part.Leaves.goOffline (k : p.Leaves n q c os f) : p.Leaves n (q.goOffline n) (c.wentOffline q.now) [] f :=
  ((k.dropWork.forgetPosition).setMotion .offline).record _ _

/-- A channel without an order in flight faults. -/
theorem Part.Leaves.fits_faultChannel (k : p.Leaves n q c os f) (fault : FaultCode) (h : p.motionFits)
    (used : (p.chan n).cfg.cls ≠ .unused) (no : noOrder f)
    (quiet : (p.line (p.lineOf n)).state = .quiet ∨ (p.line (p.lineOf n)).state = .test → f = none) :
    (q.faultChannel n fault).motionFits := by
  have cls : c.cfg.cls ≠ .unused := by rw [← k.chan, k.near.cfg]; exact used
  exact (k.faultChannel fault).motionFits h used (Channel.fits_faultedWith _ _ cls)
    (.atRest (.inr (.inr (.inr rfl))) rfl no) quiet fun _ => .inr (.inr rfl)

theorem Part.Leaves.fits_goOffline (k : p.Leaves n q c os f) (h : p.motionFits) (used : (p.chan n).cfg.cls ≠ .unused)
    (unfaulted : c.fault = none) (no : noOrder f)
    (quiet : (p.line (p.lineOf n)).state = .quiet ∨ (p.line (p.lineOf n)).state = .test → f = none) :
    (q.goOffline n).motionFits := by
  have cls : c.cfg.cls ≠ .unused := by rw [← k.chan, k.near.cfg]; exact used
  exact k.goOffline.motionFits h used (Channel.fits_wentOffline _ cls unfaulted)
    (.atRest (.inr (.inl rfl)) rfl no) quiet fun _ => .inr (.inl rfl)

end

/-! ## Grants and grant notices -/

section
variable {p : Part} (h : p.motionFits) (n : ChannelId)
include h

theorem Part.motionFits.used (hm : (p.chan n).motion ≠ .unused) : (p.chan n).cfg.cls ≠ .unused := (h.channel n).used hm

/-- The line of a working channel is in service. -/
theorem Part.motionFits.inService (hm : working (p.chan n).motion = true) :
    ¬ ((p.line (p.lineOf n)).state = .disabled ∨ (p.line (p.lineOf n)).state = .failed) := by
  intro out
  rcases (h.chanFits n).out out with e | e | e <;> rw [e] at hm <;> exact Bool.noConfusion hm

theorem Part.motionFits.joinQueue {t : Nat} (hm : (p.chan n).motion = .idle) :
    ((p.joinOrder n t).setMotion n .queued).motionFits := by
  obtain ⟨orders, no⟩ := (h.hasWork n).of_resting (.inr (.inr (.inl hm)))
  have fits := h.channel n
  have travel := fits.untimed (by simp [hm]) (by simp [hm]) (by simp [hm])
  have k := Part.Leaves.refl n p
  rw [orders] at k
  refine ((k.joinOrder t).setMotion .queued).motionFits h (h.used n (by simp [hm]))
    (Channel.fits_enter_untimed _ (h.used n (by simp [hm])) (.inr rfl) (fits.unfaulted (by simp [hm])) travel
      (fits.unaccepted (by simp [hm]) (by simp [hm])))
    (.queued _ rfl rfl rfl ⟨fun s => Bool.noConfusion s, fun t => absurd travel t⟩ no) (h.chanFits n).quiet
    fun out => absurd out (h.inService n (by simp [hm, working]))

theorem Part.motionFits.testIdle : (p.testIdle n).motionFits := by
  unfold Part.testIdle
  dsimp only
  split
  next hi =>
    split
    · exact h.joinQueue n hi.1
    · exact h
  next => exact h

/-- An ORDERING or MOVING channel holds another superseding order. -/
theorem Part.motionFits.supersedes {q : Part} {os : List Order} (hm : (p.chan n).motion = .ordering ∨ (p.chan n).motion = .moving)
    (k : p.Leaves n q (p.chan n) os ((p.line (p.lineOf n)).flightOf n)) (hs : superseding os) : q.motionFits :=
  k.motionFits h (h.used n (by rcases hm with e | e <;> simp [e])) (h.channel n) ((h.hasWork n).of_superseding hm hs)
    (h.chanFits n).quiet fun out => absurd out (h.inService n (by rcases hm with e | e <;> simp [e, working]))

/-- A change of class in flight. -/
theorem Part.motionFits.reclass : (p.reclass n).motionFits := by
  rcases (p.line (p.lineOf n)).reclassInFlight_cases n (classOf (p.chan n).governing) with same | ⟨e, o, he, hk, hc, hh, new⟩
  · refine h.of_same (fun _ => rfl) fun l => ?_
    rw [Part.reclass, Part.line_modLine, same]
    split
    next e => rw [e]
    next => rfl
  · have flight : (p.line (p.lineOf n)).flightOf n = some e :=
      Line.flightOf_eq_some.mpr ⟨he, by rw [hk, ← hc]; rfl⟩
    obtain ⟨-, fits⟩ := h.fitsFlight flight hk
    have hm := fits.move hh
    have k := (Part.Leaves.refl n p).modLine (g := fun x => x.reclassInFlight n (classOf (p.chan n).governing))
      (.reclassInFlight n _ _)
    rw [new] at k
    have flight' : ({ p.line (p.lineOf n) with
        exchange := some { e with kind := .order { o with cls := classOf (p.chan n).governing } } } : Line).flightOf n =
        some { e with kind := .order { o with cls := classOf (p.chan n).governing } } :=
      Line.flightOf_eq_some.mpr ⟨rfl, by rw [← hc]; rfl⟩
    rw [flight'] at k
    refine k.motionFits h (h.used n (by simp [hm])) (h.channel n) ?_
      (fun q => absurd ((h.chanFits n).quiet q) (by simp [flight]))
      fun out => absurd out (h.inService n (by simp [hm, working]))
    cases h.hasWork n with
    | ordering e' o' m hq hf hk' hh' hs ht hsent =>
      obtain rfl : e = e' := Option.some.inj (flight ▸ hf)
      obtain rfl : o = o' := ExchangeKind.order.inj (hk ▸ hk')
      exact .ordering _ { o with cls := classOf (p.chan n).governing } m hq rfl rfl hh' hs ht hsent
    | _ => simp_all

theorem Part.motionFits.supersede (hm : (p.chan n).motion = .ordering ∨ (p.chan n).motion = .moving) (t : Nat) :
    (p.supersede n t).motionFits := by
  have r := h.reclass n
  have waits := (r.hasWork n).underWay hm
  have k := Part.Leaves.refl n (p.reclass n)
  rw [Part.supersede_eq]
  split
  · exact r.supersedes n hm k.removeOrder superseding_nil
  · have queue : ((p.line (p.lineOf n)).queued n).isSome = (((p.reclass n).line (p.lineOf n)).queued n).isSome := by
      rw [Part.reclass, Part.line_modLine_self, Line.queued_reclassInFlight]
    rw [queue, Line.queued_eq]
    rcases waits with empty | ⟨o, one, hh, hs⟩
    · have empty' : ((p.reclass n).line (p.lineOf n)).ordersOf n = [] := empty
      rw [empty] at k
      rw [empty', if_neg (by simp)]
      exact r.supersedes n hm (k.joinOrder t) (superseding_singleton rfl rfl)
    · have one' : ((p.reclass n).line (p.lineOf n)).ordersOf n = [o] := one
      rw [one] at k
      rw [one', if_pos (by simp)]
      exact r.supersedes n hm (k.retarget hh t _) (superseding_singleton rfl hs)

theorem Part.motionFits.notice : (p.notice n).motionFits := by
  have k := Part.Leaves.refl n p
  unfold Part.notice
  dsimp only
  split
  next => exact h.testIdle n
  next t hm _ =>
    obtain ⟨⟨o, one, hh, hs⟩, no⟩ := (h.hasWork n).of_queued hm
    have fits := h.channel n
    have used := h.used n (by simp [hm])
    have inService := h.inService n (by simp [hm, working])
    split
    · have unqueued := k.removeOrder.modChan (fun c => { c with travel := none, shortMark := false }) fun _ => rfl
      exact (unqueued.setMotion .idle).motionFits h used
        (Channel.fits_enter_untimed _ used (.inl rfl) (fits.unfaulted (by simp [hm])) rfl
          (fits.unaccepted (by simp [hm]) (by simp [hm])))
        (.atRest (.inr (.inr (.inl rfl))) rfl no) (h.chanFits n).quiet fun out => absurd out inService
    · rw [one] at k
      exact (k.retarget hh t _).motionFits h used fits (.queued _ hm rfl rfl hs no) (h.chanFits n).quiet
        fun out => absurd out inService
  next t hm _ => exact h.supersede n (.inl hm) t
  next t hm _ => exact h.supersede n (.inr hm) t
  next => exact h

theorem Part.motionFits.regrant : (p.regrant n).motionFits :=
  have granted := h.modChan n (fun c => { c with governing := (p.governs n).1, granted := (p.governs n).2 })
    ⟨rfl, rfl, rfl, .rfl, .rfl, id, id⟩
  granted.of_same (fun _ => rfl) fun _ => rfl

theorem Part.motionFits.recompute : (p.recompute n).motionFits := by
  rw [Part.recompute_eq]
  split
  · exact h
  · exact (h.regrant n).notice n

end

/-! ## A FAULTED channel freed (R18, R19) -/

section
variable {p : Part} (h : p.motionFits) (n : ChannelId)
include h

theorem Part.motionFits.leaveFaulted (hm : (p.chan n).motion = .faulted) : (p.leaveFaulted n).motionFits := by
  obtain ⟨orders, no⟩ := (h.hasWork n).of_resting (.inr (.inr (.inr hm)))
  have fits := h.channel n
  have used := h.used n (by simp [hm])
  have travel := fits.untimed (by simp [hm]) (by simp [hm]) (by simp [hm])
  have accepted := fits.unaccepted (by simp [hm]) (by simp [hm])
  have k := Part.Leaves.refl n p
  rw [orders] at k
  have freed := k.modChan (fun c => { c with lastFault := c.fault, fault := none, miss := 0, shortMark := false }) fun _ => rfl
  have offline : ((((p.modChan n fun c => { c with lastFault := c.fault, fault := none, miss := 0, shortMark := false }).forgetPosition
      n).setMotion n .offline).recordOffline n).motionFits :=
    ((freed.forgetPosition.setMotion .offline).record _ _).motionFits h used
      (Channel.fits_enter _ used nofun (by simp) (fun t => absurd travel t) nofun (fun a => absurd accepted a)
        fun _ => ⟨rfl, rfl⟩)
      (.atRest (.inr (.inl rfl)) rfl no) (h.chanFits n).quiet fun _ => .inr (.inl rfl)
  have idle (hs : ¬ ((p.line (p.lineOf n)).state = .disabled ∨ (p.line (p.lineOf n)).state = .failed)) :
      (((p.modChan n fun c => { c with lastFault := c.fault, fault := none, miss := 0, shortMark := false }).setMotion
        n .idle).testIdle n).motionFits :=
    ((freed.setMotion .idle).motionFits h used (Channel.fits_enter_untimed _ used (.inl rfl) rfl travel accepted)
      (.atRest (.inr (.inr (.inl rfl))) rfl no) (h.chanFits n).quiet fun out => absurd out hs).testIdle n
  unfold Part.leaveFaulted
  dsimp only
  split
  next => exact offline
  next => exact offline
  all_goals rename_i hs; exact idle (by simp [hs])

end

/-! ## The end of a QUERY (R108 to R112) -/

section
variable {p : Part} (h : p.motionFits) (n : ChannelId)
include h

theorem Part.motionFits.clearMiss : (p.clearMiss n).motionFits := h.modChan n _ ⟨rfl, rfl, rfl, .rfl, .rfl, id, id⟩

theorem Part.motionFits.queryMissed : (p.queryMissed n).motionFits := by
  have missed : (p.modChan n fun c => { c with miss := saturate missCeiling (c.miss + 1) }).motionFits :=
    h.modChan n _ ⟨rfl, rfl, rfl, .rfl, .rfl, id, id⟩
  have gone (hm : (p.chan n).motion = .idle ∨ (p.chan n).motion = .queued ∨ (p.chan n).motion = .moving) :
      ((p.modChan n fun c => { c with miss := saturate missCeiling (c.miss + 1) }).goOffline n).motionFits := by
    refine ((Part.Leaves.refl n p).modChan (fun c => { c with miss := saturate missCeiling (c.miss + 1) })
      fun _ => rfl).fits_goOffline h (h.used n ?_) ((h.channel n).unfaulted ?_)
      ((h.hasWork n).noOrder ?_ ?_) (h.chanFits n).quiet <;> rcases hm with e | e | e <;> simp [e]
  unfold Part.queryMissed
  dsimp only
  split
  next => exact h
  next => exact h
  next => exact h
  next => exact missed
  next =>
    split
    · exact missed.modChan n (fun c => { c with position := none, report := none }) ⟨rfl, rfl, rfl, .rfl, .rfl, fun _ => rfl, fun _ => rfl⟩
    · exact missed
  next hm => split; exacts [gone (.inl hm), missed]
  next hm => split; exacts [gone (.inr (.inl hm)), missed]
  next hm => split; exacts [gone (.inr (.inr hm)), missed]

/-- R109: the accepted order of a MOVING channel is complete. -/
theorem Part.motionFits.complete (hm : (p.chan n).motion = .moving) : (p.complete n).motionFits := by
  obtain ⟨waits, no⟩ := (h.hasWork n).of_moving hm
  have unfaulted := (h.channel n).unfaulted (by simp [hm])
  have used := h.used n (by simp [hm])
  have inService := h.inService n (by simp [hm, working])
  have k := (Part.Leaves.refl n p).modChan (fun c => { c with accepted := none, travel := none, shortMark := false }) fun _ => rfl
  unfold Part.complete
  extract_lets p1 p2
  have k : p.Leaves n p2 { p.chan n with accepted := none, travel := none, shortMark := false }
      ((p.line (p.lineOf n)).ordersOf n) ((p.line (p.lineOf n)).flightOf n) := by unfold p2; split; exacts [k.joinNotices n, k]
  have idle {q : Part} (k : p.Leaves n q { p.chan n with accepted := none, travel := none, shortMark := false } []
      ((p.line (p.lineOf n)).flightOf n)) : ((q.setMotion n .idle).testIdle n).motionFits :=
    ((k.setMotion .idle).motionFits h used (Channel.fits_enter_untimed _ used (.inl rfl) unfaulted rfl rfl)
      (.atRest (.inr (.inr (.inl rfl))) rfl no) (h.chanFits n).quiet fun out => absurd out inService).testIdle n
  rw [k.queuedOf]
  rcases waits with empty | ⟨o, one, hh, hs⟩
  · rw [empty] at k ⊢
    exact idle k
  · rw [one] at k ⊢
    have queued : (p2.setMotion n .queued).motionFits :=
      (k.setMotion .queued).motionFits h used (Channel.fits_enter_untimed _ used (.inr rfl) unfaulted rfl rfl)
        (.queued o rfl rfl hh ⟨fun s => Bool.noConfusion (hs.symm.trans s), fun t => absurd rfl t⟩ no) (h.chanFits n).quiet
        fun out => absurd out inService
    dsimp only [List.head?_cons]
    split
    · split
      · exact idle k.removeOrder
      · exact queued
    · exact queued

/-- R110: the accepted order of a MOVING channel is re-entered once as sent, or its channel faults. -/
theorem Part.motionFits.shortTravel (hm : (p.chan n).motion = .moving) (t : Nat) : (p.shortTravel n t).motionFits := by
  obtain ⟨waits, no⟩ := (h.hasWork n).of_moving hm
  have fits := h.channel n
  have unfaulted := fits.unfaulted (by simp [hm])
  have travel := (fits.accepted (fits.moving hm)).2
  have used := h.used n (by simp [hm])
  have inService := h.inService n (by simp [hm, working])
  have k := Part.Leaves.refl n p
  unfold Part.shortTravel
  dsimp only
  rw [k.queuedOf]
  rcases waits with empty | ⟨o, one, hh, hs⟩
  · rw [empty, if_neg (by simp)]
    rw [empty] at k
    split
    · exact k.fits_faultChannel _ h used no (h.chanFits n).quiet
    · have again := k.modChan (fun c => { c with accepted := none, shortMark := true }) fun _ => rfl
      have lineOf := again.near.lineOf
      have again := again.reenter
        (o := { p.newOrder n (.move t) (classOf (p.chan n).governing) with sent := true }) rfl
      rw [lineOf] at again
      exact (again.setMotion .queued).motionFits h used
        (Channel.fits_enter _ used nofun (by simp [unfaulted]) (fun _ => .inl rfl) nofun (fun a => absurd rfl a) nofun)
        (.queued _ rfl rfl rfl ⟨fun _ => travel, fun _ => rfl⟩ no) (h.chanFits n).quiet fun out => absurd out inService
  · rw [one, if_pos (by simp)]
    rw [one] at k
    have ended := k.modChan (fun c => { c with accepted := none, travel := none, shortMark := false }) fun _ => rfl
    exact (ended.setMotion .queued).motionFits h used (Channel.fits_enter_untimed _ used (.inr rfl) unfaulted rfl rfl)
      (.queued o rfl rfl hh ⟨fun s => Bool.noConfusion (hs.symm.trans s), fun t => absurd rfl t⟩ no) (h.chanFits n).quiet
      fun out => absurd out inService

/-- A known position and a node report fit in every state but UNUSED and OFFLINE. -/
theorem Part.motionFits.takeStatus (hu : (p.chan n).motion ≠ .unused) (ho : (p.chan n).motion ≠ .offline) (position : Word)
    (m : NodeMotion) (motion : Byte) : (p.takeStatus n position m motion).motionFits := by
  have fits := h.channel n
  have k := (Part.Leaves.refl n p).modChan
    (fun c => { c with position := positionOfWord position, report := some (nodeReportOfByte m motion), miss := 0 }) fun _ => rfl
  refine k.motionFits h (h.used n hu) ⟨fits.unused, fits.fault, fits.timed, fits.moving, fits.accepted,
    fun e => absurd e (not_or.mpr ⟨hu, ho⟩)⟩ ?_ (h.chanFits n).quiet (h.chanFits n).out
  cases h.hasWork n with
  | atRest hm hq hf => exact .atRest hm hq hf
  | queued o m hq hh hs hf => exact .queued o m hq hh hs hf
  | ordering e o m hq hf hk hh hs ht hsent => exact .ordering e o m hq hf hk hh hs ht hsent
  | moving m hq hf => exact .moving m hq hf
  | haltQueued o m hq hh hf => exact .haltQueued o m hq hh hf
  | haltInFlight e o m hq hf hk hh hsent => exact .haltInFlight e o m hq hf hk hh hsent

/-- R108 to R111: STATUS in answer to a QUERY whose exchange has ended. -/
theorem Part.motionFits.queryStatus (used : (p.chan n).cfg.cls ≠ .unused)
    (flight : (p.line (p.lineOf n)).flightOf n = none)
    (service : ¬ ((p.line (p.lineOf n)).state = .disabled ∨ (p.line (p.lineOf n)).state = .failed)) (position : Word) (m : NodeMotion) (motion faults : Byte) :
    (p.queryStatus n position m motion faults).motionFits := by
  have fits := h.channel n
  have hu : (p.chan n).motion ≠ .unused := fun e => used (fits.unused.mp e)
  have no : noOrder ((p.line (p.lineOf n)).flightOf n) := flight ▸ noOrder_none
  have k := (Part.Leaves.refl n p).modChan
    (fun c => { c with position := positionOfWord position, report := some (nodeReportOfByte m motion), miss := 0 }) fun _ => rfl
  have same : ((p.takeStatus n position m motion).chan n).motion = (p.chan n).motion := by
    rw [Part.takeStatus, k.chan]
  have taken (ho : (p.chan n).motion ≠ .offline) := h.takeStatus n hu ho position m motion
  unfold Part.queryStatus
  dsimp only
  rw [same]
  split
  · exact k.fits_faultChannel _ h used no (h.chanFits n).quiet
  · split
    next hm =>
      have fit := taken (by simp [hm])
      split
      · split
        · exact fit.complete n (same.trans hm)
        · exact fit.shortTravel n (same.trans hm) _
      · exact fit
    next hm =>
      obtain ⟨orders, -⟩ := (h.hasWork n).of_resting (.inr (.inl hm))
      rw [orders] at k
      exact ((k.setMotion .idle).motionFits h used
          (Channel.fits_enter_untimed _ used (.inl rfl) (fits.unfaulted (by simp [hm]))
            (fits.untimed (by simp [hm]) (by simp [hm]) (by simp [hm])) (fits.unaccepted (by simp [hm]) (by simp [hm])))
          (.atRest (.inr (.inr (.inl rfl))) rfl no) (h.chanFits n).quiet fun out => absurd out service).testIdle n
    next hm => exact (taken (by simp [hm])).testIdle n
    next hm => exact taken (by simp [hm])
    next hm => exact taken (by simp [hm])
    next hm => exact taken (by simp [hm])
    next hm => exact taken (by simp [hm])
    next hm => exact absurd hm hu

end

end Sys2Proof.Machine
end

section
/-! SUPPORT. An ORDER or HALT whose exchange has ended is settled (R103 to R107, R114, R123). -/

namespace Sys2Proof.Machine

/-- What the channel of an ORDER or HALT that has left the line holds. -/
structure Order.Landed (o : Order) (c : Channel) (os : List Order) : Prop where
  record : c.fits
  move : o.isHalt = false → c.motion = .ordering ∧ superseding os ∧
    (o.sent = true → c.travel ≠ none ∧ c.accepted = none) ∧ (c.travel ≠ none → o.sent = true ∨ c.accepted ≠ none)
  halt : o.isHalt = true → c.motion = .halting ∧ os = []

/-- From a part that agrees, the exchange of an order on a line has ended. -/
structure Part.Ended (l : LineId) (o : Order) (p q : Part) (c : Channel) (os : List Order) : Prop where
  fits : p.motionFits
  used : (p.chan o.channel).cfg.cls ≠ .unused
  service : (p.line (p.lineOf o.channel)).state = .run ∨ (p.line (p.lineOf o.channel)).state = .quieting
  line : p.lineOf o.channel = l
  leaves : p.Leaves o.channel q c os none
  landed : o.Landed c os

section
variable {p q : Part} {l : LineId} {e : Exchange} {o : Order} {c : Channel} {os : List Order}

theorem Part.motionFits.bound_of_exchange (h : p.motionFits) {n : ChannelId} (he : (p.line l).exchange = some e)
    (hk : e.kind.channel = some n) : (p.chan n).boundTo l = true :=
  h.bound_of_flight (Line.flightOf_eq_some.mpr ⟨he, hk⟩)

/-- A line with a transaction in flight is in RUN or QUIETING. -/
theorem Part.motionFits.service_of_exchange (h : p.motionFits) {n : ChannelId} (he : (p.line l).exchange = some e)
    (hk : e.kind.channel = some n) : (p.line l).state = .run ∨ (p.line l).state = .quieting := by
  have idle := (h.line l).idle
  have out := (h.line l).out
  cases hs : (p.line l).state with
  | run => exact .inl rfl
  | quieting => exact .inr rfl
  | quiet => have := idle (.inl hs) e he; rw [hk] at this; exact nomatch this
  | test => have := idle (.inr hs) e he; rw [hk] at this; exact nomatch this
  | disabled => have := (out (.inl hs)).1; rw [he] at this; exact nomatch this
  | failed => have := (out (.inr hs)).1; rw [he] at this; exact nomatch this

/-- The exchange of an order leaves the line; the rest of the line's work stands. -/
theorem Part.motionFits.ends (h : p.motionFits) (he : (p.line l).exchange = some e) (hk : e.kind = .order o) (g : Line → Line)
    (hg : ∀ x, (g x).state = x.state ∧ (g x).urgent = x.urgent ∧ (g x).routine = x.routine ∧ (g x).retake = x.retake ∧
      (g x).exchange = none) :
    Part.Ended l o p (p.modLine l g) (p.chan o.channel) ((p.line l).ordersOf o.channel) := by
  have hc : e.kind.channel = some o.channel := by rw [hk]; rfl
  have bound := h.bound_of_exchange he hc
  obtain rfl := Part.boundTo_lineOf bound
  have flight : (p.line (p.lineOf o.channel)).flightOf o.channel = some e := Line.flightOf_eq_some.mpr ⟨he, hc⟩
  refine ⟨h, (Channel.boundTo_iff.mp bound).1, h.service_of_exchange he hc, rfl,
    (Part.Leaves.refl o.channel p).dropExchange he hc hg, h.channel o.channel, fun hh => ?_, fun hh => ?_⟩
  all_goals
    obtain ⟨-, hf⟩ := h.fitsFlight flight hk
    have work := h.hasWork o.channel
  · have hm := hf.move hh
    cases work with
    | ordering e' o' m hq hf' hk' _ hs ht _ =>
      obtain rfl : e = e' := Option.some.inj (flight ▸ hf')
      obtain rfl : o = o' := ExchangeKind.order.inj (hk ▸ hk')
      exact ⟨m, hq, hs, ht⟩
    | _ => simp_all
  · have hm := (hf.halt hh).1
    cases work with
    | haltInFlight _ _ m hq => exact ⟨m, hq⟩
    | haltQueued _ _ _ _ no => exact absurd hk (no e o flight)
    | _ => simp_all

theorem Order.Landed.of_eq {d : Channel} (h : o.Landed c os) (record : d.fits) (motion : d.motion = c.motion)
    (travel : d.travel = c.travel) (accepted : d.accepted = c.accepted) : o.Landed d os := by
  refine ⟨record, ?_, ?_⟩
  · rw [motion, travel, accepted]; exact h.move
  · rw [motion]; exact h.halt

section
variable (k : p.Ended l o q c os)
include k

theorem Part.Ended.inService :
    ¬ ((p.line (p.lineOf o.channel)).state = .disabled ∨ (p.line (p.lineOf o.channel)).state = .failed) := by
  rcases k.service with e | e <;> simp [e]

theorem Part.Ended.cls : c.cfg.cls ≠ .unused := by rw [← k.leaves.chan, k.leaves.near.cfg]; exact k.used

theorem Part.Ended.lineOf : q.lineOf o.channel = l := k.leaves.near.lineOf.trans k.line

theorem Part.Ended.queued : (q.line l).queued o.channel = os.head? := by rw [← k.lineOf]; exact k.leaves.queuedOf

theorem Part.Ended.record (b : BankId) (x : ErrorRecord) : p.Ended l o (q.record b x) c os :=
  ⟨k.fits, k.used, k.service, k.line, k.leaves.record b x, k.landed⟩

theorem Part.Ended.advanceTo (t : Nat) : p.Ended l o (q.advanceTo t) c os :=
  ⟨k.fits, k.used, k.service, k.line, k.leaves.advanceTo t, k.landed⟩

/-- The order re-enters with fewer retries or a backoff. -/
theorem Part.Ended.again (retries : Nat) (backoff : Option Nat) :
    p.Ended l { o with retriesLeft := retries, backoff := backoff } q c os :=
  ⟨k.fits, k.used, k.service, k.line, k.leaves, k.landed.record, k.landed.move, k.landed.halt⟩

theorem Part.Ended.modChan (g : Channel → Channel) (hg : ∀ d : Channel, (g d).cfg = d.cfg) (record : (g c).fits)
    (motion : (g c).motion = c.motion) (travel : (g c).travel = c.travel) (accepted : (g c).accepted = c.accepted) :
    p.Ended l o (q.modChan o.channel g) (g c) os :=
  ⟨k.fits, k.used, k.service, k.line, k.leaves.modChan g hg, k.landed.of_eq record motion travel accepted⟩

theorem Part.Ended.clearMiss : p.Ended l o (q.clearMiss o.channel) { c with miss := 0 } os :=
  k.modChan (fun c => { c with miss := 0 }) (fun _ => rfl)
    (Channel.Alike.fits (c := c) (d := { c with miss := 0 }) ⟨rfl, rfl, rfl, .rfl, .rfl, id, id⟩ k.landed.record) rfl rfl rfl

/-- A STATUS of a HALTING or ORDERING channel. -/
theorem Part.Ended.takeStatus (position : Word) (m : NodeMotion) (motion : Byte) :
    p.Ended l o (q.takeStatus o.channel position m motion)
      { c with position := positionOfWord position, report := some (nodeReportOfByte m motion), miss := 0 } os := by
  have fits := k.landed.record
  refine k.modChan (fun c => { c with position := positionOfWord position, report := some (nodeReportOfByte m motion), miss := 0 })
    (fun _ => rfl) ⟨fits.unused, fits.fault, fits.timed, fits.moving, fits.accepted, fun e => ?_⟩ rfl rfl rfl
  have motion : c.motion = .ordering ∨ c.motion = .halting := by
    cases hh : o.isHalt with
    | false => exact .inl (k.landed.move hh).1
    | true => exact .inr (k.landed.halt hh).1
  rcases motion with hm | hm <;> rcases e with e | e <;> exact nomatch hm.symm.trans e

theorem Part.Ended.faultChannel (f : FaultCode) : (q.faultChannel o.channel f).motionFits :=
  k.leaves.fits_faultChannel f k.fits k.used noOrder_none fun _ => rfl

theorem Part.Ended.enterFaulted (hh : o.isHalt = true) (f : FaultCode) : (q.enterFaulted o.channel f).motionFits := by
  obtain ⟨hm, empty⟩ := k.landed.halt hh
  have travel := k.landed.record.untimed (by simp [hm]) (by simp [hm]) (by simp [hm])
  have accepted := k.landed.record.unaccepted (by simp [hm]) (by simp [hm])
  refine (k.leaves.enterFaulted f).motionFits k.fits k.used
    (Channel.fits_enter _ k.cls nofun ⟨fun _ => rfl, fun _ => rfl⟩ (fun h => absurd travel h) nofun
      (fun h => absurd accepted h) nofun) (.atRest (.inr (.inr (.inr rfl))) empty noOrder_none) (fun _ => rfl)
    fun out => absurd out k.inService

/-- R103: the accepted order under way goes on. -/
theorem Part.Ended.toMoving {r : Part} {qs : List Order} (hh : o.isHalt = false) (ha : c.accepted ≠ none)
    (ls : p.Leaves o.channel r c qs none) (hq : superseding qs) : (r.setMotion o.channel .moving).motionFits := by
  have fits := k.landed.record
  have unfaulted := fits.unfaulted (by simp [(k.landed.move hh).1])
  exact (ls.setMotion .moving).motionFits k.fits k.used
    (Channel.fits_enter _ k.cls nofun (by simp [unfaulted]) (fun _ => .inr (.inr rfl)) (fun _ => ha)
      (fun a => ⟨.inr rfl, (fits.accepted a).2⟩) nofun) (.moving rfl hq noOrder_none) (fun _ => rfl)
    fun out => absurd out k.inService

/-- R103: an order of the channel waits. -/
theorem Part.Ended.toQueued {r : Part} {d : Channel} {w : Order} (hh : o.isHalt = false) (ha : c.accepted = none)
    (ls : p.Leaves o.channel r d [w] none) (hd : d = { c with travel := d.travel }) (wh : w.isHalt = false)
    (ws : w.sent = true ↔ d.travel ≠ none) : (r.setMotion o.channel .queued).motionFits := by
  have unfaulted := k.landed.record.unfaulted (by simp [(k.landed.move hh).1])
  have cls : d.cfg.cls ≠ .unused := by rw [hd]; exact k.cls
  have fault : d.fault = none := by rw [hd]; exact unfaulted
  have accepted : d.accepted = none := by rw [hd]; exact ha
  exact (ls.setMotion .queued).motionFits k.fits k.used
    (Channel.fits_enter _ cls nofun (by simp [fault]) (fun _ => .inl rfl) nofun (fun a => absurd accepted a) nofun)
    (.queued w rfl rfl wh ws noOrder_none) (fun _ => rfl) fun out => absurd out k.inService

theorem Part.Ended.settleMove (hh : o.isHalt = false) {t : Nat} (hw : o.work = .move t) :
    (q.settleAttempt l o).motionFits := by
  obtain ⟨hm, waits, sent, timed⟩ := k.landed.move hh
  have ls := k.leaves
  have stopped {r : Part} {qs : List Order} (ls : p.Leaves o.channel r c qs none) :
      p.Leaves o.channel (r.stopTravel o.channel) { c with travel := none } qs none :=
    ls.modChan (fun c => { c with travel := none }) fun _ => rfl
  unfold Part.settleAttempt
  rw [hw]
  dsimp only
  rw [k.queued, ls.chan]
  rcases waits with empty | ⟨w, one, wh, ws⟩
  · rw [empty] at ls ⊢
    have entered := ls.reenter (o := o) rfl
    rw [k.lineOf] at entered
    simp only [List.head?_nil, Option.isSome_none, Bool.false_or, Bool.not_eq_true', Bool.false_eq_true, if_false]
    split
    next ha =>
      have accepted : c.accepted ≠ none := Option.isSome_iff_ne_none.mp ha
      have unsent : o.sent = false := by
        by_contra s
        exact accepted (sent (by simpa using s)).2
      exact k.toMoving hh accepted entered (superseding_singleton hh unsent)
    next ha =>
      have accepted : c.accepted = none := by simpa using ha
      split
      next unsent =>
        exact k.toQueued hh accepted (stopped entered) rfl hh
          ⟨fun s => Bool.noConfusion (unsent.symm.trans s), fun t => absurd rfl t⟩
      next s => exact k.toQueued hh accepted entered rfl hh ⟨fun s => (sent s).1, fun _ => by simpa using s⟩
  · rw [one] at ls ⊢
    simp only [List.head?_cons, Option.isSome_some, Bool.true_or, if_true]
    split
    next ha => exact k.toMoving hh (Option.isSome_iff_ne_none.mp ha) ls (superseding_singleton wh ws)
    next ha =>
      exact k.toQueued hh (by simpa using ha) (stopped ls) rfl wh
        ⟨fun s => Bool.noConfusion (ws.symm.trans s), fun t => absurd rfl t⟩

theorem Part.Ended.settleAttempt : (q.settleAttempt l o).motionFits := by
  cases hw : o.work with
  | move t => exact k.settleMove (by simp [Order.isHalt, hw]) hw
  | halt v =>
    have hh : o.isHalt = true := by simp [Order.isHalt, hw]
    obtain ⟨hm, empty⟩ := k.landed.halt hh
    have ls := k.leaves
    rw [empty] at ls
    have entered := ls.reenter (o := { o with cls := .urgent }) rfl
    rw [k.lineOf, hw] at entered
    unfold Part.settleAttempt
    rw [hw]
    exact entered.motionFits k.fits k.used k.landed.record (.haltQueued _ hm rfl rfl noOrder_none) (fun _ => rfl)
      fun out => absurd out k.inService

theorem Part.Ended.orderFailed (f : Failure) : (q.orderFailed l o f).motionFits := by
  have retry := (k.again (o.retriesLeft - 1) o.backoff).settleAttempt
  cases hw : o.work with
  | move t =>
    simp only [Part.orderFailed, hw]
    split
    · exact k.settleAttempt
    · split
      · exact k.faultChannel _
      · rwa [hw] at retry
  | halt v =>
    simp only [Part.orderFailed, hw]
    split
    · exact k.enterFaulted (by simp [Order.isHalt, hw]) _
    · rwa [hw] at retry

theorem Part.Ended.orderBusy : (q.orderBusy l o).motionFits := (k.clearMiss.again o.retriesLeft (some q.now)).settleAttempt

theorem Part.Ended.orderRefused (reason : Byte) : (q.orderRefused o reason).motionFits := by
  cases hw : o.work with
  | move t => simp only [Part.orderRefused, hw]; exact k.clearMiss.faultChannel _
  | halt v => simp only [Part.orderRefused, hw]; exact k.clearMiss.enterFaulted (by simp [Order.isHalt, hw]) _

theorem Part.Ended.haltStatus (hh : o.isHalt = true) (v : Nat) (position : Word) (m : NodeMotion) (motion : Byte) :
    (q.haltStatus o v position m motion).motionFits := (k.takeStatus position m motion).enterFaulted hh _

/-- R104: an ACCEPT answers an order that has been sent. -/
theorem Part.Ended.orderAccepted (sent : o.sent = true) : (q.orderAccepted o).motionFits := by
  cases hw : o.work with
  | halt v => simp only [Part.orderAccepted, hw]; exact k.clearMiss.enterFaulted (by simp [Order.isHalt, hw]) _
  | move t =>
    have hh : o.isHalt = false := by simp [Order.isHalt, hw]
    obtain ⟨hm, waits, hs, -⟩ := k.landed.move hh
    have unfaulted := k.landed.record.unfaulted (by simp [hm])
    have ls := k.clearMiss.leaves.modChan (fun c => { c with accepted := some t }) fun _ => rfl
    simp only [Part.orderAccepted, hw]
    exact (ls.setMotion .moving).motionFits k.fits k.used
      (Channel.fits_enter _ k.cls nofun (by simp [unfaulted]) (fun _ => .inr (.inr rfl)) (fun _ => nofun)
        (fun _ => ⟨.inr rfl, (hs sent).1⟩) nofun) (.moving rfl waits noOrder_none) (fun _ => rfl)
      fun out => absurd out k.inService

end

end

end Sys2Proof.Machine
end

section
/-! SUPPORT. The end of an exchange, the frames heard and an arbitration loss keep channels, queues and exchanges agreeing
(R103, R123 to R127). -/

namespace Sys2Proof.Machine

/-! ## The end of an exchange -/

section
variable (p : Part) (l : LineId) (free : Nat)

theorem Part.endExchange_of_order {e : Exchange} {o : Order} (he : (p.line l).exchange = some e) (hk : e.kind = .order o) :
    p.endExchange l free = p.modLine l fun x => x.endExchange free := by
  simp only [Part.endExchange, he, hk]

theorem Part.endExchange_lineOf (n : ChannelId) : (p.endExchange l free).lineOf n = p.lineOf n :=
  congrArg ChannelConfig.line (((Part.KeepsGrants.refl p).endExchange l free).cfg n)

/-- The supervision and poll timers of a QUERY's channel apart, an end of the exchange changes the line alone. -/
theorem Part.endExchange_line {e : Exchange} (he : (p.line l).exchange = some e) :
    (p.endExchange l free).line l = (p.line l).endExchange free := by
  have ended : (p.modLine l fun x => x.endExchange free).line l = (p.line l).endExchange free := p.line_modLine_self l _
  cases hk : e.kind with
  | order o => simp only [Part.endExchange, he, hk]; exact ended
  | query n poll => simp only [Part.endExchange, he, hk]; cases poll <;> exact ended
  | test bytes discarded => simp only [Part.endExchange, he, hk]; exact ended

end

/-- Whose reply is awaited has been sent. -/
theorem Line.exchange_of_awaiting {x : Line} {addr : BitVec 4} {k : ExchangeKind} (h : x.awaiting addr = some k) :
    ∃ e, x.exchange = some e ∧ e.kind = k ∧ e.sentAt ≠ none := by
  unfold Line.awaiting at h
  split at h
  next e he =>
    split at h
    next hs => exact ⟨e, he, Option.some.inj h, Option.isSome_iff_ne_none.mp hs.1⟩
    next => exact nomatch h
  next => exact nomatch h

section
variable {p : Part} (h : p.motionFits)
include h

theorem Part.motionFits.advanceTo (t : Nat) : (p.advanceTo t).motionFits := h.of_same (fun _ => rfl) fun _ => rfl
theorem Part.motionFits.record (b : BankId) (x : ErrorRecord) : (p.record b x).motionFits := h.of_same (fun _ => rfl) fun _ => rfl
theorem Part.motionFits.modTest (l : LineId) (f : LineTest → LineTest) : (p.modTest l f).motionFits :=
  h.sameExchange (f := fun x => { x with test := f x.test }) ⟨rfl, rfl, rfl, fun _ => id⟩ rfl
theorem Part.motionFits.restartSupervision (n : ChannelId) (now : Nat) :
    (p.modChan n fun c => c.restartSupervision now).motionFits :=
  h.modChan n _ ⟨rfl, rfl, rfl, .rfl, .rfl, id, id⟩
theorem Part.motionFits.restartPoll (n : ChannelId) (now : Nat) : (p.modChan n fun c => c.restartPoll now).motionFits :=
  h.modChan n _ ⟨rfl, rfl, rfl, .rfl, .rfl, id, id⟩

section
variable {l : LineId} {e : Exchange}

theorem Part.motionFits.endOrder {o : Order} (he : (p.line l).exchange = some e) (hk : e.kind = .order o) (free : Nat) :
    Part.Ended l o p (p.endExchange l free) (p.chan o.channel) ((p.line l).ordersOf o.channel) := by
  rw [Part.endExchange_of_order p l free he hk]
  exact h.ends he hk (fun x => x.endExchange free) fun x => ⟨rfl, rfl, rfl, rfl, rfl⟩

/-- A QUERY or a test frame ends. -/
theorem Part.motionFits.endOther (he : (p.line l).exchange = some e) (no : ∀ o, e.kind ≠ .order o) (free : Nat) :
    (p.endExchange l free).motionFits := by
  have dropped : (p.modLine l fun x => x.endExchange free).motionFits :=
    h.dropExchange (f := fun x => x.endExchange free) ⟨rfl, rfl, rfl, fun _ => id⟩
      (fun e' o h' => by obtain rfl : e = e' := Option.some.inj (he ▸ h'); exact no o) rfl
  cases hk : e.kind with
  | order o => exact absurd hk (no o)
  | test bytes discarded => simpa only [Part.endExchange, he, hk] using dropped
  | query n poll =>
    have supervised := dropped.restartSupervision n p.now
    simp only [Part.endExchange, he, hk]
    cases poll with
    | true => exact supervised.restartPoll n p.now
    | false => exact supervised

theorem Part.motionFits.countTest (he : (p.line l).exchange = some e) (no : ∀ o, e.kind ≠ .order o) (bytes : Pattern)
    (discarded : Bool) (back : List (Option Byte)) (free : Nat) : (p.countTest l bytes discarded back free).motionFits := by
  have ended := h.endOther he no free
  unfold Part.countTest Part.countFrame
  split
  · exact ended
  · exact ended.modTest l _

end

theorem Part.motionFits.failExchange (l : LineId) (f : Failure) (free : Nat) : (p.failExchange l f free).motionFits := by
  unfold Part.failExchange
  split
  next e he =>
    split
    next o hk => exact ((h.endOrder he hk free).record _ _).orderFailed f
    next n poll hk => exact ((h.endOther he (by simp [hk]) free).record _ _).queryMissed n
    next => exact h
  next => exact h

theorem Part.motionFits.lineBusyUntilGap (l : LineId) : (p.lineBusyUntilGap l).motionFits :=
  h.sameExchange (f := fun x => x.heard p.now) ⟨rfl, rfl, rfl, fun _ => id⟩ rfl

theorem Part.motionFits.hearOther (l : LineId) (k : Heard) : (p.hearOther l k).motionFits := by
  unfold Part.hearOther
  dsimp only
  split
  · exact h
  · split
    · exact (h.lineBusyUntilGap l).record _ _
    next e he =>
      split
      · exact h
      · split
        · exact h.failExchange l _ _
        · exact h.failExchange l _ _
        next hk => exact (h.countTest he (by simp [hk]) _ _ _ _).record _ _

/-! ## Replies -/

theorem Part.motionFits.hearStatus (l : LineId) (addr : BitVec 4) (position : Word) (motion faults : Byte) :
    (p.hearStatus l addr position motion faults).motionFits := by
  unfold Part.hearStatus
  split
  · exact h.hearOther l _
  · split
    next n poll hw =>
      obtain ⟨e, he, hk, -⟩ := Line.exchange_of_awaiting hw
      have hc : e.kind.channel = some n := by rw [hk]; rfl
      have bound := h.bound_of_exchange he hc
      have ended := h.endOther he (by simp [hk]) (p.now + gapTime)
      have lineOf : (p.endExchange l (p.now + gapTime)).lineOf n = l :=
        (p.endExchange_lineOf l _ n).trans (Part.boundTo_lineOf bound)
      refine ended.queryStatus n ?_ ?_ ?_ _ _ _ _
      · rw [((Part.KeepsGrants.refl p).endExchange l _).cfg]; exact (Channel.boundTo_iff.mp bound).1
      · rw [lineOf, p.endExchange_line l _ he]; rfl
      · rw [lineOf, p.endExchange_line l _ he]
        show ¬ ((p.line l).state = .disabled ∨ (p.line l).state = .failed)
        rcases h.service_of_exchange he hc with s | s <;> simp [s]
    next o hw =>
      obtain ⟨e, he, hk, -⟩ := Line.exchange_of_awaiting hw
      split
      next v hv => exact (h.endOrder he hk _).haltStatus (by simp [Order.isHalt, hv]) _ _ _ _
      next => exact h.hearOther l _
    all_goals exact h.hearOther l _

theorem Part.motionFits.hearAccept (l : LineId) (addr : BitVec 4) : (p.hearAccept l addr).motionFits := by
  unfold Part.hearAccept
  split
  next o hw =>
    obtain ⟨e, he, hk, sent⟩ := Line.exchange_of_awaiting hw
    exact (h.endOrder he hk _).orderAccepted ((h.line l).sent e o he hk sent)
  next => exact h.hearOther l _

theorem Part.motionFits.hearBusy (l : LineId) (addr : BitVec 4) : (p.hearBusy l addr).motionFits := by
  unfold Part.hearBusy
  split
  next o hw =>
    obtain ⟨e, he, hk, -⟩ := Line.exchange_of_awaiting hw
    exact (h.endOrder he hk _).orderBusy
  next => exact h.hearOther l _

theorem Part.motionFits.hearRefuse (l : LineId) (addr : BitVec 4) (reason : Byte) : (p.hearRefuse l addr reason).motionFits := by
  unfold Part.hearRefuse
  split
  next o hw =>
    obtain ⟨e, he, hk, -⟩ := Line.exchange_of_awaiting hw
    exact (h.endOrder he hk _).orderRefused reason
  next => exact h.hearOther l _

theorem Part.motionFits.hearEcho (l : LineId) (addr : BitVec 4) (received : List Byte) (good : Bool) :
    (p.hearEcho l addr received good).motionFits := by
  unfold Part.hearEcho
  split
  next bytes discarded hw =>
    obtain ⟨e, he, hk, -⟩ := Line.exchange_of_awaiting hw
    exact h.countTest he (by simp [hk]) _ _ _ _
  next => exact h.hearOther l _

theorem Part.motionFits.timeOut (l : LineId) : (p.timeOut l).motionFits := by
  unfold Part.timeOut
  split
  · split
    · exact (h.advanceTo _).failExchange l _ _
    · exact (h.advanceTo _).failExchange l _ _
    · exact h
  · exact h

theorem Part.motionFits.missEcho (l : LineId) : (p.missEcho l).motionFits := by
  unfold Part.missEcho
  split
  next e he =>
    split
    next hk _ => exact (h.advanceTo _).countTest he (by simp [hk]) _ _ _ _
    next => exact h
  next => exact h

theorem Part.motionFits.carried (l : LineId) : (p.modLine l fun x => x.carried p.now).motionFits :=
  h.sameExchange (f := fun x => x.carried p.now) ⟨rfl, rfl, rfl, fun _ => id⟩ rfl

theorem Part.motionFits.checkLocalEcho (l : LineId) (back : Pattern) : (p.checkLocalEcho l back).motionFits := by
  unfold Part.checkLocalEcho
  split
  next e he =>
    split
    next hk =>
      split
      · refine (h.carried l).countTest (e := e) ?_ (by simp [hk]) _ _ _ _
        rw [Part.line_modLine_self]; exact he
      · exact h
    all_goals exact h
  next => exact h

/-! ## Arbitration loss (R103, R127) -/

theorem Part.motionFits.setRetake (l : LineId) (r : Retake) (bound : (p.chan r.channel).boundTo l = true) :
    (p.setRetake l r).motionFits := by
  have set : (p.modLine l fun x => { x with retake := some r }).motionFits := by
    obtain rfl := Part.boundTo_lineOf bound
    have k := (Part.Leaves.refl r.channel p).modLine (g := fun x => { x with retake := some r }) (.setRetake _ _ rfl)
    have fits := h.chanFits r.channel
    exact k.motionFits h (Channel.boundTo_iff.mp bound).1 fits.record fits.work fits.quiet fits.out
  unfold Part.setRetake
  split
  · exact set
  · split; exacts [set, h]
  all_goals exact h

theorem Part.motionFits.loseOrder {l : LineId} {e : Exchange} {o : Order} (he : (p.line l).exchange = some e)
    (hk : e.kind = .order o) : (p.loseOrder l o).motionFits := by
  have settled := (h.ends he hk (fun x => x.lose p.now) fun x => ⟨rfl, rfl, rfl, rfl, rfl⟩).settleAttempt
  have keeps := ((Part.KeepsGrants.refl p).modLine l (fun x => x.lose p.now) fun _ => rfl).settleAttempt l o
  have bound : (((p.modLine l fun x => x.lose p.now).settleAttempt l o).chan o.channel).boundTo l = true := by
    rw [Channel.boundTo, keeps.cfg]
    exact h.bound_of_exchange he (by rw [hk]; rfl)
  unfold Part.loseOrder
  dsimp only
  split
  · exact settled.setRetake l (.halt o.channel) bound
  · split
    · exact settled
    · exact settled.setRetake l (.move o.channel) bound

theorem Part.motionFits.loseOther {l : LineId} {e : Exchange} (he : (p.line l).exchange = some e)
    (no : ∀ o, e.kind ≠ .order o) : (p.modLine l fun x => x.lose p.now).motionFits :=
  h.dropExchange (f := fun x => x.lose p.now) ⟨rfl, rfl, rfl, fun _ => id⟩
    (fun e' o h' => by obtain rfl : e = e' := Option.some.inj (he ▸ h'); exact no o) rfl

theorem Part.motionFits.loseQuery {l : LineId} {e : Exchange} {n : ChannelId} {poll : Bool}
    (he : (p.line l).exchange = some e) (hk : e.kind = .query n poll) : (p.loseQuery l n poll).motionFits := by
  have lost := (h.loseOther he (by simp [hk])).restartSupervision n p.now
  have bound : (((p.modLine l fun x => x.lose p.now).modChan n fun c => c.restartSupervision p.now).chan n).boundTo l = true := by
    rw [Part.chan_modChan_self]
    exact h.bound_of_exchange he (by rw [hk]; rfl)
  unfold Part.loseQuery
  dsimp only
  split
  · split
    · exact lost.setRetake l (.poll n) bound
    · exact lost
  · split
    · exact lost.setRetake l (.supervise n) bound
    · exact lost

theorem Part.motionFits.loseTest {l : LineId} {e : Exchange} (he : (p.line l).exchange = some e)
    (no : ∀ o, e.kind ≠ .order o) (bytes : Pattern) (discarded : Bool) (place : LossPlace) (back : Pattern) :
    (p.loseTest l bytes discarded place back).motionFits := by
  have lost := h.loseOther he no
  have counted (bs : List (Option Byte)) : ((p.modLine l fun x => x.lose p.now).countFrame l bytes discarded bs).motionFits := by
    unfold Part.countFrame
    split; exacts [lost, lost.modTest l _]
  unfold Part.loseTest
  dsimp only
  split
  · exact lost
  · exact counted _
  · exact counted _

theorem Part.motionFits.loseArbitration (l : LineId) (place : LossPlace) (back : Pattern) :
    (p.loseArbitration l place back).motionFits := by
  unfold Part.loseArbitration
  split
  next e he =>
    split
    · exact h
    · split
      next hk => exact (h.record _ _).loseOrder he hk
      next hk => exact (h.record _ _).loseQuery he hk
      next hk => exact (h.record _ _).loseTest he (by simp [hk]) _ _ _ _
  next =>
    split
    · exact (h.record (.line l) (lostRecord (.line l))).sameExchange (f := fun x => { x.yield with answer := none })
        ⟨rfl, rfl, rfl, fun _ => id⟩ rfl
    · exact h

/-! ## KEY frames, and what the receiver finds -/

theorem Part.motionFits.recomputeEach (ns : List ChannelId) : (p.forEach ns fun n q => q.recompute n).motionFits :=
  Part.forEach_inv (inv := Part.motionFits) (fun n _ _ k => k.recompute n) h

theorem Part.motionFits.recomputeZone (z : ZoneId) : (p.recomputeZone z).motionFits := h.recomputeEach _
theorem Part.motionFits.recomputeAll : p.recomputeAll.motionFits := h.recomputeEach _

theorem Part.motionFits.modZone (z : ZoneId) (f : Zone → Zone) : (p.modZone z f).motionFits :=
  h.of_same (fun n => by rw [Part.modZone_chan]) fun l => by rw [Part.line, Part.modZone_lines]; rfl

theorem Part.motionFits.foldl {α : Type} (act : Part → α → Part) (step : ∀ (q : Part) (a : α), q.motionFits → (act q a).motionFits)
    (as : List α) : (as.foldl act p).motionFits := by
  induction as generalizing p with
  | nil => exact h
  | cons a as ih => exact ih (step p a h)

theorem Part.motionFits.takeKey (zones : BitVec 6) (cmd : KeyCommand) (l : LineId) (station : BitVec 4) :
    (p.takeKey zones cmd l station).motionFits :=
  h.foldl _ (fun q z k => by split; exacts [(k.modZone z _).recomputeZone z, k]) _

theorem Part.motionFits.answerKey (l : LineId) (addr : BitVec 4) (zones command : Byte) :
    (p.answerKey l addr zones command).motionFits := by
  have answered (a : Answer) : ((p.lineBusyUntilGap l).modLine l fun x => { x with answer := some a }).motionFits :=
    (h.lineBusyUntilGap l).sameExchange (f := fun x => { x with answer := some a }) ⟨rfl, rfl, rfl, fun _ => id⟩ rfl
  unfold Part.answerKey
  dsimp only
  split
  · split
    · exact (answered _).record _ _
    · exact (answered _).takeKey _ _ _ _
  · exact (answered _).record _ _

theorem Part.motionFits.hearKey (l : LineId) (addr : BitVec 4) (zones command : Byte) (resultFirst : Bool) :
    (p.hearKey l addr zones command resultFirst).motionFits := by
  unfold Part.hearKey
  dsimp only
  split
  · split <;> try exact h
    all_goals
      split
      · exact h.answerKey l _ _ _
      next e he =>
        split
        · exact h
        · split
          next hk => exact (h.countTest he (by simp [hk]) _ _ _ _).answerKey l _ _ _
          all_goals
            split
            · exact (h.failExchange l _ _).answerKey l _ _ _
            · exact (h.answerKey l _ _ _).failExchange l _ _
  · exact h.hearOther l _

theorem Part.motionFits.takeFrame (l : LineId) (f : Frame) : (p.takeFrame l f).motionFits := by
  cases f with
  | key a z c => exact h.hearKey l a z c true
  | status a x m y => exact h.hearStatus l a x m y
  | accept a => exact h.hearAccept l a
  | busy a => exact h.hearBusy l a
  | refuse a r => exact h.hearRefuse l a r
  | test a b => exact h.hearEcho l a _ true
  | order _ _ => exact h.hearOther l .valid
  | query _ => exact h.hearOther l .valid
  | halt _ => exact h.hearOther l .valid

theorem Part.motionFits.takeFound (l : LineId) (found : Found) : (p.takeFound l found).motionFits := by
  cases found with
  | nothing => exact h
  | frame f => exact h.takeFrame l f
  | damagedEcho a received => exact h.hearEcho l a received false
  | damaged => exact h.hearOther l .damaged

theorem Part.motionFits.hearReception (l : LineId) (k : Reception) : (p.hearReception l k).motionFits := by
  unfold Part.hearReception
  split
  · exact Part.motionFits.takeFound
      (h.sameExchange (f := fun x => x.receive k p.now) ⟨rfl, rfl, rfl, fun _ => id⟩ rfl) l _
  · exact h

theorem Part.motionFits.frameSeen (l : LineId) : (p.frameSeen l).motionFits := by
  unfold Part.frameSeen
  split
  · exact h.sameExchange (f := fun x => { x with watch := x.watch.restart p.now, receiver := .looking })
      ⟨rfl, rfl, rfl, fun _ => id⟩ rfl
  · exact h

end

end Sys2Proof.Machine
end

section
/-! SUPPORT. The scheduler, the sends, the timed events and the line states keep channels, queues and exchanges agreeing
(R102, R113, R129 to R138). -/

namespace Sys2Proof.Machine

section
variable {n : ChannelId} {p q : Part} {c : Channel} {os : List Order} {f : Option Exchange}

/-- The channel's exchange on its line is a new or another one. -/
theorem Part.Leaves.setExchange {g : Line → Line} {e : Exchange} (h : p.Leaves n q c os f)
    (before : ∀ e, (q.line (q.lineOf n)).exchange = some e → e.kind.channel = some n)
    (after : (g (q.line (q.lineOf n))).exchange = some e) (hk : e.kind.channel = some n)
    (stands : (q.line (q.lineOf n)).Stands (g (q.line (q.lineOf n))))
    (retake : (g (q.line (q.lineOf n))).retake = (q.line (q.lineOf n)).retake)
    (service : ¬ ((q.line (q.lineOf n)).state = .disabled ∨ (q.line (q.lineOf n)).state = .failed)) :
    p.Leaves n (q.modLine (q.lineOf n) g) c os (some e) := by
  have step := h.modLine (g := g) (.of_exchange n _ stands.state stands.urgent stands.routine retake before
    (fun e' h' => by obtain rfl : e = e' := Option.some.inj (after ▸ h'); exact hk) fun _ k => absurd (stands.state ▸ k) service)
  rwa [stands.ordersOf, h.orders, Line.flightOf_eq_some.mpr ⟨after, hk⟩] at step

end

theorem LineState.notOut {x : LineState} (service : x = .run ∨ x = .quieting) : ¬ (x = .disabled ∨ x = .failed) := by
  rcases service with rfl | rfl <;> simp

/-! ## The send (R102, R122) -/

section
variable {p : Part} (h : p.motionFits)
include h

/-- The frame of a channel's exchange is sent to its end. -/
theorem Part.motionFits.carriedFor {l : LineId} {e : Exchange} {n : ChannelId} (he : (p.line l).exchange = some e)
    (hk : e.kind.channel = some n) :
    p.Leaves n (p.modLine l fun x => { x.carried p.now with exchange := some (e.sent p.now) }) (p.chan n)
      ((p.line l).ordersOf n) (some (e.sent p.now)) := by
  obtain rfl := Part.boundTo_lineOf (h.bound_of_exchange he hk)
  have hk' : (e.sent p.now).kind.channel = some n := by
    rw [← hk]; unfold Exchange.sent; cases e.kind <;> rfl
  exact (Part.Leaves.refl n p).setExchange (g := fun x => { x.carried p.now with exchange := some (e.sent p.now) })
    (fun e' h' => by obtain rfl : e = e' := Option.some.inj (he ▸ h'); exact hk) rfl hk' ⟨rfl, rfl, rfl, fun _ => id⟩ rfl
    (LineState.notOut (h.service_of_exchange he hk))

theorem Part.motionFits.sendQuery {l : LineId} {e : Exchange} {n : ChannelId} {poll : Bool}
    (he : (p.line l).exchange = some e) (hk : e.kind = .query n poll) :
    (p.modLine l fun x => { x.carried p.now with exchange := some (e.sent p.now) }).motionFits := by
  have hc : e.kind.channel = some n := by rw [hk]; rfl
  have bound := h.bound_of_exchange he hc
  have service := h.service_of_exchange he hc
  have fits := h.chanFits n
  have flight : (p.line l).flightOf n = some e := Line.flightOf_eq_some.mpr ⟨he, hc⟩
  obtain rfl := Part.boundTo_lineOf bound
  refine (h.carriedFor he hc).motionFits h (Channel.boundTo_iff.mp bound).1 fits.record ?_ ?_ fits.out
  · refine fits.work.of_noOrder ?_ ?_
    · rw [flight]
      intro e' o h' k
      obtain rfl := Option.some.inj h'
      exact nomatch hk.symm.trans k
    · intro e' o h' k
      obtain rfl := Option.some.inj h'
      simp [Exchange.sent, hk] at k
  · rcases service with s | s <;> simp [s]

/-- R102: the first send of an ORDER starts the travel timer. -/
theorem Part.motionFits.sendOrder {l : LineId} {e : Exchange} {o : Order} (he : (p.line l).exchange = some e)
    (hk : e.kind = .order o) :
    Part.motionFits (if o.isHalt = false ∧ o.sent = false then
      (p.modLine l fun x => { x.carried p.now with exchange := some (e.sent p.now) }).firstSend o.channel
      else p.modLine l fun x => { x.carried p.now with exchange := some (e.sent p.now) }) := by
  have hc : e.kind.channel = some o.channel := by rw [hk]; rfl
  have bound := h.bound_of_exchange he hc
  have used := (Channel.boundTo_iff.mp bound).1
  have service := h.service_of_exchange he hc
  have flight : (p.line l).flightOf o.channel = some e := Line.flightOf_eq_some.mpr ⟨he, hc⟩
  have k := h.carriedFor he hc
  have sent : (e.sent p.now).kind = .order { o with sent := true } := by simp [Exchange.sent, hk]
  obtain rfl := Part.boundTo_lineOf bound
  have fits := h.chanFits o.channel
  have quiet {f : Option Exchange} :
      (p.line (p.lineOf o.channel)).state = .quiet ∨ (p.line (p.lineOf o.channel)).state = .test → f = none := by
    rcases service with s | s <;> simp [s]
  have out {c : Channel} : (p.line (p.lineOf o.channel)).state = .disabled ∨ (p.line (p.lineOf o.channel)).state = .failed →
      c.motion = .unused ∨ c.motion = .offline ∨ c.motion = .faulted := fun k => absurd k (LineState.notOut service)
  have same {e' : Exchange} {o' : Order} (hf : (p.line (p.lineOf o.channel)).flightOf o.channel = some e')
      (hk' : e'.kind = .order o') : o = o' := by
    obtain rfl : e = e' := Option.some.inj (flight ▸ hf)
    exact ExchangeKind.order.inj (hk ▸ hk')
  split
  next first =>
    have sending := k.modChan (fun c => { c with travel := some 0, secondMark := p.now, accepted := none, shortMark := false })
      fun _ => rfl
    have record := fits.record
    cases fits.work with
    | ordering e' o' m hq hf hk' hh =>
      exact sending.motionFits h used
        ⟨record.unused, record.fault, fun _ => .inr (.inl m), fun k => (nomatch m.symm.trans k), fun a => absurd rfl a,
          fun k => by rcases k with k | k <;> exact nomatch m.symm.trans k⟩
        (.ordering _ { o with sent := true } m hq rfl sent first.1 (fun _ => ⟨nofun, rfl⟩) (fun _ => .inl rfl) fun _ => rfl)
        quiet out
    | haltInFlight e' o' m hq hf hk' hh => obtain rfl := same hf hk'; simp [hh] at first
    | atRest _ _ no => exact absurd hk (no e o flight)
    | queued _ _ _ _ _ no => exact absurd hk (no e o flight)
    | moving _ _ no => exact absurd hk (no e o flight)
    | haltQueued _ _ _ _ no => exact absurd hk (no e o flight)
  next later =>
    refine k.motionFits h used fits.record ?_ quiet out
    cases fits.work with
    | ordering e' o' m hq hf hk' hh hs =>
      obtain rfl := same hf hk'
      have was : o.sent = true := by
        by_contra s
        exact later ⟨hh, by simpa using s⟩
      exact .ordering _ { o with sent := true } m hq rfl sent hh (fun _ => hs was) (fun _ => .inl rfl) fun _ => rfl
    | haltInFlight e' o' m hq hf hk' hh =>
      obtain rfl := same hf hk'
      exact .haltInFlight _ { o with sent := true } m hq rfl sent hh fun _ => rfl
    | atRest _ _ no => exact absurd hk (no e o flight)
    | queued _ _ _ _ _ no => exact absurd hk (no e o flight)
    | moving _ _ no => exact absurd hk (no e o flight)
    | haltQueued _ _ _ _ no => exact absurd hk (no e o flight)

theorem Part.motionFits.sendFrame (l : LineId) : (p.sendFrame l).motionFits := by
  unfold Part.sendFrame
  split
  next e he =>
    split
    · dsimp only
      split
      next o hk => exact h.sendOrder he hk
      next n poll hk => exact h.sendQuery he hk
      next bytes discarded hk =>
        have none : e.kind.channel = none := by rw [hk]; rfl
        refine h.setTestExchange (f := fun x => { x.carried p.now with exchange := some (e.sent p.now) })
          ⟨rfl, rfl, rfl, fun _ => id⟩ (fun e' h' => ?_) (fun e' h' => ?_) fun out => ?_
        · obtain rfl : e = e' := Option.some.inj (he ▸ h'); exact none
        · obtain rfl : e.sent p.now = e' := Option.some.inj h'
          simp [Exchange.sent, hk, ExchangeKind.channel]
        · have still := h.outIsStill l out
          rw [he] at still
          exact nomatch still
    · exact h
  next => exact h

end

/-! ## The scheduler (R102, R129 to R132) -/

/-- What a choice of a line may be for: an order of its queue, or a channel bound to it. -/
def Part.Offers (p : Part) (l : LineId) : Choice → Prop
  | .order o => o ∈ (p.line l).urgent ++ (p.line l).routine
  | .poll n => (p.chan n).boundTo l = true
  | .supervise n => (p.chan n).boundTo l = true

section
variable {p : Part} {l : LineId} {c : Choice}

theorem firstAfter_mem {pos : Option ChannelId} {ns : List ChannelId} {n : ChannelId} (h : firstAfter pos ns = some n) : n ∈ ns := by
  unfold firstAfter at h
  split at h
  · exact List.mem_of_head? h
  · split at h
    next m hm => obtain rfl := Option.some.inj h; exact List.mem_of_find?_eq_some hm
    next => exact List.mem_of_head? h

theorem Part.offers_order {os : List Order} (sub : ∀ o ∈ os, o ∈ (p.line l).urgent ++ (p.line l).routine)
    (h : (firstReady os).map Choice.order = some c) : p.Offers l c := by
  obtain ⟨o, ho, rfl⟩ := Option.map_eq_some_iff.mp h
  exact sub o (List.mem_of_find?_eq_some ho)

theorem Part.offers_poll (h : (p.duePoll l).map Choice.poll = some c) : p.Offers l c := by
  obtain ⟨n, hn, rfl⟩ := Option.map_eq_some_iff.mp h
  exact Part.mem_boundChannels.mp (List.mem_filter.mp (firstAfter_mem hn)).1

theorem Part.offers_supervision (h : (p.dueSupervision l).map Choice.supervise = some c) : p.Offers l c := by
  obtain ⟨n, hn, rfl⟩ := Option.map_eq_some_iff.mp h
  exact Part.mem_boundChannels.mp (List.mem_filter.mp (firstAfter_mem hn)).1

theorem Part.offers_retake (fits : p.motionFits) (h : p.retakeChoice l = some c) : p.Offers l c := by
  have bound := (fits.line l).retake
  have queued {n : ChannelId} (h : ((p.line l).queued n).map Choice.order = some c) : p.Offers l c := by
    obtain ⟨o, ho, rfl⟩ := Option.map_eq_some_iff.mp h
    exact List.mem_of_find?_eq_some ho
  unfold Part.retakeChoice at h
  split at h
  · exact queued h
  · exact queued h
  next n hr => split at h; exacts [by obtain rfl := Option.some.inj h; exact bound _ hr, nomatch h]
  next n hr => split at h; exacts [by obtain rfl := Option.some.inj h; exact bound _ hr, nomatch h]
  next => exact nomatch h

/-- R130: the scheduler chooses for a line in RUN or QUIETING, from its queue and its channels. -/
theorem Part.offers_choose (fits : p.motionFits) (h : p.choose l = some c) :
    ((p.line l).state = .run ∨ (p.line l).state = .quieting) ∧ p.Offers l c := by
  unfold Part.choose at h
  dsimp only at h
  split at h
  next hs =>
    refine ⟨.inl hs, ?_⟩
    simp only [Option.or_eq_some_iff] at h
    rcases h with h | ⟨-, h | ⟨-, h | ⟨-, h | ⟨-, h⟩⟩⟩⟩
    · exact Part.offers_retake fits h
    · exact Part.offers_order (fun o ho => List.mem_append_left _ ho) h
    · exact Part.offers_poll h
    · exact Part.offers_order (fun o ho => List.mem_append_right _ ho) h
    · exact Part.offers_supervision h
  next hs =>
    refine ⟨.inr hs, ?_⟩
    simp only [Option.or_eq_some_iff] at h
    rcases h with h | ⟨-, h | ⟨-, h⟩⟩
    · split at h
      · split at h
        · exact Part.offers_retake fits h
        · exact nomatch h
      · exact nomatch h
    · exact Part.offers_order (fun o ho => List.mem_append_left _ (List.mem_filter.mp ho).1) h
    · exact Part.offers_poll h
  all_goals exact nomatch h

end

section
variable {p : Part} (h : p.motionFits) {l : LineId}
include h

/-- The exchange of a QUERY starts on a free line. -/
theorem Part.motionFits.startQuery {n : ChannelId} (free : (p.line l).exchange = none)
    (service : (p.line l).state = .run ∨ (p.line l).state = .quieting) (bound : (p.chan n).boundTo l = true) (node : BitVec 4)
    (poll : Bool) : (p.startExchange l node (.query n poll)).motionFits := by
  have used := (Channel.boundTo_iff.mp bound).1
  obtain rfl := Part.boundTo_lineOf bound
  have fits := h.chanFits n
  have flight : (p.line (p.lineOf n)).flightOf n = none := Line.flightOf_eq_none.mpr fun e he => by rw [free] at he; exact nomatch he
  have k := (Part.Leaves.refl n p).setExchange (e := ⟨.query n poll, node, none⟩)
    (g := fun x => { x with exchange := some ⟨.query n poll, node, none⟩, wire := (exchangeFrame node (.query n poll)).bytes })
    (fun e he => by rw [free] at he; exact nomatch he) rfl rfl ⟨rfl, rfl, rfl, fun _ => id⟩ rfl (LineState.notOut service)
  refine k.motionFits h used fits.record (fits.work.of_noOrder (by rw [flight]; exact noOrder_none) fun e o he hk => ?_)
    (by rcases service with s | s <;> simp [s]) fits.out
  obtain rfl := Option.some.inj he
  exact nomatch hk

/-- The part once a free line has started the exchange of an order of its queue. -/
theorem Part.motionFits.startOrder {o : Order} (free : (p.line l).exchange = none)
    (service : (p.line l).state = .run ∨ (p.line l).state = .quieting) (ho : o ∈ (p.line l).urgent ++ (p.line l).routine)
    (node : BitVec 4) :
    Part.motionFits (if o.isHalt then (p.modLine l fun x => x.take o.channel).startExchange l node (.order o)
      else ((p.modLine l fun x => x.take o.channel).startExchange l node (.order o)).setMotion o.channel .ordering) := by
  have mem : o ∈ (p.line l).ordersOf o.channel := Line.mem_ordersOf.mpr ⟨ho, rfl⟩
  have bound := h.bound_of_order mem
  have used := (Channel.boundTo_iff.mp bound).1
  obtain rfl := Part.boundTo_lineOf bound
  have fits := h.chanFits o.channel
  have record := fits.record
  have flight : (p.line (p.lineOf o.channel)).flightOf o.channel = none :=
    Line.flightOf_eq_none.mpr fun e he => by rw [free] at he; exact nomatch he
  have out {c : Channel} : (p.line (p.lineOf o.channel)).state = .disabled ∨ (p.line (p.lineOf o.channel)).state = .failed →
      c.motion = .unused ∨ c.motion = .offline ∨ c.motion = .faulted := fun k => absurd k (LineState.notOut service)
  have quiet {f : Option Exchange} :
      (p.line (p.lineOf o.channel)).state = .quiet ∨ (p.line (p.lineOf o.channel)).state = .test → f = none := by
    rcases service with s | s <;> simp [s]
  have taken := (Part.Leaves.refl o.channel p).modLine (g := fun x => x.take o.channel) (.take _ _)
  rw [Line.ordersOf_take, if_pos rfl, Line.take_flightOf, flight] at taken
  have lineOf : (p.modLine (p.lineOf o.channel) fun x => x.take o.channel).lineOf o.channel = p.lineOf o.channel := rfl
  have line : (p.modLine (p.lineOf o.channel) fun x => x.take o.channel).line (p.lineOf o.channel) =
      (p.line (p.lineOf o.channel)).take o.channel := p.line_modLine_self _ _
  have k := taken.setExchange (e := ⟨.order o, node, none⟩)
    (g := fun x => { x with exchange := some ⟨.order o, node, none⟩, wire := (exchangeFrame node (.order o)).bytes })
    (fun e he => by
      rw [lineOf, line] at he
      exact nomatch free.symm.trans he) rfl rfl ⟨rfl, rfl, rfl, fun _ => id⟩ rfl
    (by rw [lineOf, line]; exact LineState.notOut service)
  have one {w : Order} (hq : (p.line (p.lineOf o.channel)).ordersOf o.channel = [w]) : o = w := by
    rw [hq] at mem; exact List.mem_singleton.mp mem
  cases fits.work with
  | atRest _ hq => rw [hq] at mem; exact nomatch mem
  | queued w m hq hh hs =>
    obtain rfl := one hq
    rw [if_neg (by simp [hh])]
    have accepted := record.unaccepted (by simp [m]) (by simp [m])
    have unfaulted := record.unfaulted (by simp [m])
    exact (k.setMotion .ordering).motionFits h used
      (Channel.fits_enter _ used nofun (by simp [unfaulted]) (fun _ => .inr (.inl rfl)) nofun (fun a => absurd accepted a) nofun)
      (.ordering _ o rfl superseding_nil rfl rfl hh (fun s => ⟨hs.mp s, accepted⟩) (fun t => .inl (hs.mpr t)) fun a => absurd rfl a)
      quiet out
  | ordering e w _ _ hf => exact nomatch flight.symm.trans hf
  | moving m hq =>
    rcases hq with hq | ⟨w, hq, hh, hs⟩
    · rw [hq] at mem; exact nomatch mem
    · obtain rfl := one hq
      rw [if_neg (by simp [hh])]
      have accepted := record.moving m
      have unfaulted := record.unfaulted (by simp [m])
      exact (k.setMotion .ordering).motionFits h used
        (Channel.fits_enter _ used nofun (by simp [unfaulted]) (fun _ => .inr (.inl rfl)) nofun
          (fun a => ⟨.inl rfl, (record.accepted a).2⟩) nofun)
        (.ordering _ o rfl superseding_nil rfl rfl hh (fun s => Bool.noConfusion (hs.symm.trans s)) (fun _ => .inr accepted)
          fun a => absurd rfl a) quiet out
  | haltQueued w m hq hh =>
    obtain rfl := one hq
    rw [if_pos hh]
    exact k.motionFits h used record (.haltInFlight _ o m rfl rfl rfl hh fun a => absurd rfl a) quiet out
  | haltInFlight e w _ _ hf => exact nomatch flight.symm.trans hf

theorem Part.motionFits.startChoice {c : Choice} (free : (p.line l).exchange = none)
    (service : (p.line l).state = .run ∨ (p.line l).state = .quieting) (offers : p.Offers l c) : (p.startChoice l c).motionFits := by
  have clear : (p.modLine l fun x => { x with retake := none }).motionFits :=
    h.sameExchange (f := fun x => { x with retake := none }) ⟨rfl, rfl, rfl, nofun⟩ rfl
  have line : (p.modLine l fun x => { x with retake := none }).line l = { p.line l with retake := none } :=
    p.line_modLine_self l _
  cases c with
  | order o => exact clear.startOrder (by rw [line]; exact free) (by rw [line]; exact service) (by rw [line]; exact offers) _
  | poll n =>
    have turned : ((p.modLine l fun x => { x with retake := none }).modLine l fun x => { x with pollPos := some n }).motionFits :=
      clear.sameExchange (f := fun x => { x with pollPos := some n }) ⟨rfl, rfl, rfl, fun _ => id⟩ rfl
    have asked := turned.modChan n (fun c => { c with pollDue := false, pollFrom := none }) ⟨rfl, rfl, rfl, .rfl, .rfl, id, id⟩
    have line' : ((p.modLine l fun x => { x with retake := none }).modLine l fun x => { x with pollPos := some n }).line l =
        { p.line l with retake := none, pollPos := some n } := by rw [Part.line_modLine_self, line]
    refine asked.startQuery ?_ ?_ ?_ _ true
    · rw [Part.modChan_line, line']; exact free
    · rw [Part.modChan_line, line']; exact service
    · rw [Part.chan_modChan_self]; exact offers
  | supervise n =>
    have turned : ((p.modLine l fun x => { x with retake := none }).modLine l fun x => { x with supPos := some n }).motionFits :=
      clear.sameExchange (f := fun x => { x with supPos := some n }) ⟨rfl, rfl, rfl, fun _ => id⟩ rfl
    have asked := turned.modChan n (fun c => { c with supDue := false }) ⟨rfl, rfl, rfl, .rfl, .rfl, id, id⟩
    have line' : ((p.modLine l fun x => { x with retake := none }).modLine l fun x => { x with supPos := some n }).line l =
        { p.line l with retake := none, supPos := some n } := by rw [Part.line_modLine_self, line]
    refine asked.startQuery ?_ ?_ ?_ _ false
    · rw [Part.modChan_line, line']; exact free
    · rw [Part.modChan_line, line']; exact service
    · rw [Part.chan_modChan_self]; exact offers

theorem Part.motionFits.startTransaction : (p.startTransaction l).motionFits := by
  unfold Part.startTransaction
  split
  next may =>
    have free : (p.line l).exchange = none := by
      simp only [Line.mayStart, Bool.and_eq_true, Option.isNone_iff_eq_none] at may
      exact may.1.1.1
    split
    next c hc =>
      obtain ⟨service, offers⟩ := Part.offers_choose h hc
      refine (h.advanceTo _).startChoice free service ?_
      cases c <;> exact offers
    next => exact h
  next => exact h

theorem Part.motionFits.startTestFrame : (p.startTestFrame l).motionFits := by
  unfold Part.startTestFrame
  dsimp only
  split
  next node _ =>
    split
    next may =>
      have free : (p.line l).exchange = none := by
        have may := may.2
        simp only [Line.mayStart, Bool.and_eq_true, Option.isNone_iff_eq_none] at may
        exact may.1.1.1
      refine (h.advanceTo _).setTestExchange (f := fun x => { x with
          exchange := some ⟨.test (p.line l).test.nextBytes false, node, none⟩
          wire := (exchangeFrame node (.test (p.line l).test.nextBytes false)).bytes })
        ⟨rfl, rfl, rfl, fun _ => id⟩ (fun e he => ?_) (fun e he => ?_) fun out => ?_
      · exact nomatch free.symm.trans he
      · obtain rfl := Option.some.inj he; rfl
      · have out : (p.line l).state = .disabled ∨ (p.line l).state = .failed := out
        rw [may.1] at out
        rcases out with s | s <;> exact nomatch s
    next => exact h
  next => exact h

end

end Sys2Proof.Machine
end

section
/-! SUPPORT. The timed events and the line states keep channels, queues and exchanges agreeing (R105, R113, R126, R131 to R138). -/

namespace Sys2Proof.Machine

/-! ## The timed events of a channel -/

/-- An order changed in place stays an ORDER or a HALT, and sent or not. -/
theorem Channel.HasWork.map {c : Channel} {os : List Order} {f : Option Exchange} (h : c.HasWork os f) (g : Order → Order)
    (hh : ∀ o, (g o).isHalt = o.isHalt) (hs : ∀ o, (g o).sent = o.sent) : c.HasWork (os.map g) f := by
  have waits (k : superseding os) : superseding (os.map g) := by
    rcases k with rfl | ⟨o, rfl, h1, h2⟩
    · exact superseding_nil
    · exact superseding_singleton ((hh o).trans h1) ((hs o).trans h2)
  cases h with
  | atRest hm hq hf => exact .atRest hm (by rw [hq]; rfl) hf
  | queued o m hq h1 h2 hf => exact .queued (g o) m (by rw [hq]; rfl) ((hh o).trans h1) (by rw [hs]; exact h2) hf
  | ordering e o m hq hf hk h1 h2 ht hsent => exact .ordering e o m (waits hq) hf hk h1 h2 ht hsent
  | moving m hq hf => exact .moving m (waits hq) hf
  | haltQueued o m hq h1 hf => exact .haltQueued (g o) m (by rw [hq]; rfl) ((hh o).trans h1) hf
  | haltInFlight e o m hq hf hk h1 hsent => exact .haltInFlight e o m (by rw [hq]; rfl) hf hk h1 hsent

section
variable {p : Part} (h : p.motionFits) (n : ChannelId)
include h

theorem Part.motionFits.endBackoff : (p.endBackoff n).motionFits := by
  unfold Part.endBackoff
  split
  next t ht =>
    obtain ⟨o, ho, -⟩ := Option.bind_eq_some_iff.mp ht
    have mem : o ∈ (p.line (p.lineOf n)).ordersOf n := by
      rw [Part.queuedOf, Line.queued_eq] at ho
      exact List.mem_of_head? ho
    have used := (Channel.boundTo_iff.mp (h.bound_of_order mem)).1
    have fits := (h.advanceTo (t + backoffTime)).chanFits n
    have k := (Part.Leaves.refl n (p.advanceTo (t + backoffTime))).modLine
      (g := fun x => x.change n fun o => { o with backoff := none }) (.change n _ _ fun _ => rfl)
    rw [Line.ordersOf_change _ n n (fun o => { o with backoff := none }) fun _ => rfl, if_pos rfl] at k
    exact k.motionFits (h.advanceTo _) used fits.record (fits.work.map (fun o => { o with backoff := none }) (fun _ => rfl) fun _ => rfl) fits.quiet fits.out
  next => exact h

theorem Part.motionFits.expireTravel (elapsed : Nat) : (p.expireTravel n elapsed).motionFits := by
  have k := Part.Leaves.refl n p
  have fits := h.chanFits n
  unfold Part.expireTravel
  split
  next hm => exact k.fits_faultChannel _ h (h.used n (by simp [hm])) ((h.hasWork n).of_queued hm).2 fits.quiet
  next hm =>
    have used := h.used n (by simp [hm])
    cases h.hasWork n with
    | ordering e o _ _ hf hk =>
      obtain ⟨he, hc⟩ := Line.flightOf_eq_some.mp hf
      have abandoned := k.dropExchange (g := fun x => x.endExchange ((e.sentAt.getD p.now) + replyTime)) he hc
        fun x => ⟨rfl, rfl, rfl, rfl, rfl⟩
      have same : p.abandonFor (p.lineOf n) n =
          p.modLine (p.lineOf n) fun x => x.endExchange ((e.sentAt.getD p.now) + replyTime) := by
        rw [Part.abandonFor_eq, hf]
        simp only [Part.abandon, he]
        cases e.sentAt <;> rfl
      rw [same]
      exact abandoned.fits_faultChannel _ h used noOrder_none fun _ => rfl
    | _ => simp_all
  next hm =>
    have dropped := (k.removeOrder.modChan (fun c => { c with accepted := none, travel := none }) fun _ => rfl).setMotion .halting
    have unfaulted := fits.record.unfaulted (by simp [hm])
    exact (dropped.reenter rfl).motionFits h (h.used n (by simp [hm]))
      (Channel.fits_enter _ (h.used n (by simp [hm])) nofun (by simp [unfaulted]) (fun t => absurd rfl t) nofun
        (fun a => absurd rfl a) nofun)
      (.haltQueued _ rfl rfl rfl ((h.hasWork n).of_moving hm).2) fits.quiet
      fun out => absurd out (h.inService n (by simp [hm, working]))
  all_goals exact h

theorem Part.motionFits.travelStep {e : Nat} (ht : (p.chan n).travel = some e) : (p.travelStep n e).motionFits := by
  have passed : (p.secondPassed n (e + 1)).motionFits :=
    (h.advanceTo _).modChan n _ ⟨rfl, rfl, rfl, ⟨nofun, fun k => nomatch ht.symm.trans k⟩, .rfl, id, id⟩
  rw [Part.travelStep_eq]
  split
  · exact passed.expireTravel n _
  · exact passed

theorem Part.motionFits.travelSecond : (p.travelSecond n).motionFits := by
  unfold Part.travelSecond
  split
  next ht => exact h.travelStep n ht
  next => exact h

theorem Part.motionFits.travelExpiry : (p.travelExpiry n).motionFits := by
  unfold Part.travelExpiry
  split
  next ht => split; exacts [h.travelStep n ht, h]
  next => exact h

theorem Part.motionFits.pollFallsDue : (p.pollFallsDue n).motionFits := by
  unfold Part.pollFallsDue
  split
  · exact (h.advanceTo _).modChan n (fun c => { c with pollDue := true }) ⟨rfl, rfl, rfl, .rfl, .rfl, id, id⟩
  · exact h

theorem Part.motionFits.supervisionFallsDue : (p.supervisionFallsDue n).motionFits := by
  unfold Part.supervisionFallsDue
  split
  · split
    · exact (h.advanceTo _).modChan n (fun c => { c with supDue := true }) ⟨rfl, rfl, rfl, .rfl, .rfl, id, id⟩
    · exact h
  · exact h

theorem Part.motionFits.dueAtOnce : (p.dueAtOnce n).motionFits := by
  unfold Part.dueAtOnce
  split
  · exact h.modChan n (fun c => { c with supDue := true }) ⟨rfl, rfl, rfl, .rfl, .rfl, id, id⟩
  · exact h

end

/-! ## A channel whose line leaves service (R20) -/

theorem Channel.fits.leftService {c : Channel} (now : Nat) (k : c.fits) (used : c.cfg.cls ≠ .unused) : (c.leftService now).fits := by
  unfold Channel.leftService
  split
  next working =>
    exact Channel.fits_wentOffline now used (k.unfaulted fun e => by rw [e] at working; exact Bool.noConfusion working)
  next => exact k

/-- After R20 a channel of the line is OFFLINE or FAULTED. -/
theorem Channel.leftService_motion {c : Channel} (now : Nat) (hu : c.motion ≠ .unused) :
    (c.leftService now).motion = .offline ∨ (c.leftService now).motion = .faulted := by
  unfold Channel.leftService
  split
  next => exact .inl rfl
  next rest => cases hm : c.motion <;> simp_all [working]

/-! ## The timed events of a line -/

section
variable {p : Part} (h : p.motionFits) (l : LineId)
include h

theorem Part.motionFits.sendAnswer : (p.sendAnswer l).motionFits := by
  unfold Part.sendAnswer
  split
  next a _ =>
    exact (h.advanceTo _).sameExchange (f := fun x =>
      { x.carried (p.advanceTo (p.line l).freeAt).now with
        answer := none, freeAt := (p.advanceTo (p.line l).freeAt).now + gapTime, wire := (answerFrame a).bytes })
      ⟨rfl, rfl, rfl, fun _ => id⟩ rfl
  next => exact h

theorem Part.motionFits.windowFallsDue : (p.windowFallsDue l).motionFits := by
  unfold Part.windowFallsDue
  split
  · exact (h.advanceTo _).sameExchange ⟨rfl, rfl, rfl, fun _ => id⟩ rfl
  · exact h

theorem Part.motionFits.endWindow : (p.endWindow l).motionFits := by
  unfold Part.endWindow
  split
  · exact (h.advanceTo _).sameExchange (f := fun x => { x with window := .none }) ⟨rfl, rfl, rfl, fun _ => id⟩ rfl
  all_goals exact h

/-! ## A line leaves service -/

theorem Part.motionFits.clearLine : (p.clearLine l).motionFits := by
  have line (k : LineId) := p.clearLine_line l k
  have emptied : ∀ m, ((p.clearLine l).line l).ordersOf m = [] ∧ ((p.clearLine l).line l).flightOf m = none ∧
      ¬ ((p.clearLine l).line l).retakes m := by
    intro m
    rw [line, if_pos rfl, Line.aborted, Line.cleared_eq]
    split <;> exact ⟨rfl, rfl, fun ⟨r, hr, _⟩ => nomatch hr⟩
  have state : ((p.clearLine l).line l).state = (p.line l).state := by
    rw [line, if_pos rfl, Line.aborted, Line.cleared_eq]
    split <;> rfl
  have other {k : LineId} (e : k ≠ l) : (p.clearLine l).line k = p.line k := by rw [line, if_neg e]
  refine .of (fun m => ?_) fun k => ?_
  · have fits := h.chanFits m
    by_cases bound : (p.chan m).boundTo l = true
    · obtain ⟨used, lineOf⟩ := Channel.boundTo_iff.mp bound
      have chan : (p.clearLine l).chan m = (p.chan m).leftService p.now := by rw [Part.clearLine_chan, if_pos bound]
      have cfg : ((p.chan m).leftService p.now).cfg = (p.chan m).cfg := by unfold Channel.leftService; split <;> rfl
      have lineOf' : (p.clearLine l).lineOf m = l := by rw [Part.lineOf, chan, cfg]; exact lineOf
      have motion := Channel.leftService_motion p.now (fun e => used (fits.record.unused.mp e))
      have empty := emptied m
      refine ⟨?_, ?_, fun k hb => ?_, ?_, ?_⟩
      · rw [chan]; exact fits.record.leftService p.now used
      · rw [chan, lineOf', empty.1, empty.2.1]
        exact .atRest (motion.elim (.inr ∘ .inl) (.inr ∘ .inr ∘ .inr)) rfl noOrder_none
      · rw [chan, Channel.boundTo, cfg] at hb
        rw [other fun e => by rw [← e] at bound; exact Bool.noConfusion (bound.symm.trans hb)]
        exact fits.elsewhere k hb
      · rw [lineOf']; exact fun _ => empty.2.1
      · rw [chan]; exact fun _ => .inr motion
    · have chan : (p.clearLine l).chan m = p.chan m := by rw [Part.clearLine_chan, if_neg bound]
      have lineOf' : (p.clearLine l).lineOf m = p.lineOf m := by rw [Part.lineOf, chan]; rfl
      have free := fits.elsewhere l (by simpa using bound)
      have view (k : LineId) : ((p.clearLine l).line k).ordersOf m = (p.line k).ordersOf m ∧
          ((p.clearLine l).line k).flightOf m = (p.line k).flightOf m ∧
          ((p.clearLine l).line k).state = (p.line k).state := by
        by_cases e : k = l
        · obtain ⟨orders, flight, -⟩ := emptied m
          rw [e, free.orders, free.flight]
          exact ⟨orders, flight, state⟩
        · rw [other e]; exact ⟨rfl, rfl, rfl⟩
      obtain ⟨orders, flight, same⟩ := view (p.lineOf m)
      refine ⟨by rw [chan]; exact fits.record, ?_, fun k hb => ?_, ?_, ?_⟩
      · rw [chan, lineOf', orders, flight]; exact fits.work
      · rw [chan] at hb
        have before := fits.elsewhere k hb
        refine ⟨(view k).1.trans before.orders, (view k).2.1.trans before.flight, ?_⟩
        by_cases e : k = l
        · rw [e]; exact (emptied m).2.2
        · rw [other e]; exact before.retake
      · rw [lineOf', same, flight]; exact fits.quiet
      · rw [chan, lineOf', same]; exact fits.out
  · by_cases e : k = l
    · intro _
      rw [e, line, if_pos rfl, Line.aborted, Line.cleared_eq]
      split <;> rfl
    · rw [other e]; exact h.outIsStill k

/-- A cleared line enters DISABLED or FAILED. -/
theorem Part.motionFits.enterOut {q : Part} (k : q.motionFits) (s : LineState) (hs : s = .disabled ∨ s = .failed)
    (hc : ∀ m, q.chan m = (p.clearLine l).chan m) (hl : q.line l = (p.clearLine l).line l) : (q.enterLine l s).motionFits := by
  refine k.enterLine s (fun quiet => by rcases hs with rfl | rfl <;> simp at quiet) fun _ => ⟨?_, fun m hb => ?_⟩
  · rw [hl, Part.clearLine_line, if_pos rfl, Line.aborted, Line.cleared_eq]
    split <;> rfl
  · have record := (k.channel m).unused
    rw [hc, Part.clearLine_chan] at hb record ⊢
    split at hb
    next bound =>
      rw [if_pos bound]
      exact Channel.leftService_motion p.now fun e =>
        (Channel.boundTo_iff.mp bound).1 ((h.channel m).unused.mp e)
    next unbound => exact absurd hb unbound

theorem Part.motionFits.disableLine : (p.disableLine l).motionFits := by
  unfold Part.disableLine
  split
  · exact h
  next hs => exact h.enterLine _ (by simp) fun _ => (h.line l).out (.inr hs)
  all_goals exact h.enterOut l (h.clearLine l) _ (.inl rfl) (fun _ => rfl) rfl

theorem Part.motionFits.failLine : (p.failLine l).motionFits := by
  unfold Part.failLine
  split
  · exact h
  · exact h
  all_goals exact h.enterOut l ((h.clearLine l).record _ _) .failed (.inr rfl) (fun m => Part.record_chan _ _ _ m) (Part.record_line _ _ _ l)

theorem Part.motionFits.lineStuck (t : Nat) : (p.lineStuck l t).motionFits := by
  unfold Part.lineStuck
  split
  · exact (h.advanceTo _).failLine l
  all_goals exact h

/-! ## A line takes up its service (R137, R138) -/

theorem Part.motionFits.restartLine (out : (p.line l).state = .disabled ∨ (p.line l).state = .failed) :
    (p.restartLine l).motionFits := by
  have fresh : (p.modLine l fun x => { x with exchange := none, retake := none, pollPos := none, supPos := none }).motionFits :=
    h.sameExchange (f := fun x => { x with exchange := none, retake := none, pollPos := none, supPos := none })
      ⟨rfl, rfl, rfl, nofun⟩ (h.outIsStill l out).symm
  exact Part.forEach_inv (inv := Part.motionFits) (fun n _ _ k => k.dueAtOnce n) (fresh.enterLine .run (by simp) (by simp))

theorem Part.motionFits.lineRecovery (t : Nat) : (p.lineRecovery l t).motionFits := by
  unfold Part.lineRecovery
  split
  next since _ =>
    split
    next hs =>
      have line : ((p.advanceTo (max since t + recoveryTime)).modLine l fun x => { x with receiver := .looking }).line l =
          { p.line l with receiver := .looking } := Part.line_modLine_self _ _ _
      refine Part.motionFits.restartLine
        ((h.advanceTo _).sameExchange (f := fun x => { x with receiver := .looking }) ⟨rfl, rfl, rfl, fun _ => id⟩ rfl) l ?_
      rw [line]
      exact .inr hs
    next => exact h
  all_goals exact h

theorem Part.motionFits.abortTest : (p.abortTest l).motionFits := by
  unfold Part.abortTest
  split
  · exact (h.modTest l _).record _ _
  · exact h

theorem Part.motionFits.latchLine : (p.latchLine l).motionFits := by
  unfold Part.latchLine
  split
  · exact h.enterLine .run (by simp) (by simp)
  · exact h.enterLine .run (by simp) (by simp)
  next hs =>
    have abandoned : (p.abandon l).motionFits := by
      unfold Part.abandon
      split
      next e he =>
        refine h.dropExchange ⟨rfl, rfl, rfl, fun _ => id⟩ (fun e' o h' hk => ?_) rfl
        have none := (h.line l).idle (.inr hs) e' h'
        rw [hk] at none
        exact nomatch none
      next => exact h
    exact (abandoned.abortTest l).enterLine .run (by simp) (by simp)
  all_goals exact h

/-- R134: a line comes to rest with nothing in flight. -/
theorem Part.motionFits.completeQuieting : p.completeQuieting.motionFits := by
  refine h.foldl _ (fun q k fits => ?_) _
  split
  next rest =>
    have free : (q.line k).exchange = none := by
      have := rest.2
      simp only [Part.atRest, Bool.and_eq_true, Option.isNone_iff_eq_none] at this
      exact this.1
    exact fits.enterLine .quiet (fun _ n => Line.flightOf_eq_none.mpr fun e he => by rw [free] at he; exact nomatch he) (by simp)
  next => exact fits

end

end Sys2Proof.Machine
end

section
/-! SUPPORT. A commit keeps channels, queues and exchanges agreeing (R21 to R23). -/

namespace Sys2Proof.Machine

/-! ## How a commit changes a channel -/

section
variable {old new : ChannelConfig}

theorem commitCase_eq_stillUnused : commitCase old new = .stillUnused ↔ old.cls = .unused ∧ new.cls = .unused := by
  unfold commitCase; split <;> split <;> (try split) <;> simp_all
theorem commitCase_eq_toUnused : commitCase old new = .toUnused ↔ old.cls ≠ .unused ∧ new.cls = .unused := by
  unfold commitCase; split <;> split <;> (try split) <;> simp_all
theorem commitCase_eq_fromUnused : commitCase old new = .fromUnused ↔ old.cls = .unused ∧ new.cls ≠ .unused := by
  unfold commitCase; split <;> split <;> (try split) <;> simp_all
theorem commitCase_eq_kept : commitCase old new = .kept ↔
    old.cls ≠ .unused ∧ new.cls ≠ .unused ∧ old.line = new.line ∧ old.node = new.node := by
  unfold commitCase; split <;> split <;> (try split) <;> simp_all
theorem commitCase_eq_rebound : commitCase old new = .rebound ↔
    old.cls ≠ .unused ∧ new.cls ≠ .unused ∧ ¬ (old.line = new.line ∧ old.node = new.node) := by
  unfold commitCase; split <;> split <;> (try split) <;> simp_all

end

/-- The record of a channel that a commit makes UNUSED or OFFLINE. -/
def Channel.committedTo (c : Channel) (cfg : ChannelConfig) (now : Nat) (m : Motion) : Channel :=
  ({ c.forget with cfg := cfg } : Channel).enter now m

section
variable (c : Channel) {cfg : ChannelConfig} (now : Nat)

theorem Channel.fits_committedTo_unused (h : cfg.cls = .unused) : (c.committedTo cfg now .unused).fits where
  unused := ⟨fun _ => h, fun _ => rfl⟩
  fault := ⟨nofun, nofun⟩
  timed t := absurd rfl t
  moving := nofun
  accepted a := absurd rfl a
  unknown _ := ⟨rfl, rfl⟩

theorem Channel.fits_committedTo_offline (h : cfg.cls ≠ .unused) : (c.committedTo cfg now .offline).fits :=
  Channel.fits_enter now h nofun ⟨nofun, nofun⟩ (fun t => absurd rfl t) nofun (fun a => absurd rfl a) fun _ => ⟨rfl, rfl⟩

theorem Channel.fits.supervisedAtOnce {c : Channel} (h : c.fits) : c.supervisedAtOnce.fits := by
  unfold Channel.supervisedAtOnce
  split
  · exact Channel.Alike.fits (c := c) ⟨rfl, rfl, rfl, .rfl, .rfl, id, id⟩ h
  · exact h

theorem Channel.supervisedAtOnce_motion : c.supervisedAtOnce.motion = c.motion := by
  unfold Channel.supervisedAtOnce; split <;> rfl

end

section
variable (p : Part) (n : ChannelId) (cfg : ChannelConfig)

theorem Part.commitOffline_chan_self :
    (p.commitOffline n cfg).chan n = ((p.chan n).committedTo cfg p.now .offline).supervisedAtOnce := by
  rw [Part.commitOffline, Part.dueAtOnce_chan_self, Part.setMotion_chan_self, Part.setConfig, Part.chan_modChan_self,
    Part.chan_modChan_self]
  rfl

theorem Part.commitOffline_onlyChan : p.OnlyChan n (p.commitOffline n cfg) :=
  ((Part.OnlyChan.refl p).modChan _ |>.modChan _ |>.setMotion _).trans (Part.dueAtOnce_onlyChan _ n)

@[simp] theorem Part.commitOffline_line (l : LineId) : (p.commitOffline n cfg).line l = p.line l := by
  rw [Part.line, Part.commitOffline, (Part.dueAtOnce_rest _ n).1]; rfl
@[simp] theorem Part.commitOffline_bank (b : BankId) : (p.commitOffline n cfg).bank b = p.bank b := by
  rw [Part.bank, Part.commitOffline, (Part.dueAtOnce_rest _ n).2.1]; rfl
@[simp] theorem Part.commitOffline_now : (p.commitOffline n cfg).now = p.now := by
  rw [Part.commitOffline, (Part.dueAtOnce_rest _ n).2.2]; rfl

end

/-! ## A channel leaves its line (R22, R23) -/

/-- A retake for the channel is dropped. -/
def Line.unretaken (x : Line) (n : ChannelId) : Line :=
  { x with retake := x.retake.filter fun r => decide (r.channel ≠ n) }

/-- The line without the channel's work. -/
def Line.left (x : Line) (n : ChannelId) (now : Nat) : Line := ((x.abandonedFor n now).remove n).unretaken n

section
variable (p : Part) (n : ChannelId)

theorem Part.leaveLine_eq :
    p.leaveLine n = ((p.abandonFor (p.lineOf n) n).removeOrder n).modLine (p.lineOf n) fun x => x.unretaken n := by
  unfold Part.leaveLine Part.modLine Line.unretaken
  congr 1
  cases hr : (((p.abandonFor (p.lineOf n) n).removeOrder n).line (p.lineOf n)).retake with
  | none => simp [hr]
  | some r => by_cases e : r.channel = n <;> simp [hr, Option.filter, e]

theorem Part.leaveLine_chan (m : ChannelId) : (p.leaveLine n).chan m = p.chan m := p.abandonFor_chan _ n m
@[simp] theorem Part.leaveLine_now : (p.leaveLine n).now = p.now := p.abandonFor_now _ n
@[simp] theorem Part.leaveLine_bank (b : BankId) : (p.leaveLine n).bank b = p.bank b := p.abandonFor_bank _ n b

theorem Part.abandonFor_lineOf (l : LineId) (m : ChannelId) : (p.abandonFor l n).lineOf m = p.lineOf m := by
  rw [Part.lineOf, Part.abandonFor_chan]; rfl

theorem Part.leaveLine_line (l : LineId) :
    (p.leaveLine n).line l = if l = p.lineOf n then (p.line l).left n p.now else p.line l := by
  have lineOf := p.abandonFor_lineOf n (p.lineOf n) n
  have removed := (p.abandonFor (p.lineOf n) n).removeOrder_line_self n
  rw [lineOf] at removed
  rw [Part.leaveLine_eq, Part.line_modLine]
  split
  next e =>
    rw [removed, Part.abandonFor_line, if_pos rfl, e]
    rfl
  next e => rw [Part.removeOrder, lineOf, Part.line_modLine, if_neg e, Part.abandonFor_line, if_neg e]

end

section
variable (x : Line) (n : ChannelId) (now : Nat)

theorem Line.abandonedFor_flightOf : (x.abandonedFor n now).flightOf n = none := by
  unfold Line.abandonedFor
  split
  next h =>
    obtain ⟨e, he⟩ := Option.isSome_iff_exists.mp h
    rw [Line.abandoned, (Line.flightOf_eq_some.mp he).1]
    rfl
  next h => simpa using h

theorem Line.left_freeOf : (x.left n now).FreeOf n where
  orders := ((x.abandonedFor n now).ordersOf_remove n n).trans (if_pos rfl)
  flight := x.abandonedFor_flightOf n now
  retake := by
    rintro ⟨r, hr, hc⟩
    simp only [Line.left, Line.unretaken, Option.filter_eq_some_iff, decide_eq_true_eq] at hr
    exact hr.2 hc

theorem Line.WorkOnly.abandonedFor : Line.WorkOnly n x (x.abandonedFor n now) := by
  unfold Line.abandonedFor
  split
  next h =>
    obtain ⟨e, he⟩ := Option.isSome_iff_exists.mp h
    obtain ⟨hx, hc⟩ := Line.flightOf_eq_some.mp he
    have gone : (x.abandoned now).exchange = none := by rw [Line.abandoned, hx]; rfl
    rw [Line.abandoned_eq]
    exact .of_exchange n x rfl rfl rfl rfl (fun e' h' => by obtain rfl : e = e' := Option.some.inj (hx ▸ h'); exact hc)
      (fun e' h' => nomatch h') fun _ _ => rfl
  next => exact .refl n x

theorem Line.WorkOnly.unretaken : Line.WorkOnly n x (x.unretaken n) :=
  .of_queue rfl rfl (fun r hr => by
    simp only [Line.unretaken, Option.filter_eq_some_iff] at hr
    exact hr.1) fun _ _ => rfl

theorem Line.WorkOnly.left : Line.WorkOnly n x (x.left n now) :=
  ((Line.WorkOnly.abandonedFor x n now).trans (.remove n _)).trans (.unretaken _ n)

end

/-! ## The changes of a channel -/

section
variable {p q r : Part} {n : ChannelId}

theorem Part.Near.leaveLine : p.Near n (p.leaveLine n) where
  chan m _ := p.leaveLine_chan n m
  cfg := by rw [Part.leaveLine_chan]
  line l := by
    rw [Part.leaveLine_line]
    split
    · exact .left _ n _
    · exact .refl n _
  far l hl := by rw [Part.leaveLine_line, if_neg hl]; exact .refl n _

/-- A channel of which no line has anything takes another record, at rest. -/
theorem Part.motionFits.of_free (others : ∀ m, m ≠ n → q.ChanFits m) (still : ∀ l, (q.line l).OutIsStill)
    (free : ∀ l, (q.line l).FreeOf n) (hc : q.OnlyChan n r) (hl : ∀ l, r.line l = q.line l) (record : (r.chan n).fits)
    (rest : (r.chan n).motion = .unused ∨ (r.chan n).motion = .offline) : r.motionFits := by
  refine .of (fun m => ?_) fun l => by rw [hl]; exact still l
  by_cases e : m = n
  · subst e
    have free := free (r.lineOf m)
    refine ⟨record, ?_, fun l _ => by rw [hl]; exact (‹∀ l, (q.line l).FreeOf m› l), ?_, fun _ => by tauto⟩
    · rw [hl, free.orders, free.flight]
      exact .atRest (by tauto) rfl noOrder_none
    · rw [hl]; exact fun _ => free.flight
  · have k := others m e
    have chan := hc m e
    have lineOf : r.lineOf m = q.lineOf m := by rw [Part.lineOf, chan]; rfl
    refine ⟨by rw [chan]; exact k.record, ?_, fun l hb => ?_, ?_, ?_⟩
    · rw [chan, lineOf, hl]; exact k.work
    · rw [chan] at hb; rw [hl]; exact k.elsewhere l hb
    · rw [lineOf, hl]; exact k.quiet
    · rw [lineOf, hl, chan]; exact k.out

/-- A channel that left its line takes another record, at rest. -/
theorem Part.motionFits.leaveLine (h : p.motionFits) (hc : (p.leaveLine n).OnlyChan n r)
    (hl : ∀ l, r.line l = (p.leaveLine n).line l) (record : (r.chan n).fits)
    (rest : (r.chan n).motion = .unused ∨ (r.chan n).motion = .offline) : r.motionFits := by
  have near : p.Near n (p.leaveLine n) := .leaveLine
  refine .of_free (fun m e => (h.chanFits m).near_of_ne near e) (fun l => (near.line l).still (h.outIsStill l)) (fun l => ?_)
    hc hl record rest
  by_cases e : l = p.lineOf n
  · rw [Part.leaveLine_line, if_pos e]; exact Line.left_freeOf _ n _
  · refine (near.far l e).freeOf ((h.chanFits n).elsewhere l ?_)
    by_contra hb
    exact e (Part.boundTo_lineOf (by simpa using hb)).symm

theorem Part.motionFits.unused_free (h : p.motionFits) (unused : (p.chan n).cfg.cls = .unused) (l : LineId) :
    (p.line l).FreeOf n :=
  (h.chanFits n).elsewhere l (by simp [Channel.boundTo, unused])

theorem Part.setConfig_chan_self (cfg : ChannelConfig) : (p.setConfig n cfg).chan n = { p.chan n with cfg := cfg } :=
  p.chan_modChan_self n _

theorem Part.motionFits.keepConfig (h : p.motionFits) {cfg : ChannelConfig}
    (kept : commitCase (p.chan n).cfg cfg = .kept) : (p.setConfig n cfg).motionFits := by
  obtain ⟨used, used', line, -⟩ := commitCase_eq_kept.mp kept
  have chan := p.setConfig_chan_self (n := n) cfg
  have only : p.OnlyChan n (p.setConfig n cfg) := (Part.OnlyChan.refl p).modChan _
  have lineOf : (p.setConfig n cfg).lineOf n = p.lineOf n := by rw [Part.lineOf, chan]; exact line.symm
  refine .of (fun m => ?_) h.outIsStill
  by_cases e : m = n
  · subst e
    have k := h.chanFits m
    have record := k.record
    refine ⟨?_, ?_, fun l hb => ?_, ?_, ?_⟩
    · rw [chan]
      exact ⟨⟨fun e => absurd (record.unused.mp e) used, fun e => absurd e used'⟩, record.fault, record.timed, record.moving,
        record.accepted, record.unknown⟩
    · rw [chan, lineOf]
      cases k.work with
      | atRest hm hq hf => exact .atRest hm hq hf
      | queued o m hq hh hs hf => exact .queued o m hq hh hs hf
      | ordering e o m hq hf hk hh hs ht hsent => exact .ordering e o m hq hf hk hh hs ht hsent
      | moving m hq hf => exact .moving m hq hf
      | haltQueued o m hq hh hf => exact .haltQueued o m hq hh hf
      | haltInFlight e o m hq hf hk hh hsent => exact .haltInFlight e o m hq hf hk hh hsent
    · refine k.elsewhere l ?_
      rw [chan] at hb
      simpa [Channel.boundTo, used, used', line] using hb
    · rw [lineOf]; exact k.quiet
    · rw [lineOf, chan]; exact k.out
  · have k := h.chanFits m
    have same := only m e
    have lineOf : (p.setConfig n cfg).lineOf m = p.lineOf m := by rw [Part.lineOf, same]; rfl
    exact ⟨by rw [same]; exact k.record, by rw [same, lineOf]; exact k.work, fun l hb => k.elsewhere l (by rwa [same] at hb),
      by rw [lineOf]; exact k.quiet, by rw [lineOf, same]; exact k.out⟩

/-- R21 to R23, case by case. -/
theorem Part.motionFits.commitChannel (h : p.motionFits) (n : ChannelId) (cfg : ChannelConfig) :
    (p.commitChannel n cfg).motionFits := by
  unfold Part.commitChannel
  dsimp only
  split
  next hc =>
    obtain ⟨unused, unused'⟩ := commitCase_eq_stillUnused.mp hc
    have record := h.channel n
    have motion := record.unused.mpr unused
    refine .of_free (fun m _ => h.chanFits m) h.outIsStill (h.unused_free unused) ((Part.OnlyChan.refl p).modChan _)
      (fun _ => rfl) ?_ ?_ <;> rw [Part.setConfig_chan_self]
    · exact ⟨⟨fun _ => unused', fun _ => motion⟩, record.fault, record.timed, record.moving, record.accepted, record.unknown⟩
    · exact .inl motion
  next hc => exact h.keepConfig hc
  next hc =>
    obtain ⟨-, unused'⟩ := commitCase_eq_toUnused.mp hc
    have chan : ((((p.leaveLine n).modChan n (fun c => c.forget)).setConfig n cfg).setMotion n .unused).chan n =
        (p.chan n).committedTo cfg (p.leaveLine n).now .unused := by
      rw [Part.setMotion_chan_self, Part.setConfig_chan_self, Part.chan_modChan_self, Part.leaveLine_chan]; rfl
    refine h.leaveLine (((Part.OnlyChan.refl _).modChan _ |>.modChan _).setMotion _) (fun _ => rfl) ?_ ?_ <;> rw [chan]
    · exact Channel.fits_committedTo_unused _ _ unused'
    · exact .inl rfl
  next hc =>
    obtain ⟨unused, used'⟩ := commitCase_eq_fromUnused.mp hc
    refine .of_free (fun m _ => h.chanFits m) h.outIsStill (h.unused_free unused) (p.commitOffline_onlyChan n cfg)
      (p.commitOffline_line n cfg) ?_ ?_ <;> rw [Part.commitOffline_chan_self]
    · exact (Channel.fits_committedTo_offline _ _ used').supervisedAtOnce
    · rw [Channel.supervisedAtOnce_motion]; exact .inr rfl
  next hc =>
    obtain ⟨-, used', -⟩ := commitCase_eq_rebound.mp hc
    have rebound : ((p.leaveLine n).commitOffline n cfg).motionFits := by
      refine h.leaveLine (Part.commitOffline_onlyChan _ n cfg) (Part.commitOffline_line _ n cfg) ?_ ?_ <;>
        rw [Part.commitOffline_chan_self]
      · exact (Channel.fits_committedTo_offline _ _ used').supervisedAtOnce
      · rw [Channel.supervisedAtOnce_motion]; exact .inr rfl
    split
    · exact rebound
    · exact rebound.record _ _

theorem Part.motionFits.commitExpiry (h : p.motionFits) (n : ChannelId) : (p.commitExpiry n).motionFits := by
  unfold Part.commitExpiry
  split
  · split; exacts [h.expireTravel n _, h]
  · exact h

theorem Part.motionFits.commitReview (h : p.motionFits) (n : ChannelId) : (p.commitReview n).motionFits := by
  unfold Part.commitReview
  dsimp only
  split
  next => exact h.testIdle n
  next hm =>
    split
    · have record := h.channel n
      have stopped := (Part.Leaves.refl n p).removeOrder.modChan (fun c => { c with travel := none }) fun _ => rfl
      exact (stopped.setMotion .idle).motionFits h (h.used n (by simp [hm]))
        (Channel.fits_enter_untimed _ (h.used n (by simp [hm])) (.inl rfl) (record.unfaulted (by simp [hm])) rfl
          (record.unaccepted (by simp [hm]) (by simp [hm])))
        (.atRest (.inr (.inr (.inl rfl))) rfl ((h.hasWork n).of_queued hm).2) (h.chanFits n).quiet
        fun out => absurd out (h.inService n (by simp [hm, working]))
    · exact h
  next => exact h

end

end Sys2Proof.Machine
end

section
/-! SUPPORT. The Zone Unit, the Weather Unit, the Command Unit and the host's writes keep channels, queues and exchanges agreeing. -/

namespace Sys2Proof.Machine

section
variable {p : Part} (h : p.motionFits)
include h

/-! ## Zones (R47 to R66) -/

theorem Part.motionFits.setGa (g : FireLoop) : (p.setGa g).motionFits := h.of_same (fun _ => rfl) fun _ => rfl
theorem Part.motionFits.setLoop (loop : LoopId) (g : FireLoop) : (p.setLoop loop g).motionFits := by
  cases loop with
  | zone z => exact h.modZone z fun x => { x with loop := g }
  | ga => exact h.setGa g

theorem Part.motionFits.changeLoop (loop : LoopId) (s : LoopState) : (p.changeLoop loop s).motionFits := by
  unfold Part.changeLoop
  split
  · exact h
  · dsimp only
    split
    · exact (h.setLoop loop _).record _ _
    · exact h.setLoop loop _

theorem Part.motionFits.takeFreezes (z : ZoneId) : (p.takeFreezes z).motionFits :=
  Part.forEach_inv (inv := Part.motionFits) (fun n q _ k => by
    split
    · exact k.modChan n (fun c => { c with freeze := c.granted }) ⟨rfl, rfl, rfl, .rfl, .rfl, id, id⟩
    · exact k) h

theorem Part.motionFits.dropFreezes (z : ZoneId) : (p.dropFreezes z).motionFits :=
  Part.forEach_inv (inv := Part.motionFits)
    (fun n _ _ k => k.modChan n (fun c => { c with freeze := none }) ⟨rfl, rfl, rfl, .rfl, .rfl, id, id⟩) h

theorem Part.motionFits.freshAttempts (z : ZoneId) : (p.freshAttempts z).motionFits :=
  Part.forEach_inv (inv := Part.motionFits) (fun n q _ k => by
    split
    next hm => exact k.leaveFaulted n hm.1
    next => exact k) h

theorem Part.motionFits.latchLines : p.latchLines.motionFits := h.foldl _ (fun _ l k => k.latchLine l) _

theorem Part.motionFits.setLatch (z : ZoneId) : (p.setLatch z).motionFits :=
  ((((h.modZone z _).takeFreezes z).recomputeZone z).freshAttempts z).latchLines

theorem Part.motionFits.latchIfClear (z : ZoneId) : (p.latchIfClear z).motionFits := by
  unfold Part.latchIfClear
  split; exacts [h, h.setLatch z]

theorem Part.motionFits.qualify (loop : LoopId) : (p.qualify loop).motionFits := by
  cases loop with
  | zone z => exact h.latchIfClear z
  | ga => exact h.foldl _ (fun _ z k => k.latchIfClear z) _

theorem Part.motionFits.loopTimerExpiry (loop : LoopId) (m : FireMode) : (p.loopTimerExpiry loop m).motionFits := by
  unfold Part.loopTimerExpiry
  split
  · split
    · exact ((h.advanceTo _).setLoop loop _).qualify loop
    · exact h
  · exact h

theorem Part.motionFits.judgeZone (z : ZoneId) : (p.judgeZone z).motionFits := h.modZone z _

theorem Part.motionFits.lastSecond (z : ZoneId) : (p.lastSecond z).motionFits := by
  unfold Part.lastSecond Part.missDeadline
  split; exacts [h, (h.modZone z _).record _ _]

theorem Part.motionFits.deadlineSecond (z : ZoneId) : (p.deadlineSecond z).motionFits := by
  unfold Part.deadlineSecond
  split
  · dsimp only
    split; exacts [(h.advanceTo _).lastSecond z, (h.advanceTo _).modZone z _]
  · exact h

theorem Part.motionFits.deadlineExpiry (z : ZoneId) : (p.deadlineExpiry z).motionFits := by
  unfold Part.deadlineExpiry
  split
  · split; exacts [(h.advanceTo _).lastSecond z, h]
  · exact h

theorem Part.motionFits.overrunSecond (z : ZoneId) : (p.overrunSecond z).motionFits := by
  unfold Part.overrunSecond
  split; exacts [(h.advanceTo _).modZone z _, h]

theorem Part.motionFits.releaseZone (z : ZoneId) : (p.releaseZone z).1.motionFits := by
  unfold Part.releaseZone
  split
  · split
    · exact h.record _ _
    · exact ((h.modZone z _).dropFreezes z).recomputeZone z
  · exact h

theorem Part.motionFits.loopChangesAt (changes : List LoopReport) (z : ZoneId) : (p.loopChangesAt changes z).motionFits :=
  h.foldl (fun (q : Part) (c : LoopReport) => q.changeLoop c.loop c.state) (fun _ c k => k.changeLoop c.loop c.state) _

theorem Part.motionFits.releaseZones (zones : BitVec 6) (changes : List LoopReport) :
    (p.releaseZones zones changes).part.motionFits := by
  refine foldl_keeps (R := fun a b : ReleaseResult => a.part.motionFits → b.part.motionFits) (fun _ k => k)
    (fun h k f => k (h f)) (fun r z k => ?_) allZones ⟨p, 0, 0⟩ h
  have released := (k.loopChangesAt changes z).releaseZone z
  split
  · dsimp only; split <;> exact released
  · exact k

/-! ## Weather (R69 to R83) -/

theorem Part.motionFits.setWeather (w : Weather) : (p.setWeather w).motionFits := h.of_same (fun _ => rfl) fun _ => rfl

theorem Part.motionFits.publish (j : Judged) (c : Condition) : (p.publish j c).motionFits := by
  unfold Part.publish
  split; exacts [h, (h.setWeather _).recomputeAll]

theorem Part.motionFits.endWindWindow (vane : BitVec 3) (order : PublicationOrder) : (p.endWindWindow vane order).motionFits :=
  ((h.advanceTo _).setWeather _).foldl _ (fun _ c k => k.publish _ c) _

theorem Part.motionFits.changeRainContact (active : Bool) : (p.changeRainContact active).motionFits := by
  unfold Part.changeRainContact
  dsimp only
  split
  · exact h.setWeather _
  · exact h.setWeather _
  · exact h.setWeather _
  · exact h.setWeather _
  all_goals exact h

theorem Part.motionFits.expireRain : p.expireRain.motionFits := by
  unfold Part.expireRain
  split
  · exact (h.setWeather _).recomputeAll
  · exact (h.setWeather _).recomputeAll
  all_goals exact h

theorem Part.motionFits.rainTimerExpiry : p.rainTimerExpiry.motionFits := by
  unfold Part.rainTimerExpiry
  split; exacts [(h.advanceTo _).expireRain, h]

/-! ## Commands (R170 to R181) -/

theorem Part.motionFits.setCmd (c : CommandUnit) : (p.setCmd c).motionFits := h.of_same (fun _ => rfl) fun _ => rfl
theorem Part.motionFits.setRelease (r : Release) : (p.setRelease r).motionFits := h.setCmd _
theorem Part.motionFits.abandonRelease : p.abandonRelease.motionFits := (h.setRelease .idle).record _ _

theorem Part.motionFits.nameReleaseZones : p.nameReleaseZones.part.motionFits := by
  unfold Part.nameReleaseZones
  split
  · exact h
  · split
    · exact h.setRelease _
    · exact h.abandonRelease
  · exact h.abandonRelease

theorem Part.motionFits.endRelease (changes : List LoopReport) : (p.endRelease changes).part.motionFits := by
  unfold Part.endRelease
  split
  · exact h
  · exact h.abandonRelease
  · exact (h.setRelease .idle).releaseZones _ changes

theorem Part.motionFits.releaseTimerExpiry : p.releaseTimerExpiry.motionFits := by
  unfold Part.releaseTimerExpiry
  split
  · exact h
  · exact (h.advanceTo _).abandonRelease
  · exact (h.advanceTo _).abandonRelease

theorem Part.motionFits.clearFault (n : ChannelId) : (p.clearFault n).motionFits := by
  unfold Part.clearFault
  split
  next hm => exact h.leaveFaulted n hm
  next => exact h

theorem Part.motionFits.faultClear : p.faultClear.part.motionFits := by
  unfold Part.faultClear
  split
  · exact Part.forEach_inv (inv := Part.motionFits) (fun n _ _ k => k.clearFault n) h
  · exact h

theorem Part.motionFits.lineToRun (l : LineId) : (p.lineToRun l).part.motionFits := by
  unfold Part.lineToRun
  split
  · exact h
  · exact h.enterLine .run (by simp) (by simp)
  · exact h.enterLine .run (by simp) (by simp)
  next hs => exact h.restartLine l (.inl hs)
  all_goals exact h

theorem Part.motionFits.lineToQuiet (l : LineId) : (p.lineToQuiet l).part.motionFits := by
  unfold Part.lineToQuiet
  split
  · exact h.enterLine .quieting (by simp) (by simp)
  all_goals exact h

theorem Part.motionFits.lineStateCommand : p.lineStateCommand.part.motionFits := by
  unfold Part.lineStateCommand
  split
  · exact h.lineToRun _
  · split; exacts [h, h.lineToQuiet _]
  · exact h.disableLine _
  · exact h

/-- R141: a line in QUIET has no transaction in flight. -/
theorem Part.motionFits.startTest {l : LineId} (quiet : (p.line l).state = .quiet) (k : TestKind) (target : BitVec 4) :
    (p.startTest l k target).motionFits := by
  have none := (h.line l).idle (.inl quiet)
  have discard (e : Exchange) (he : (p.line l).discardOldTest.exchange = some e) : e.kind.channel = Option.none := by
    obtain ⟨e', he', rfl⟩ := Option.map_eq_some_iff.mp he
    have no := none e' he'
    cases hk : e'.kind with
    | test bytes d => rfl
    | order o => rw [hk] at no; exact nomatch no
    | query n poll => rw [hk] at no; exact nomatch no
  have discarded : (p.modLine l fun x => x.discardOldTest).motionFits :=
    h.setTestExchange (f := fun x => x.discardOldTest) ⟨rfl, rfl, rfl, fun _ => id⟩ none discard fun out => by
      have out : (p.line l).state = .disabled ∨ (p.line l).state = .failed := out
      rw [quiet] at out
      rcases out with s | s <;> exact nomatch s
  have line : ((p.modLine l fun x => x.discardOldTest).modTest l fun t => t.start k target).line l =
      { (p.line l).discardOldTest with test := (p.line l).discardOldTest.test.start k target } := by
    rw [Part.modTest, Part.line_modLine_self, Part.line_modLine_self]
  refine (discarded.modTest l _).enterLine .test (fun _ n => ?_) (by simp)
  rw [line]
  exact Line.flightOf_eq_none.mpr fun e he => by rw [discard e he]; exact nofun

theorem Part.motionFits.testStartCommand : p.testStartCommand.part.motionFits := by
  unfold Part.testStartCommand
  split
  · split
    · exact h
    · split
      next quiet => exact h.startTest quiet _ _
      next => exact h
  · exact h

theorem Part.motionFits.stopTest {l : LineId} (test : (p.line l).state = .test) : (p.stopTest l).motionFits := by
  have line : (p.modTest l fun t => { t with result := some .stopped }).line l =
      { p.line l with test := { (p.line l).test with result := some .stopped } } := p.line_modLine_self l _
  refine (h.modTest l _).enterLine .quiet (fun _ n => ?_) (by simp)
  rw [line]
  exact Line.flightOf_eq_none.mpr fun e he => by rw [(h.line l).idle (.inr test) e he]; exact nofun

theorem Part.motionFits.testStopCommand : p.testStopCommand.part.motionFits := by
  unfold Part.testStopCommand
  split
  · split
    next test => exact h.stopTest test
    next => exact h
  · exact h

theorem Part.motionFits.setGlobals (g : GlobalConfig) : ({ p with globals := g } : Part).motionFits :=
  h.of_same (fun _ => rfl) fun _ => rfl

theorem Part.motionFits.commitSupervision (old : GlobalConfig) : (p.commitSupervision old).motionFits := by
  unfold Part.commitSupervision
  split
  · exact h
  · exact Part.forEach_inv (inv := Part.motionFits) (fun n q _ k => by
      split
      · split; exacts [k.dueAtOnce n, k]
      · exact k) h

theorem Part.motionFits.commitRain (old : GlobalConfig) : (p.commitRain old).motionFits := by
  unfold Part.commitRain
  split
  · dsimp only; split; exacts [h.expireRain, h]
  · exact h

theorem Part.motionFits.commitWind (old : GlobalConfig) : (p.commitWind old).motionFits := by
  unfold Part.commitWind
  split; exacts [h, h.setWeather _]

theorem Part.motionFits.commitLoops (words : ConfigWords) : (p.commitLoops words).motionFits :=
  (h.foldl _ (fun _ z k => k.modZone z _) _).setGa _

theorem Part.motionFits.commit : p.commit.motionFits := by
  have changed : (p.forEach allChannels fun n q => q.commitChannel n (pendingChannel p.cmd.pending n)).motionFits :=
    Part.forEach_inv (inv := Part.motionFits) (fun n _ _ k => k.commitChannel n _) h
  have global := changed.setGlobals (pendingGlobals p.cmd.pending)
  have expired := Part.forEach_inv (inv := Part.motionFits) (act := fun n q => q.commitExpiry n)
    (ns := allChannels.filter fun n => decide (commitCase (p.chan n).cfg (pendingChannel p.cmd.pending n) = .kept))
    (fun n _ _ k => k.commitExpiry n) global
  have reviewed := Part.forEach_inv (inv := Part.motionFits) (act := fun n q => q.commitReview n)
    (ns := allChannels.filter fun n => decide (commitCase (p.chan n).cfg (pendingChannel p.cmd.pending n) = .kept))
    (fun n _ _ k => k.commitReview n) expired.recomputeAll
  exact ((((reviewed.commitLoops p.cmd.pending).commitWind p.globals).commitRain p.globals).commitSupervision p.globals).setCmd _

theorem Part.motionFits.configCommit : p.configCommit.part.motionFits := by
  unfold Part.configCommit
  split
  · exact h
  · split
    · exact h
    · exact h.commit

theorem Part.motionFits.decideCommand (changes : List LoopReport) (c : Option CommandCode) :
    (p.decideCommand changes c).part.motionFits := by
  unfold Part.decideCommand
  split
  · exact h.configCommit
  · exact h.faultClear
  · exact h.lineStateCommand
  · exact h.testStartCommand
  · exact h.testStopCommand
  · exact h.setRelease _
  · exact h.nameReleaseZones
  · exact h.endRelease changes
  · exact h

theorem Part.motionFits.interrupt (c : Option CommandCode) : (p.interrupt c).motionFits := by
  unfold Part.interrupt
  split; exacts [h.abandonRelease, h]

theorem Part.motionFits.takeCommand (code : Word) (changes : List LoopReport) : (p.takeCommand code changes).motionFits := by
  have decided := (h.interrupt (commandOfCode code)).decideCommand changes (commandOfCode code)
  unfold Part.takeCommand Verdict.conclude
  dsimp only
  split
  · exact (decided.record _ _).setCmd _
  · exact decided.setCmd _

/-! ## Captures -/

theorem Part.motionFits.recordAtGate (kind : ErrorKind) (subject : Subject) : (p.recordAtGate kind subject).motionFits :=
  h.of_same (fun _ => rfl) fun _ => rfl

theorem Part.motionFits.captureTarget (n : ChannelId) (w : Word) : (p.captureTarget n w).motionFits := by
  unfold Part.captureTarget
  dsimp only
  split
  · exact ((h.recordAtGate _ _).modChan n _ ⟨rfl, rfl, rfl, .rfl, .rfl, id, id⟩).recompute n
  · exact (h.modChan n _ ⟨rfl, rfl, rfl, .rfl, .rfl, id, id⟩).recompute n

end

end Sys2Proof.Machine
end

section
/-! PROOF. O6: every step keeps the captures and the banks in range and channels, queues and exchanges agreeing. -/

namespace Sys2Proof.Machine

/-! ## Captured targets, the command count and the banks (R6, R169, R183, R187) -/

section
variable {b : Bank}

theorem Bank.inRange.take (h : b.inRange) (e : ErrorRecord) : (b.take e).inRange := by
  unfold Bank.take
  split
  next none => exact ⟨h.counter, h.lastStart, fun _ => h.empty none⟩
  next r some =>
    have full : b.record ≠ none := by rw [some]; exact nofun
    split
    · exact ⟨h.counter, h.lastStart, nofun⟩
    · split <;> exact ⟨h.counter, h.lastStart, fun none => absurd none full⟩

theorem Bank.inRange.count (h : b.inRange) : b.count.inRange := by
  unfold Bank.count
  split
  next below => exact ⟨below.2, h.lastStart, h.empty⟩
  next => exact h

theorem Bank.inRange.grown {c : Bank} (h : b.inRange) (g : b.Grown c) : c.inRange := by
  induction g with
  | refl => exact h
  | take e _ ih => exact (ih.take e).count

theorem Bank.inRange.acknowledge (h : b.inRange) (code : Word) : (b.acknowledge code).inRange := by
  unfold Bank.acknowledge
  split
  · exact ⟨h.counter, h.lastStart, fun _ => ⟨rfl, rfl⟩⟩
  · exact ⟨h.counter, h.lastStart, h.empty⟩
  · exact ⟨h.counter, h.lastStart, h.empty⟩

theorem startValue_le (w : Word) : startValue w ≤ thresholdCeiling := by
  unfold startValue saturate; split <;> omega

theorem Bank.inRange.startCounter (h : b.inRange) (w : Word) : (b.startCounter w).inRange :=
  ⟨startValue_le w, startValue_le w, h.empty⟩

end

/-- What `Part.inRange` says of the captures and the banks. -/
structure Part.Ranges (p : Part) : Prop where
  requested : ∀ n : ChannelId, (p.chan n).requested.toNat ≤ fullOpen
  count : p.cmd.count < 128
  bank : ∀ b : BankId, (p.bank b).inRange

section
variable {p q : Part}

theorem Part.inRange.ranges (h : p.inRange) : p.Ranges := ⟨h.requested, h.count, h.bank⟩

theorem Part.Ranges.captures (h : p.Ranges) (k : p.KeepsCaptures q) : q.Ranges where
  requested n := by rw [k.requested]; exact h.requested n
  count := k.count h.count
  bank b := (h.bank b).grown (k.bank b)

theorem Part.Ranges.setBank (h : p.Ranges) (b : BankId) {x : Bank} (hx : x.inRange) : (p.setBank b x).Ranges where
  requested := h.requested
  count := h.count
  bank c := by
    rw [Part.bank_setBank]
    split
    · exact hx
    · exact h.bank c

theorem Part.Ranges.mark (h : p.Ranges) (r : RecordId) (w : BitVec 8) : (p.mark r w).Ranges := ⟨h.requested, h.count, h.bank⟩

theorem Part.Ranges.record (h : p.Ranges) (b : BankId) (e : ErrorRecord) : (p.record b e).Ranges :=
  h.setBank b ((h.bank b).take e).count

theorem Part.Ranges.recordAtGate (h : p.Ranges) (kind : ErrorKind) (subject : Subject) : (p.recordAtGate kind subject).Ranges :=
  (h.record _ _).mark _ _

theorem Part.Ranges.setCmd (h : p.Ranges) (c : CommandUnit) (hc : c.count < 128) : (p.setCmd c).Ranges :=
  ⟨h.requested, hc, h.bank⟩

theorem Part.Ranges.modChan (h : p.Ranges) (n : ChannelId) (f : Channel → Channel)
    (hf : (f (p.chan n)).requested.toNat ≤ fullOpen) : (p.modChan n f).Ranges where
  requested m := by
    rw [Part.chan_modChan]
    split
    · exact hf
    · exact h.requested m
  count := h.count
  bank := h.bank

theorem Part.Ranges.acknowledge (h : p.Ranges) (b : BankId) (code : Word) : (p.acknowledge b code).Ranges := by
  have acknowledged := (h.setBank b ((h.bank b).acknowledge code)).mark (.bank b) (wordBit true 6)
  unfold Part.acknowledge
  dsimp only
  split
  · exact acknowledged.record _ _
  · exact acknowledged
  · exact acknowledged

theorem Part.Ranges.startCounter (h : p.Ranges) (b : BankId) (w : Word) : (p.startCounter b w).Ranges :=
  (h.setBank b ((h.bank b).startCounter w)).mark _ _

theorem Part.Ranges.acknowledgeNotices (h : p.Ranges) (k : Fin 3) (w : Word) : (p.acknowledgeNotices k w).Ranges :=
  ⟨h.requested, h.count, h.bank⟩

theorem clampTarget_le (w : Word) : (clampTarget w).toNat ≤ fullOpen := by
  unfold clampTarget
  split
  · decide
  · omega

theorem Part.Ranges.captureTarget (h : p.Ranges) (n : ChannelId) (w : Word) : (p.captureTarget n w).Ranges := by
  unfold Part.captureTarget
  dsimp only
  refine Part.Ranges.captures ?_ ((Part.KeepsCaptures.refl _).recompute n)
  split
  · exact (h.recordAtGate _ _).modChan n _ (clampTarget_le w)
  · exact h.modChan n _ (clampTarget_le w)

theorem Part.Ranges.showItems (h : p.Ranges) (r : RecordId) : (p.showItems r).Ranges := by
  unfold Part.showItems
  split
  next b =>
    dsimp only
    split
    · exact h.setBank b ⟨(h.bank b).counter, (h.bank b).lastStart, (h.bank b).empty⟩
    · exact h
  next => split; exacts [⟨h.requested, h.count, h.bank⟩, h]
  all_goals exact h

theorem Part.hideItems_chan_line (p : Part) :
    (∀ n, p.hideItems.chan n = p.chan n) ∧ ∀ l, p.hideItems.line l = p.line l := by
  have each := foldl_keeps (R := fun a b : Part => (∀ n, b.chan n = a.chan n) ∧ ∀ l, b.line l = a.line l)
    (fun _ => ⟨fun _ => rfl, fun _ => rfl⟩) (fun h k => ⟨fun n => (k.1 n).trans (h.1 n), fun l => (k.2 l).trans (h.2 l)⟩)
    (f := fun q b => q.setBank b { q.bank b with recordShown := false, thresholdShown := false })
    (fun _ _ => ⟨fun _ => rfl, fun _ => rfl⟩) allBanks p
  exact each

theorem Part.Ranges.hideItems (h : p.Ranges) : p.hideItems.Ranges := by
  have each := foldl_keeps (R := fun a b : Part => a.Ranges → b.Ranges) (fun _ k => k) (fun h k f => k (h f))
    (f := fun q b => q.setBank b { q.bank b with recordShown := false, thresholdShown := false })
    (fun q b k => k.setBank b ⟨(k.bank b).counter, (k.bank b).lastStart, (k.bank b).empty⟩) allBanks p h
  exact ⟨each.requested, each.count, each.bank⟩

end

/-! ## Steps that keep ranges and agreement -/

/-- From `p` to `q` ranges and agreement are kept. -/
structure Part.Keeps (p q : Part) : Prop where
  inRange : p.inRange → q.inRange
  motion : p.motionFits → q.motionFits

theorem Part.Keeps.refl (p : Part) : p.Keeps p := ⟨id, id⟩
theorem Part.Keeps.trans {p q r : Part} (h : p.Keeps q) (k : q.Keeps r) : p.Keeps r :=
  ⟨fun f => k.inRange (h.inRange f), fun m => k.motion (h.motion m)⟩

/-- No channel and no line changes. -/
theorem Part.Keeps.of_same {p q : Part} (hr : p.Ranges → q.Ranges) (hc : ∀ n, q.chan n = p.chan n)
    (hl : ∀ l, q.line l = p.line l) : p.Keeps q where
  inRange r := by
    obtain ⟨requested, count, bank⟩ := hr r.ranges
    refine ⟨requested, count, bank, fun l quieting => ?_⟩
    rw [hl] at quieting
    rw [← r.restless l quieting]
    simp only [Part.atRest, Part.boundChannels, hl, hc]
  motion m := m.of_same hc hl

/-- Quieting complete ends every event. -/
theorem State.keeps_event (s : State) {act : Part → Part} (hr : s.part.Ranges → (act s.part).Ranges)
    (hm : s.part.motionFits → (act s.part).motionFits) : s.part.Keeps (s.event act).part where
  inRange r := by
    have ranges := hr r.ranges
    refine ⟨fun n => ?_, ?_, fun b => ?_, fun l quieting => ?_⟩
    · rw [State.event_chan]; exact ranges.requested n
    · rw [State.event_cmd]; exact ranges.count
    · rw [State.event_bank]; exact ranges.bank b
    · rw [State.event_part] at quieting ⊢
      exact Part.completeQuieting_restless _ l quieting
  motion m := by rw [State.event_part]; exact (hm m).completeQuieting

theorem State.keeps_writeBackCycle (s : State) : s.part.Keeps s.writeBackCycle.part := by
  obtain ⟨chans, -, -, lines, -⟩ := s.writeBackCycle_part
  refine .of_same (fun r => ?_) (fun n => by rw [Part.chan, chans]; rfl) fun l => by rw [Part.line, lines]; rfl
  unfold State.writeBackCycle
  split
  · exact r
  · split
    · dsimp only
      have written (q : RecordId) (k : Fin 8) : (s.writeWordBack q k).part.Ranges := ⟨r.requested, r.count, r.bank⟩
      split
      · exact (written _ _).showItems _
      · exact written _ _
    · exact r.showItems _

theorem State.keeps_grant (s : State) : s.part.Keeps s.grant.part := by
  rcases s.grant_cases with ⟨_, e⟩ | ⟨_, e⟩ <;> rw [e]
  · exact .refl _
  · exact State.keeps_writeBackCycle s

theorem State.keeps_forwardWrite (s : State) (addr : Addr) (be : ByteEnables) (data : Word) :
    s.part.Keeps (s.forwardWrite addr be data).part := by
  unfold State.forwardWrite
  split
  · exact .refl _
  · exact State.keeps_grant s

theorem State.keeps_hostWritten (s : State) (off : Nat) (be : ByteEnables) (data : Word) (captured : Part → Word)
    (check : Word → Word) {capture : Word → Part → Part} (hr : ∀ w (p : Part), p.Ranges → (capture w p).Ranges)
    (hm : ∀ w (p : Part), p.motionFits → (capture w p).motionFits) :
    s.part.Keeps (s.hostWritten off be data captured check capture).part := by
  unfold State.hostWritten
  split
  · exact .refl _
  · split
    · exact (State.keeps_grant s).trans (State.keeps_event (s.grant.memoryWrite (s.bus.addressOf off) wholeWord
        (check (merge be data (captured s.part)))) (hr _ _) (hm _ _))
    · exact State.keeps_forwardWrite s _ be data

theorem State.keeps_capturedOnly (s : State) (off : Nat) (be : ByteEnables) (data : Word) (r : RecordId) (k : Nat)
    {take : Word → Part → Part} (hr : ∀ w (p : Part), p.Ranges → (take w p).Ranges)
    (hm : ∀ w (p : Part), p.motionFits → (take w p).motionFits) : s.part.Keeps (s.capturedOnly off be data r k take).part := by
  unfold State.capturedOnly
  split
  · exact .refl _
  · split
    · exact State.keeps_event s.noWait (hr _ _) (hm _ _)
    · exact State.keeps_forwardWrite s _ be data

theorem State.keeps_droppedWrite (s : State) (off : Nat) (be : ByteEnables) (data : Word) (kind : ErrorKind) :
    s.part.Keeps (s.droppedWrite off be data kind).part := by
  unfold State.droppedWrite
  split
  · exact .refl _
  · split
    · exact State.keeps_event s.noWait (fun r => r.recordAtGate _ _) fun m => m.recordAtGate _ _
    · exact State.keeps_forwardWrite s _ be data

section
variable (s : State) (be : ByteEnables) (data : Word)

theorem State.keeps_writeTarget (n : ChannelId) : s.part.Keeps (s.writeTarget n be data).part :=
  State.keeps_hostWritten s _ be data _ _ (fun w _ r => r.captureTarget n w) fun w _ m => m.captureTarget n w

theorem State.keeps_writeNotify (n : ChannelId) : s.part.Keeps (s.writeNotify n be data).part :=
  State.keeps_hostWritten s _ be data _ _ (fun _ _ r => r.modChan n _ (r.requested n))
    fun w _ m => m.modChan n (fun c => { c with notifyWord := w }) ⟨rfl, rfl, rfl, .rfl, .rfl, id, id⟩

theorem State.keeps_writeConfiguration (i : Fin 209) : s.part.Keeps (s.writeConfiguration i be data).part :=
  State.keeps_hostWritten s _ be data _ _ (fun _ _ r => r.setCmd _ r.count) fun _ _ m => m.setCmd _

theorem State.keeps_writeArgument (i : Fin 3) : s.part.Keeps (s.writeArgument i be data).part :=
  State.keeps_hostWritten s _ be data _ _ (fun _ _ r => r.setCmd _ r.count) fun _ _ m => m.setCmd _

theorem State.keeps_writePattern (l : LineId) (i : Fin 4) : s.part.Keeps (s.writePattern l i be data).part :=
  State.keeps_hostWritten s _ be data _ _ (fun _ _ r => ⟨r.requested, r.count, r.bank⟩) fun _ _ m => m.modTest l _

theorem State.keeps_writeEnable (b : BankId) : s.part.Keeps (s.writeEnable b be data).part :=
  State.keeps_hostWritten s _ be data _ _
    (fun _ _ r => r.setBank b ⟨(r.bank b).counter, (r.bank b).lastStart, (r.bank b).empty⟩)
    fun _ _ m => m.of_same (fun _ => rfl) fun _ => rfl

theorem Part.acknowledge_chan_line (p : Part) (b : BankId) (code : Word) :
    (∀ n, (p.acknowledge b code).chan n = p.chan n) ∧ ∀ l, (p.acknowledge b code).line l = p.line l := by
  unfold Part.acknowledge
  dsimp only
  split <;> exact ⟨fun _ => rfl, fun _ => rfl⟩

theorem State.keeps_writeAcknowledge (b : BankId) : s.part.Keeps (s.writeAcknowledge b be data).part :=
  State.keeps_capturedOnly s _ be data _ _ (fun w _ r => r.acknowledge b w) fun w p m =>
    m.of_same (p.acknowledge_chan_line b w).1 (p.acknowledge_chan_line b w).2

theorem State.keeps_writeCounterStart (b : BankId) : s.part.Keeps (s.writeCounterStart b be data).part :=
  State.keeps_capturedOnly s _ be data _ _ (fun w _ r => r.startCounter b w) fun _ _ m => m.of_same (fun _ => rfl) fun _ => rfl

theorem State.keeps_writeNoticeAcknowledge (i : Fin 3) : s.part.Keeps (s.writeNoticeAcknowledge i be data).part :=
  State.keeps_capturedOnly s _ be data _ _ (fun w _ r => r.acknowledgeNotices i w) fun _ _ m => m.of_same (fun _ => rfl) fun _ => rfl

theorem State.keeps_writeCommand (code : Word) (changes : List LoopReport) : s.part.Keeps (s.writeCommand code changes).part := by
  unfold State.writeCommand
  split
  · exact .refl _
  · exact (State.keeps_grant s).trans (State.keeps_event (s.grant.memoryWrite (s.bus.addressOf commandOffset) wholeWord code)
      (fun r => r.captures ((Part.KeepsCaptures.refl _).takeCommand code changes))
      fun m => m.takeCommand code changes)

theorem State.keeps_windowWrite (off : BitVec 10) : s.part.Keeps (s.windowWrite off be data).part := by
  unfold State.windowWrite
  split
  · exact State.keeps_writeTarget s be data _
  · exact State.keeps_writeNotify s be data _
  · split
    · exact State.keeps_writeCommand s data []
    · exact State.keeps_droppedWrite s _ _ data _
    · exact State.keeps_droppedWrite s _ _ data _
    · exact State.keeps_forwardWrite s _ _ data
  · exact State.keeps_writeArgument s be data _
  · exact State.keeps_writeNoticeAcknowledge s be data _
  · exact State.keeps_writeConfiguration s be data _
  · exact State.keeps_writeEnable s be data _
  · exact State.keeps_writeAcknowledge s be data _
  · exact State.keeps_writeCounterStart s be data _
  · exact State.keeps_writePattern s be data _ _
  · exact State.keeps_droppedWrite s _ be data _
  · exact State.keeps_forwardWrite s _ be data

theorem State.keeps_hostWrite (addr : Addr) : s.part.Keeps (s.hostWrite addr be data).part := by
  unfold State.hostWrite
  split
  · exact State.keeps_windowWrite s be data _
  · exact State.keeps_forwardWrite s addr be data

theorem State.keeps_hostRead (addr : Addr) : s.part.Keeps (s.hostRead addr be).part := by
  unfold State.hostRead
  split
  · exact .refl _
  · exact State.keeps_grant s

end

/-! ## Resets -/

theorem Part.keeps_resetCommandUnit (p : Part) (dirty : Vector (BitVec 8) 73) :
    p.Keeps { p.resetCommandUnit with dirty := dirty } :=
  .of_same (fun r => ⟨r.requested, Nat.zero_lt_succ _, r.bank⟩) (fun _ => rfl) fun _ => rfl

theorem State.keeps_assertRstn (s : State) (straps : BitVec 3) : s.part.Keeps (s.assertRstn straps).part := by
  show s.part.Keeps { s.part.hideItems.resetCommandUnit with dirty := allDirty }
  exact (Part.Keeps.of_same (fun r => r.hideItems) s.part.hideItems_chan_line.1 s.part.hideItems_chan_line.2).trans
    (Part.keeps_resetCommandUnit _ allDirty)

theorem Part.KeepsCaptures.firstSamples (p : Part) (zoneLoops : Vector LoopState 6) (gaLoop : LoopState) :
    p.KeepsCaptures (p.firstSamples zoneLoops gaLoop) :=
  ((Part.KeepsCaptures.refl p).foldl (fun q z => q.changeLoop (.zone z) zoneLoops[z.val])
    (fun q z => (Part.KeepsCaptures.refl q).changeLoop (.zone z) zoneLoops[z.val]) allZones).changeLoop .ga gaLoop

theorem State.keeps_powerOn (s : State) (straps : BitVec 3) (zoneLoops : Vector LoopState 6) (gaLoop : LoopState)
    (rainActive : Bool) : s.part.Keeps (s.powerOn straps zoneLoops gaLoop rainActive).part := by
  have start := State.keeps_event
    { s with part := initialPart rainActive, bus := initialBus straps (s.bus.powerOns + 1) }
    (act := fun p => p.firstSamples zoneLoops gaLoop)
    (fun r => r.captures (Part.KeepsCaptures.firstSamples _ zoneLoops gaLoop))
    fun m => (m.foldl _ (fun _ z k => k.changeLoop (.zone z) zoneLoops[z.val]) allZones).changeLoop .ga gaLoop
  exact ⟨fun _ => start.inRange (initialPart_inRange rainActive), fun _ => start.motion (initialPart_motionFits rainActive)⟩

/-! ## Every command -/

/-- A command's next state, by the kind of the command. -/
theorem exec_keeps (c : Instr) (s t : State) (h : exec c s = .next t) : s.part.Keeps t.part := by
  have ev {act : Part → Part} (hk : ∀ p : Part, p.KeepsCaptures (act p)) (hm : ∀ p : Part, p.motionFits → (act p).motionFits) :
      s.part.Keeps (s.event act).part := State.keeps_event s (fun r => r.captures (hk _)) (hm _)
  have g := Part.KeepsGrants.refl
  have k := Part.KeepsCaptures.refl
  cases c <;> (injection h with h; subst h)
  case powerOnReset straps zs ga rain => exact State.keeps_powerOn s straps zs ga rain
  case rstn straps => exact State.keeps_assertRstn s straps
  case requestedTargetWrite n be data => exact State.keeps_writeTarget s be data n
  case notifyWrite n be data => exact State.keeps_writeNotify s be data n
  case configurationWrite i be data => exact State.keeps_writeConfiguration s be data i
  case argumentWrite i be data => exact State.keeps_writeArgument s be data i
  case patternWrite l i be data => exact State.keeps_writePattern s be data l i
  case enableWordWrite b be data => exact State.keeps_writeEnable s be data b
  case acknowledgeWordWrite b be data => exact State.keeps_writeAcknowledge s be data b
  case counterStartWrite b be data => exact State.keeps_writeCounterStart s be data b
  case noticeAcknowledgeWrite i be data => exact State.keeps_writeNoticeAcknowledge s be data i
  case ownedWordWrite off be data => exact State.keeps_windowWrite s be data off
  case commandByteWrite lane data => exact State.keeps_droppedWrite s _ _ data _
  case forwardedWrite addr be data => exact State.keeps_hostWrite s be data addr
  case writeBackCycle => exact State.keeps_writeBackCycle s
  case hostRead addr be => exact State.keeps_hostRead s be addr
  case rstnDeassertion => exact .refl _
  case configCommit => exact State.keeps_writeCommand s _ _
  case faultClear => exact State.keeps_writeCommand s _ _
  case lineStateRun => exact State.keeps_writeCommand s _ _
  case lineStateQuiet => exact State.keeps_writeCommand s _ _
  case lineStateDisabled => exact State.keeps_writeCommand s _ _
  case testStart => exact State.keeps_writeCommand s _ _
  case testStop => exact State.keeps_writeCommand s _ _
  case releaseBegin => exact State.keeps_writeCommand s _ _
  case releaseZones => exact State.keeps_writeCommand s _ _
  case releaseEnd changes => exact State.keeps_writeCommand s _ _
  case unknownCommand code => exact State.keeps_writeCommand s _ _
  case releaseTimerExpiry => exact ev (fun p => (k p).releaseTimerExpiry) fun p m => m.releaseTimerExpiry
  case loopChange loop state => exact ev (fun p => (k p).changeLoop _ _) fun p m => m.changeLoop _ _
  case levelTimerExpiry loop => exact ev (fun p => (k p).loopTimerExpiry _ _) fun p m => m.loopTimerExpiry _ _
  case pulseTimerExpiry loop => exact ev (fun p => (k p).loopTimerExpiry _ _) fun p m => m.loopTimerExpiry _ _
  case completenessJudgement z => exact ev (fun p => (k p).judgeZone z) fun p m => m.judgeZone z
  case deadlineSecond z => exact ev (fun p => (k p).deadlineSecond z) fun p m => m.deadlineSecond z
  case deadlineExpiry z => exact ev (fun p => (k p).deadlineExpiry z) fun p m => m.deadlineExpiry z
  case overrunSecond z => exact ev (fun p => (k p).overrunSecond z) fun p m => m.overrunSecond z
  case anemometerPulse => exact ev (fun p => (k p).countPulse) fun p m => m.setWeather _
  case windowEnd vane order => exact ev (fun p => (k p).endWindWindow _ _) fun p m => m.endWindWindow _ _
  case rainContactChange active => exact ev (fun p => (k p).changeRainContact _) fun p m => m.changeRainContact _
  case rainTimerExpiry => exact ev (fun p => (k p).rainTimerExpiry) fun p m => m.rainTimerExpiry
  case transactionStart l => exact ev (fun p => ((g p).startTransaction l).captures) fun p m => m.startTransaction
  case send l => exact ev (fun p => ((g p).sendFrame l).captures) fun p m => m.sendFrame l
  case arbitrationLoss l place back =>
    exact ev (fun p => ((g p).loseArbitration l place back).captures) fun p m => m.loseArbitration l _ _
  case replyTimeout l => exact ev (fun p => ((g p).timeOut l).captures) fun p m => m.timeOut l
  case damagedFrame l heard => exact ev (fun p => (k p).hearReception l heard) fun p m => m.hearReception l _
  case status l a x y z =>
    exact ev (fun p => (((g p).frameSeen l).hearStatus l a x y z).captures) fun p m => (m.frameSeen l).hearStatus l _ _ _ _
  case accept l a => exact ev (fun p => (((g p).frameSeen l).hearAccept l a).captures) fun p m => (m.frameSeen l).hearAccept l _
  case busy l a => exact ev (fun p => (((g p).frameSeen l).hearBusy l a).captures) fun p m => (m.frameSeen l).hearBusy l _
  case refuse l a r =>
    exact ev (fun p => (((g p).frameSeen l).hearRefuse l a r).captures) fun p m => (m.frameSeen l).hearRefuse l _ _
  case key l a z c first =>
    exact ev (fun p => ((k p).frameSeen l).hearKey l a z c first) fun p m => (m.frameSeen l).hearKey l _ _ _ _
  case stationAnswer l => exact ev (fun p => ((g p).sendAnswer l).captures) fun p m => m.sendAnswer l
  case backoffEnd n => exact ev (fun p => ((g p).endBackoff n).captures) fun p m => m.endBackoff n
  case travelSecond n => exact ev (fun p => ((g p).travelSecond n).captures) fun p m => m.travelSecond n
  case travelExpiry n => exact ev (fun p => ((g p).travelExpiry n).captures) fun p m => m.travelExpiry n
  case pollDue n => exact ev (fun p => ((g p).pollFallsDue n).captures) fun p m => m.pollFallsDue n
  case supervisionDue n => exact ev (fun p => ((g p).supervisionFallsDue n).captures) fun p m => m.supervisionFallsDue n
  case stationWindowDue l => exact ev (fun p => ((g p).windowFallsDue l).captures) fun p m => m.windowFallsDue l
  case stationWindowEnd l => exact ev (fun p => ((g p).endWindow l).captures) fun p m => m.endWindow l
  case lineStuck l t => exact ev (fun p => ((g p).lineStuck l t).captures) fun p m => m.lineStuck l t
  case lineRecovery l t => exact ev (fun p => ((g p).lineRecovery l t).captures) fun p m => m.lineRecovery l t
  case testFrameStart l => exact ev (fun p => ((g p).startTestFrame l).captures) fun p m => m.startTestFrame
  case localEchoCheck l back => exact ev (fun p => ((g p).checkLocalEcho l back).captures) fun p m => m.checkLocalEcho l _
  case testEcho l a r good =>
    exact ev (fun p => (((g p).frameSeen l).hearEcho l a r good).captures) fun p m => (m.frameSeen l).hearEcho l _ _ _
  case missingEcho l => exact ev (fun p => ((g p).missEcho l).captures) fun p m => m.missEcho l

/-- Settles O6: a step is a command's, each of which keeps ranges and agreement, or a millisecond. -/
theorem stepKeepsTheRanges : Obligations.StepKeepsTheRanges := by
  intro s t h
  rcases step_cases h with ⟨_, rfl⟩ | ⟨c, rest, _, h⟩
  · obtain ⟨inRange, motion⟩ := Part.Keeps.of_same (p := s.part) (q := s.idle.part) (fun r => ⟨r.requested, r.count, r.bank⟩)
      (fun _ => rfl) fun _ => rfl
    exact ⟨inRange, motion⟩
  · obtain ⟨inRange, motion⟩ := exec_keeps c { s with pending := rest } t h
    exact ⟨inRange, motion⟩

end Sys2Proof.Machine
end

section
/-! SUPPORT. What a grant notice and the review of a commit leave of a channel's record (R21, R99 to R101). -/

namespace Sys2Proof.Machine

/-! ## A channel whose grant is considered again -/

/-- Of the record at most the grant differs, and between IDLE and QUEUED the motion with its travel timer and its mark. -/
structure Channel.Regranted (c d : Channel) : Prop where
  cfg : d.cfg = c.cfg
  position : d.position = c.position
  report : d.report = c.report
  fault : d.fault = c.fault
  lastFault : d.lastFault = c.lastFault
  still : c.motion ≠ .idle → c.motion ≠ .queued → d = { c with governing := d.governing, granted := d.granted }
  pending : c.motion = .idle ∨ c.motion = .queued → d.motion = .idle ∨ d.motion = .queued
  supFrom : supervised c.motion = true → d.supFrom = c.supFrom
  supDue : supervised c.motion = true → d.supDue = c.supDue

/-- An IDLE or QUEUED channel has the motion that its tolerance asks for. -/
def Channel.Reviewed (c : Channel) : Prop :=
  c.motion = .idle ∨ c.motion = .queued → c.motion = if withinTolerance c c.granted = true then .idle else .queued

/-- The record of a QUEUED channel whose order falls away. -/
def Channel.dequeued (c : Channel) (now : Nat) : Channel :=
  ({ c with travel := none, shortMark := false } : Channel).enter now .idle

/-- The record after a grant notice (R99 to R101). -/
def Channel.noticed (c : Channel) (now : Nat) : Channel :=
  if c.motion = .queued ∧ withinTolerance c c.granted = true then c.dequeued now else c.tested now

/-- The record after the review of a commit (R21). -/
def Channel.reviewed (c : Channel) (now : Nat) : Channel :=
  if c.motion = .queued ∧ withinTolerance c c.granted = true then
    ({ c with travel := none } : Channel).enter now .idle
  else c.tested now

theorem withinTolerance_none (c : Channel) : withinTolerance c none = false := by
  unfold withinTolerance; cases c.position <;> rfl

section
variable {c d e : Channel}

theorem Channel.Regranted.refl (c : Channel) : c.Regranted c :=
  ⟨rfl, rfl, rfl, rfl, rfl, fun _ _ => rfl, id, fun _ => rfl, fun _ => rfl⟩

theorem Channel.Regranted.motion (h : c.Regranted d) (hi : c.motion ≠ .idle) (hq : c.motion ≠ .queued) : d.motion = c.motion := by
  rw [h.still hi hq]

theorem supervised_pending {m : Motion} (h : m = .idle ∨ m = .queued) : supervised m = true := by
  rcases h with rfl | rfl <;> rfl

theorem Channel.Regranted.supervised (h : c.Regranted d) (hs : supervised c.motion = true) : supervised d.motion = true := by
  by_cases pending : c.motion = .idle ∨ c.motion = .queued
  · exact supervised_pending (h.pending pending)
  · rw [h.motion (fun e => pending (.inl e)) (fun e => pending (.inr e))]
    exact hs

theorem Channel.Regranted.trans (h : c.Regranted d) (k : d.Regranted e) : c.Regranted e where
  cfg := k.cfg.trans h.cfg
  position := k.position.trans h.position
  report := k.report.trans h.report
  fault := k.fault.trans h.fault
  lastFault := k.lastFault.trans h.lastFault
  still hi hq := by
    have first := h.still hi hq
    have motion := h.motion hi hq
    have second := k.still (by rwa [motion]) (by rwa [motion])
    rw [first] at second
    exact second
  pending hp := k.pending (h.pending hp)
  supFrom hs := (k.supFrom (h.supervised hs)).trans (h.supFrom hs)
  supDue hs := (k.supDue (h.supervised hs)).trans (h.supDue hs)

/-- A grant alone. -/
theorem Channel.Regranted.regrant (c : Channel) (g : Source) (t : Option Nat) :
    c.Regranted { c with governing := g, granted := t } :=
  ⟨rfl, rfl, rfl, rfl, rfl, fun _ _ => rfl, id, fun _ => rfl, fun _ => rfl⟩

/-- An entry into IDLE or QUEUED from IDLE or QUEUED. -/
theorem Channel.Regranted.enter {m : Motion} (now : Nat) (t : Option Nat) (b : Bool)
    (hc : c.motion = .idle ∨ c.motion = .queued) (hm : m = .idle ∨ m = .queued) :
    c.Regranted (({ c with travel := t, shortMark := b } : Channel).enter now m) where
  cfg := rfl
  position := rfl
  report := rfl
  fault := rfl
  lastFault := rfl
  still hi hq := absurd hc (not_or.2 ⟨hi, hq⟩)
  pending _ := hm
  supFrom hs := by simp [Channel.enter, supervised_pending hm, hs]
  supDue hs := by simp [Channel.enter, supervised_pending hm, hs]

variable (now : Nat)

theorem Channel.Regranted.tested (c : Channel) : c.Regranted (c.tested now) := by
  unfold Channel.tested
  split
  next h => exact .enter now c.travel c.shortMark (.inl h.1) (.inr rfl)
  next => exact .refl c

theorem Channel.Regranted.noticed (c : Channel) : c.Regranted (c.noticed now) := by
  unfold Channel.noticed
  split
  next h => exact .enter now none false (.inr h.1) (.inl rfl)
  next => exact .tested now c

theorem Channel.Regranted.reviewed (c : Channel) : c.Regranted (c.reviewed now) := by
  unfold Channel.reviewed
  split
  next h => exact .enter now none c.shortMark (.inr h.1) (.inl rfl)
  next => exact .tested now c

/-- The test leaves a granted channel with the motion its tolerance asks for, unless it is QUEUED within tolerance. -/
theorem Channel.reviewed_tested (hg : c.granted ≠ none) (hq : ¬ (c.motion = .queued ∧ withinTolerance c c.granted = true)) :
    (c.tested now).Reviewed := by
  unfold Channel.tested
  split
  next h =>
    have out : withinTolerance (c.enter now .queued) (c.enter now .queued).granted = false := h.2.1
    rw [Channel.Reviewed, out]
    exact fun _ => rfl
  next h =>
    rintro (hm | hm)
    · rw [hm, if_pos (by by_contra out; exact h ⟨hm, by simpa using out, hg⟩)]
    · rw [hm, if_neg fun within => hq ⟨hm, within⟩]

theorem Channel.reviewed_noticed (hg : c.granted ≠ none) : (c.noticed now).Reviewed := by
  unfold Channel.noticed
  split
  next h =>
    have within : withinTolerance (c.dequeued now) (c.dequeued now).granted = true := h.2
    rw [Channel.Reviewed, within]
    exact fun _ => rfl
  next h => exact Channel.reviewed_tested now hg h

theorem Channel.reviewed_reviewed (hg : c.granted ≠ none) : (c.reviewed now).Reviewed := by
  unfold Channel.reviewed
  split
  next h =>
    have within : withinTolerance (({ c with travel := none } : Channel).enter now .idle)
      (({ c with travel := none } : Channel).enter now .idle).granted = true := h.2
    rw [Channel.Reviewed, within]
    exact fun _ => rfl
  next h => exact Channel.reviewed_tested now hg h

end

/-! ## The notice, the recomputation and the review of a channel -/

section
variable (p : Part) (n : ChannelId)

theorem Channel.tested_of_motion {c : Channel} (now : Nat) (h : c.motion ≠ .idle) : c.tested now = c :=
  if_neg fun k => h k.1

theorem Channel.noticed_of_motion {c : Channel} (now : Nat) (hi : c.motion ≠ .idle) (hq : c.motion ≠ .queued) :
    c.noticed now = c := by
  rw [Channel.noticed, if_neg fun k => hq k.1, Channel.tested_of_motion now hi]

theorem Part.notice_chan_self : (p.notice n).chan n = (p.chan n).noticed p.now := by
  cases hg : (p.chan n).granted with
  | none =>
    have within : ¬ withinTolerance (p.chan n) (p.chan n).granted = true := by rw [hg, withinTolerance_none]; decide
    rw [p.notice_of_ungranted n hg, Channel.noticed, if_neg fun k => within k.2, Channel.tested, if_neg fun k => k.2.2 hg]
  | some t =>
    have under (h : (p.chan n).motion = .ordering ∨ (p.chan n).motion = .moving) :
        (p.notice n).chan n = (p.chan n).noticed p.now := by
      rw [p.notice_of_underWay n h hg, p.supersede_chan n t n, Channel.noticed_of_motion] <;>
        rcases h with h | h <;> simp [h]
    have waits (h : (p.chan n).motion = .halting ∨ (p.chan n).motion = .faulted ∨ (p.chan n).motion = .offline ∨
        (p.chan n).motion = .unused) : (p.notice n).chan n = (p.chan n).noticed p.now := by
      rw [p.notice_of_waiting n h, Channel.noticed_of_motion] <;> rcases h with h | h | h | h <;> simp [h]
    cases hm : (p.chan n).motion with
    | idle => rw [p.notice_of_idle n hm, Part.testIdle_chan_tested, Channel.noticed, if_neg (by simp [hm])]
    | queued =>
      rw [p.notice_of_queued n hm hg, Channel.noticed, hg]
      by_cases within : withinTolerance (p.chan n) (some t) = true
      · rw [if_pos within, if_pos ⟨hm, within⟩, Part.setMotion_chan_self, Part.chan_modChan_self]; rfl
      · rw [if_neg within, if_neg fun k => within k.2, Channel.tested_of_motion _ (by simp [hm])]; rfl
    | ordering => exact under (.inl hm)
    | moving => exact under (.inr hm)
    | halting => exact waits (.inl hm)
    | faulted => exact waits (.inr (.inl hm))
    | offline => exact waits (.inr (.inr (.inl hm)))
    | unused => exact waits (.inr (.inr (.inr hm)))

theorem Part.recompute_chan_self :
    (p.recompute n).chan n =
      if ((p.chan n).governing, (p.chan n).granted) = p.governs n then p.chan n
      else ({ p.chan n with governing := (p.governs n).1, granted := (p.governs n).2 } : Channel).noticed p.now := by
  rw [Part.recompute_eq]
  split
  · rfl
  · rw [Part.notice_chan_self, Part.regrant_chan_self]; rfl

theorem Part.commitReview_chan_self : (p.commitReview n).chan n = (p.chan n).reviewed p.now := by
  unfold Part.commitReview Channel.reviewed
  dsimp only
  split
  next h => rw [Part.testIdle_chan_tested, if_neg (by simp [h])]
  next h =>
    split
    next within =>
      rw [if_pos ⟨h, within⟩, Part.setMotion_chan_self, Part.stopTravel, Part.chan_modChan_self]; rfl
    next within => rw [if_neg fun k => within k.2, Channel.tested_of_motion _ (by simp [h])]
  next hi hq => rw [if_neg fun k => hq k.1, Channel.tested_of_motion _ hi]

theorem Part.QueueWork.commitReview : p.QueueWork n (p.commitReview n) := by
  unfold Part.commitReview
  dsimp only
  split
  · exact (Part.QueueWork.refl p).testIdle
  · split
    · refine Part.QueueWork.setMotion ?_ _
      exact (Part.QueueWork.refl p).removeOrder.modChan _ fun _ => rfl
    · exact .refl p
  · exact .refl p

theorem Part.commitReview_onlyChan : p.OnlyChan n (p.commitReview n) := by
  unfold Part.commitReview
  dsimp only
  split
  · exact (Part.OnlyChan.refl p).testIdle
  · split
    · exact ((Part.OnlyChan.refl p).removeOrder.modChan _).setMotion _
    · exact .refl p
  · exact .refl p

theorem Part.commitReview_keepsGrants : p.KeepsGrants (p.commitReview n) := by
  unfold Part.commitReview
  dsimp only
  split
  · exact (Part.KeepsGrants.refl p).testIdle n
  · split
    · exact ((Part.KeepsGrants.refl p).removeOrder n |>.stopTravel n).setMotion n .idle
    · exact .refl p
  · exact .refl p

theorem Part.recompute_regranted : ((p.chan n)).Regranted ((p.recompute n).chan n) := by
  rw [Part.recompute_chan_self]
  split
  · exact .refl _
  · exact (Channel.Regranted.regrant _ _ _).trans (.noticed _ _)

/-- A recomputation keeps the motion that the tolerance asks for, where the governing order gives a target. -/
theorem Part.recompute_reviewed (hg : (p.governs n).2 ≠ none) (h : (p.chan n).Reviewed) : ((p.recompute n).chan n).Reviewed := by
  rw [Part.recompute_chan_self]
  split
  · exact h
  · exact Channel.reviewed_noticed _ hg

theorem governs_snd_ne_none (w : Weather) (z : Zone) {c : Channel} (h : c.cfg.cls ≠ .unused) : (governs w z c).2 ≠ none := by
  unfold governs
  rw [if_neg h]
  split
  · simp
  · split
    · simp
    · split <;> simp

end

end Sys2Proof.Machine
end

section
/-! SUPPORT. The recomputations and the reviews of a commit (R21, R24). -/

namespace Sys2Proof.Machine

/-- Clock, zones, loops, weather, globals and Command Unit are as they were. -/
structure Part.SameUnits (p q : Part) : Prop where
  now : q.now = p.now
  zones : q.zones = p.zones
  ga : q.ga = p.ga
  weather : q.weather = p.weather
  globals : q.globals = p.globals
  cmd : q.cmd = p.cmd

section
variable {p q r : Part} {n : ChannelId}

theorem Part.SameUnits.refl (p : Part) : p.SameUnits p := ⟨rfl, rfl, rfl, rfl, rfl, rfl⟩

theorem Part.SameUnits.trans (h : p.SameUnits q) (k : q.SameUnits r) : p.SameUnits r :=
  ⟨k.now.trans h.now, k.zones.trans h.zones, k.ga.trans h.ga, k.weather.trans h.weather, k.globals.trans h.globals,
    k.cmd.trans h.cmd⟩

theorem Part.SameUnits.of_keepsGrants (h : p.KeepsGrants q) (hn : q.now = p.now) : p.SameUnits q :=
  ⟨hn, h.zones, h.ga, h.weather, h.globals, h.cmd⟩

theorem Part.SameUnits.modChan (h : p.SameUnits q) (f : Channel → Channel) : p.SameUnits (q.modChan n f) :=
  h.trans ⟨rfl, rfl, rfl, rfl, rfl, rfl⟩
theorem Part.SameUnits.modLine (h : p.SameUnits q) (l : LineId) (f : Line → Line) : p.SameUnits (q.modLine l f) :=
  h.trans ⟨rfl, rfl, rfl, rfl, rfl, rfl⟩
theorem Part.SameUnits.record (h : p.SameUnits q) (b : BankId) (e : ErrorRecord) : p.SameUnits (q.record b e) :=
  h.trans ⟨rfl, rfl, rfl, rfl, rfl, rfl⟩

theorem Part.SameUnits.zone (h : p.SameUnits q) (z : ZoneId) : q.zone z = p.zone z := by
  rw [Part.zone, h.zones]; rfl

end

/-! ## Steps that consider grants again -/

/-- The channels' grants are considered again; besides them and the queues nothing differs. -/
structure Part.Reconsiders (p q : Part) : Prop where
  chan : ∀ n, (p.chan n).Regranted (q.chan n)
  banks : q.banks = p.banks
  units : p.SameUnits q

section
variable {p q r : Part} {n : ChannelId}

theorem Part.Reconsiders.refl (p : Part) : p.Reconsiders p := ⟨fun _ => .refl _, rfl, .refl p⟩

theorem Part.Reconsiders.trans (h : p.Reconsiders q) (k : q.Reconsiders r) : p.Reconsiders r :=
  ⟨fun n => (h.chan n).trans (k.chan n), k.banks.trans h.banks, h.units.trans k.units⟩

theorem Part.Reconsiders.of_onlyChan (only : p.OnlyChan n q) (self : (p.chan n).Regranted (q.chan n)) (work : p.QueueWork n q)
    (units : p.SameUnits q) : p.Reconsiders q where
  chan m := by
    by_cases e : m = n
    · exact e ▸ self
    · rw [only m e]; exact .refl _
  banks := work.banks
  units := units

theorem Part.QueueWork.of_recompute (p : Part) (n : ChannelId) : p.QueueWork n (p.recompute n) := (Part.QueueWork.refl p).recompute

theorem Part.Reconsiders.recompute (p : Part) (n : ChannelId) : p.Reconsiders (p.recompute n) :=
  have grants := p.recompute_onlyGrants n
  have work := Part.QueueWork.of_recompute p n
  .of_onlyChan (p.recompute_onlyChan n) (p.recompute_regranted n) work
    ⟨work.now, grants.zones, grants.ga, grants.weather, grants.globals, grants.cmd⟩

theorem Part.Reconsiders.recomputeAll (p : Part) : p.Reconsiders p.recomputeAll :=
  Part.forEach_inv (inv := p.Reconsiders) (fun n q _ h => h.trans (.recompute q n)) (.refl p)

theorem Part.Reconsiders.commitReview (p : Part) (n : ChannelId) : p.Reconsiders (p.commitReview n) := by
  have work := Part.QueueWork.commitReview p n
  refine .of_onlyChan (p.commitReview_onlyChan n) ?_ work (.of_keepsGrants (p.commitReview_keepsGrants n) work.now)
  rw [Part.commitReview_chan_self]
  exact .reviewed _ _

theorem Part.Reconsiders.commitReviews (p : Part) (ns : List ChannelId) :
    p.Reconsiders (p.forEach ns fun n q => q.commitReview n) :=
  Part.forEach_inv (inv := p.Reconsiders) (fun n q _ h => h.trans (.commitReview q n)) (.refl p)

/-- The grant still is the result of the governing order where nothing that the order reads differs. -/
theorem Part.Settled.congr (h : p.Settled n) (cfg : (q.chan n).cfg = (p.chan n).cfg)
    (requested : (q.chan n).requested = (p.chan n).requested) (freeze : (q.chan n).freeze = (p.chan n).freeze)
    (governing : (q.chan n).governing = (p.chan n).governing) (granted : (q.chan n).granted = (p.chan n).granted)
    (result : ∀ c : Channel, Machine.governs q.weather (q.zone c.cfg.zone) c = Machine.governs p.weather (p.zone c.cfg.zone) c) :
    q.Settled n := by
  unfold Part.Settled at *
  rw [result, governing, granted, h, cfg]
  exact (governs_congr _ _ cfg requested freeze granted).symm

theorem Part.Settled.keepsGrants (h : p.Settled n) (k : p.KeepsGrants q) : q.Settled n := by
  refine h.congr (k.cfg n) (k.captures.requested n) (k.freeze n) (k.governing n) (k.granted n) fun c => ?_
  rw [k.weather, Part.zone, k.zones]; rfl

theorem Part.Settled.commitReviews (h : p.Settled n) (ns : List ChannelId) :
    (p.forEach ns fun n q => q.commitReview n).Settled n :=
  h.keepsGrants ((Part.KeepsGrants.refl p).forEach ns _ fun n q => q.commitReview_keepsGrants n)

/-- A channel in use whose grant is settled has a target. -/
theorem Part.Settled.granted (h : p.Settled n) (used : (p.chan n).cfg.cls ≠ .unused) : (p.chan n).granted ≠ none := by
  have granted := congrArg Prod.snd h
  rw [show (p.chan n).granted = _ from granted]
  exact governs_snd_ne_none _ _ used

theorem Part.commitReviews_reviewed {ns : List ChannelId} (nd : ns.Nodup) (hn : n ∈ ns) (hg : (p.chan n).granted ≠ none) :
    ((p.forEach ns fun n q => q.commitReview n).chan n).Reviewed := by
  have chan := Part.forEach_chan (act := fun n q => q.commitReview n) (inv := fun q => q.now = p.now)
    (f := fun _ c => c.reviewed p.now) (p := p) nd
    (fun n q _ h => (Part.QueueWork.commitReview q n).now.trans h)
    (fun n q _ h => by rw [Part.commitReview_chan_self, h]) (fun n q => q.commitReview_onlyChan n) rfl n
  rw [chan, if_pos hn]
  exact Channel.reviewed_reviewed _ hg

theorem Part.recomputeAll_reviewed (used : (p.chan n).cfg.cls ≠ .unused) (h : (p.chan n).Reviewed) :
    (p.recomputeAll.chan n).Reviewed := by
  refine (Part.forEach_inv (inv := fun q => (q.chan n).cfg.cls ≠ .unused ∧ (q.chan n).Reviewed) (fun m q _ k => ?_) ⟨used, h⟩).2
  obtain ⟨used, h⟩ := k
  refine ⟨by rw [(q.recompute_onlyGrants m).cfg]; exact used, ?_⟩
  by_cases e : n = m
  · subst e; exact q.recompute_reviewed n (governs_snd_ne_none _ _ used) h
  · rw [q.recompute_onlyChan m n e]; exact h

end

end Sys2Proof.Machine
end

section
/-! SUPPORT. The channels that a commit unbinds, binds or keeps, and the expiries it brings (R21 to R23). -/

namespace Sys2Proof.Machine

/-! ## The record of a channel at a commit -/

/-- The record of a channel that takes its new configuration. -/
def Channel.committed (c : Channel) (cfg : ChannelConfig) (now : Nat) : Channel :=
  match commitCase c.cfg cfg with
  | .stillUnused | .kept => { c with cfg := cfg }
  | .toUnused => c.committedTo cfg now .unused
  | .fromUnused | .rebound => (c.committedTo cfg now .offline).supervisedAtOnce

/-- CHANNEL_OFFLINE of a channel bound elsewhere, unless it was OFFLINE. -/
def unbindingErrors (n : ChannelId) (c : Channel) (cfg : ChannelConfig) : List ErrorRecord :=
  if commitCase c.cfg cfg = .rebound ∧ c.motion ≠ .offline then [⟨.fault, .channelOffline, some (.channel n), none⟩] else []

/-- The record of a channel whose travel timer expires (R113). -/
def Channel.timedOut (c : Channel) (e now : Nat) : Channel :=
  if c.motion = .queued ∨ c.motion = .ordering then c.faultedWith now (.travelTimeout e)
  else if c.motion = .moving then c.halted now
  else c

/-- The record of a kept channel whose travel may have reached the new limit. -/
def Channel.limited (c : Channel) (now : Nat) : Channel :=
  match c.travel with
  | some e => if c.cfg.travelLimit ≤ e then c.timedOut e now else c
  | none => c

/-- CHANNEL_FAULTED of a kept channel with an order that has travelled to the new limit. -/
def limitError (n : ChannelId) (c : Channel) : Option ErrorRecord :=
  if c.motion = .queued ∨ c.motion = .ordering then
    c.travel.bind fun e => if c.cfg.travelLimit ≤ e then some (faultedRecord n c (.travelTimeout e)) else none
  else none

section
variable (c : Channel) {cfg : ChannelConfig} (now : Nat)

theorem Channel.committed_same (h : commitCase c.cfg cfg = .stillUnused ∨ commitCase c.cfg cfg = .kept) :
    c.committed cfg now = { c with cfg := cfg } := by
  unfold Channel.committed; rcases h with h | h <;> rw [h]

theorem Channel.committed_toUnused (h : commitCase c.cfg cfg = .toUnused) :
    c.committed cfg now = c.committedTo cfg now .unused := by
  unfold Channel.committed; rw [h]

theorem Channel.committed_offline (h : commitCase c.cfg cfg = .fromUnused ∨ commitCase c.cfg cfg = .rebound) :
    c.committed cfg now = { c.committedTo cfg now .offline with supDue := true } := by
  unfold Channel.committed; rcases h with h | h <;> rw [h] <;> rfl

theorem Channel.committed_cfg : (c.committed cfg now).cfg = cfg := by
  cases h : commitCase c.cfg cfg with
  | stillUnused => rw [c.committed_same now (.inl h)]
  | kept => rw [c.committed_same now (.inr h)]
  | toUnused => rw [c.committed_toUnused now h]; rfl
  | fromUnused => rw [c.committed_offline now (.inl h)]; rfl
  | rebound => rw [c.committed_offline now (.inr h)]; rfl

theorem Channel.timedOut_cfg (e : Nat) : (c.timedOut e now).cfg = c.cfg := by
  unfold Channel.timedOut; split; exacts [rfl, by split <;> rfl]

theorem Channel.limited_cfg : (c.limited now).cfg = c.cfg := by
  unfold Channel.limited
  split
  · split; exacts [c.timedOut_cfg now _, rfl]
  · rfl

end

/-! ## The channels of a commit -/

section
variable (p : Part) (n : ChannelId) (cfg : ChannelConfig)

/-- R22: the channel leaves its line and becomes UNUSED. -/
def Part.unuse (p : Part) (n : ChannelId) (cfg : ChannelConfig) : Part :=
  (((p.leaveLine n).modChan n (fun c => c.forget)).setConfig n cfg).setMotion n .unused

theorem Part.commitChannel_same {p : Part} {n : ChannelId} {cfg : ChannelConfig}
    (h : commitCase (p.chan n).cfg cfg = .stillUnused ∨ commitCase (p.chan n).cfg cfg = .kept) :
    p.commitChannel n cfg = p.setConfig n cfg := by
  unfold Part.commitChannel; rcases h with h | h <;> simp only [h]

theorem Part.commitChannel_toUnused {p : Part} {n : ChannelId} {cfg : ChannelConfig}
    (h : commitCase (p.chan n).cfg cfg = .toUnused) : p.commitChannel n cfg = p.unuse n cfg := by
  unfold Part.commitChannel; simp only [h]; rfl

theorem Part.commitChannel_fromUnused {p : Part} {n : ChannelId} {cfg : ChannelConfig}
    (h : commitCase (p.chan n).cfg cfg = .fromUnused) : p.commitChannel n cfg = p.commitOffline n cfg := by
  unfold Part.commitChannel; simp only [h]

theorem Part.commitChannel_rebound {p : Part} {n : ChannelId} {cfg : ChannelConfig}
    (h : commitCase (p.chan n).cfg cfg = .rebound) :
    p.commitChannel n cfg =
      if (p.chan n).motion = .offline then (p.leaveLine n).commitOffline n cfg
      else ((p.leaveLine n).commitOffline n cfg).record .channel ⟨.fault, .channelOffline, some (.channel n), none⟩ := by
  unfold Part.commitChannel; simp only [h]

theorem Part.unuse_chan_self : (p.unuse n cfg).chan n = (p.chan n).committedTo cfg p.now .unused := by
  rw [Part.unuse, Part.setMotion_chan_self, Part.setConfig_chan_self, Part.chan_modChan_self, Part.leaveLine_chan]
  show Channel.enter _ (p.leaveLine n).now _ = _
  rw [Part.leaveLine_now]
  rfl

theorem Part.leaveLine_commitOffline_chan_self :
    ((p.leaveLine n).commitOffline n cfg).chan n = { (p.chan n).committedTo cfg p.now .offline with supDue := true } := by
  rw [Part.commitOffline_chan_self, Part.leaveLine_chan, Part.leaveLine_now]; rfl

theorem Part.commitChannel_chan_self : (p.commitChannel n cfg).chan n = (p.chan n).committed cfg p.now := by
  cases h : commitCase (p.chan n).cfg cfg with
  | stillUnused =>
    rw [Part.commitChannel_same (.inl h), Part.setConfig_chan_self, Channel.committed_same _ _ (.inl h)]
  | kept => rw [Part.commitChannel_same (.inr h), Part.setConfig_chan_self, Channel.committed_same _ _ (.inr h)]
  | toUnused => rw [Part.commitChannel_toUnused h, Part.unuse_chan_self, Channel.committed_toUnused _ _ h]
  | fromUnused =>
    rw [Part.commitChannel_fromUnused h, Part.commitOffline_chan_self, Channel.committed_offline _ _ (.inl h)]; rfl
  | rebound =>
    have chan := p.leaveLine_commitOffline_chan_self n cfg
    rw [Part.commitChannel_rebound h, Channel.committed_offline _ _ (.inr h)]
    split <;> exact chan

theorem Part.leaveLine_onlyChan : p.OnlyChan n (p.leaveLine n) := fun m _ => p.leaveLine_chan n m

theorem Part.commitChannel_onlyChan : p.OnlyChan n (p.commitChannel n cfg) := by
  have left := (p.leaveLine_onlyChan n).trans ((p.leaveLine n).commitOffline_onlyChan n cfg)
  cases h : commitCase (p.chan n).cfg cfg with
  | stillUnused => rw [Part.commitChannel_same (.inl h)]; exact (Part.OnlyChan.refl p).modChan _
  | kept => rw [Part.commitChannel_same (.inr h)]; exact (Part.OnlyChan.refl p).modChan _
  | toUnused =>
    rw [Part.commitChannel_toUnused h]
    exact ((p.leaveLine_onlyChan n).modChan _ |>.modChan _).setMotion _
  | fromUnused => rw [Part.commitChannel_fromUnused h]; exact p.commitOffline_onlyChan n cfg
  | rebound => rw [Part.commitChannel_rebound h]; split <;> exact left

theorem Part.bank_of_noErrors {es : List ErrorRecord} (b : BankId) (h : es = []) :
    p.bank b = if b = .channel then (p.bank .channel).takeAll es else p.bank b := by
  subst h
  split
  next e => rw [e]; rfl
  next => rfl

theorem unbindingErrors_of_ne {c : Channel} (h : commitCase c.cfg cfg ≠ .rebound) : unbindingErrors n c cfg = [] :=
  if_neg fun k => h k.1
theorem unbindingErrors_of_offline {c : Channel} (h : c.motion = .offline) : unbindingErrors n c cfg = [] :=
  if_neg fun k => k.2 h
theorem unbindingErrors_of_rebound {c : Channel} (h : commitCase c.cfg cfg = .rebound) (hm : c.motion ≠ .offline) :
    unbindingErrors n c cfg = [⟨.fault, .channelOffline, some (.channel n), none⟩] :=
  if_pos ⟨h, hm⟩

/-- R116: a channel bound elsewhere, that was not OFFLINE, is recorded. -/
theorem Part.commitChannel_bank (b : BankId) :
    (p.commitChannel n cfg).bank b =
      if b = .channel then (p.bank .channel).takeAll (unbindingErrors n (p.chan n) cfg) else p.bank b := by
  have left : ((p.leaveLine n).commitOffline n cfg).bank = p.bank := by
    funext k; rw [Part.commitOffline_bank, Part.leaveLine_bank]
  have quiet (hc : commitCase (p.chan n).cfg cfg ≠ .rebound) (hb : (p.commitChannel n cfg).bank b = p.bank b) :=
    hb.trans (Part.bank_of_noErrors p b (unbindingErrors_of_ne n cfg hc))
  cases h : commitCase (p.chan n).cfg cfg with
  | stillUnused => exact quiet (by simp [h]) (by rw [Part.commitChannel_same (.inl h)]; rfl)
  | kept => exact quiet (by simp [h]) (by rw [Part.commitChannel_same (.inr h)]; rfl)
  | toUnused => exact quiet (by simp [h]) (by rw [Part.commitChannel_toUnused h]; exact p.leaveLine_bank n b)
  | fromUnused => exact quiet (by simp [h]) (by rw [Part.commitChannel_fromUnused h]; exact p.commitOffline_bank n cfg b)
  | rebound =>
    rw [Part.commitChannel_rebound h]
    by_cases hm : (p.chan n).motion = .offline
    · rw [if_pos hm, left]
      exact Part.bank_of_noErrors p b (unbindingErrors_of_offline n cfg hm)
    · rw [if_neg hm, Part.bank_record, left, unbindingErrors_of_rebound n cfg h hm]
      rfl

theorem Part.SameUnits.leaveLine : p.SameUnits (p.leaveLine n) := by
  have abandoned : p.SameUnits (p.abandonFor (p.lineOf n) n) :=
    .of_keepsGrants ((Part.KeepsGrants.refl p).abandonFor _ _) (p.abandonFor_now _ n)
  rw [Part.leaveLine_eq]
  exact (abandoned.modLine _ _).modLine _ _

theorem Part.SameUnits.commitOffline : p.SameUnits (p.commitOffline n cfg) := by
  have entered : p.SameUnits (((p.modChan n (fun c => c.forget)).setConfig n cfg).setMotion n .offline) :=
    (((Part.SameUnits.refl p).modChan _).modChan _).modChan _
  exact entered.trans (.of_keepsGrants ((Part.KeepsGrants.refl _).dueAtOnce n) (Part.dueAtOnce_rest _ n).2.2)

theorem Part.SameUnits.commitChannel : p.SameUnits (p.commitChannel n cfg) := by
  have left := (Part.SameUnits.leaveLine p n).trans (.commitOffline (p.leaveLine n) n cfg)
  cases h : commitCase (p.chan n).cfg cfg with
  | stillUnused => rw [Part.commitChannel_same (.inl h)]; exact (Part.SameUnits.refl p).modChan _
  | kept => rw [Part.commitChannel_same (.inr h)]; exact (Part.SameUnits.refl p).modChan _
  | toUnused =>
    rw [Part.commitChannel_toUnused h]
    exact (((Part.SameUnits.leaveLine p n).modChan (n := n) (fun c => c.forget)).modChan (n := n)
      (fun c => { c with cfg := cfg })).modChan (n := n) (fun c => c.enter (p.leaveLine n).now .unused)
  | fromUnused => rw [Part.commitChannel_fromUnused h]; exact .commitOffline p n cfg
  | rebound => rw [Part.commitChannel_rebound h]; split; exacts [left, left.record _ _]

/-! ## The expiries -/

theorem Part.commitExpiry_chan_self : (p.commitExpiry n).chan n = (p.chan n).limited p.now := by
  unfold Part.commitExpiry Channel.limited
  cases (p.chan n).travel with
  | none => rfl
  | some e => dsimp only; split; exacts [p.expireTravel_chan_self n e, rfl]

theorem Part.commitExpiry_onlyChan : p.OnlyChan n (p.commitExpiry n) := by
  unfold Part.commitExpiry
  split
  · split; exacts [p.expireTravel_onlyChan n _, .refl p]
  · exact .refl p

theorem Part.commitExpiry_bank (b : BankId) :
    (p.commitExpiry n).bank b =
      if b = .channel then (p.bank .channel).takeAll (limitError n (p.chan n)).toList else p.bank b := by
  have same (h : limitError n (p.chan n) = none) := Part.bank_of_noErrors p b (congrArg Option.toList h)
  unfold Part.commitExpiry
  split
  next e he =>
    split
    next hl =>
      rw [Part.expireTravel_bank]
      by_cases hm : (p.chan n).motion = .queued ∨ (p.chan n).motion = .ordering
      · have error : limitError n (p.chan n) = some (faultedRecord n (p.chan n) (.travelTimeout e)) := by
          rw [limitError, if_pos hm, he, Option.bind_some, if_pos hl]
        rw [error]
        simp only [hm, and_true]
        rfl
      · rw [if_neg fun k => hm k.2]
        exact same (if_neg hm)
    next hl => exact same (by rw [limitError, he, Option.bind_some, if_neg hl, ite_self])
  next he => exact same (by rw [limitError, he, Option.bind_none, ite_self])

theorem Part.SameUnits.commitExpiry : p.SameUnits (p.commitExpiry n) := by
  unfold Part.commitExpiry
  split
  · split
    · exact .of_keepsGrants ((Part.KeepsGrants.refl p).expireTravel n _) (p.expireTravel_now n _)
    · exact .refl p
  · exact .refl p

end

end Sys2Proof.Machine
end

section
/-! SUPPORT. The stages of a commit (R21 to R24, R173): channels, banks and the other units. -/

namespace Sys2Proof.Machine

/-! ## The expiries of a list of channels -/

section
variable (p : Part) (ns : List ChannelId)

/-- The kept channels against their new travel limits. -/
def Part.limitAll : Part := p.forEach ns fun n q => q.commitExpiry n

theorem Part.SameUnits.limitAll : p.SameUnits (p.limitAll ns) :=
  Part.forEach_inv (inv := p.SameUnits) (fun n q _ h => h.trans (.commitExpiry q n)) (.refl p)

variable {ns}

theorem Part.limitAll_chan (nd : ns.Nodup) (n : ChannelId) :
    (p.limitAll ns).chan n = if n ∈ ns then (p.chan n).limited p.now else p.chan n :=
  Part.forEach_chan (inv := fun q => q.now = p.now) (act := fun n q => q.commitExpiry n)
    (f := fun _ c => c.limited p.now) nd (fun n q _ h => (Part.SameUnits.commitExpiry q n).now.trans h)
    (fun n q _ h => by rw [Part.commitExpiry_chan_self, h]) (fun n q => q.commitExpiry_onlyChan n) rfl n

theorem Part.limitAll_bank (nd : ns.Nodup) :
    (p.limitAll ns).bank .channel = (p.bank .channel).takeAll (ns.filterMap fun n => limitError n (p.chan n)) := by
  rw [List.filterMap_eq_flatMap_toList]
  exact Part.forEach_bank (inv := fun _ => True) (act := fun n q => q.commitExpiry n)
    (es := fun n c => (limitError n c).toList) nd (fun _ _ _ _ => trivial)
    (fun n q _ _ => by rw [Part.commitExpiry_bank, if_pos rfl]) (fun n q => q.commitExpiry_onlyChan n) trivial

theorem Part.limitAll_bank_of_ne {b : BankId} (hb : b ≠ .channel) : (p.limitAll ns).bank b = p.bank b :=
  Part.forEach_inv (inv := fun q => q.bank b = p.bank b)
    (fun n q _ h => by rw [Part.commitExpiry_bank, if_neg hb, h]) rfl

end

/-! ## The stages of the commit -/

section
variable (p : Part)

/-- The globals of the pending copy. -/
def Part.takeGlobals (g : GlobalConfig) : Part := { p with globals := g }

@[simp] theorem Part.takeGlobals_chan (g : GlobalConfig) (n : ChannelId) : (p.takeGlobals g).chan n = p.chan n := rfl
@[simp] theorem Part.takeGlobals_bank (g : GlobalConfig) (b : BankId) : (p.takeGlobals g).bank b = p.bank b := rfl
@[simp] theorem Part.takeGlobals_line (g : GlobalConfig) (l : LineId) : (p.takeGlobals g).line l = p.line l := rfl

@[simp] theorem Part.takeGlobals_now (g : GlobalConfig) : (p.takeGlobals g).now = p.now := rfl

theorem Part.SameUnits.takeGlobals {p q : Part} (h : p.SameUnits q) (g : GlobalConfig) :
    (p.takeGlobals g).SameUnits (q.takeGlobals g) := ⟨h.now, h.zones, h.ga, h.weather, rfl, h.cmd⟩

/-- The channels that a commit keeps. -/
def Part.keptChannels : List ChannelId :=
  allChannels.filter fun n => decide (commitCase (p.chan n).cfg (pendingChannel p.cmd.pending n) = .kept)

/-- The channels with their new configurations. -/
def Part.committedChannels : Part := p.forEach allChannels fun n q => q.commitChannel n (pendingChannel p.cmd.pending n)

/-- The new globals, and the kept channels against their new travel limits. -/
def Part.limitedChannels : Part := (p.committedChannels.takeGlobals (pendingGlobals p.cmd.pending)).limitAll p.keptChannels

/-- All grants, and the kept channels against their tolerances. -/
def Part.reviewedChannels : Part := p.limitedChannels.recomputeAll.forEach p.keptChannels fun n q => q.commitReview n

/-- The loops and the weather after the channels. -/
def Part.committedUnits : Part :=
  ((p.reviewedChannels.commitLoops p.cmd.pending).commitWind p.globals).commitRain p.globals

/-- All of the commit but the count of its generation. -/
def Part.committed : Part := p.committedUnits.commitSupervision p.globals

theorem Part.commit_eq :
    p.commit = p.committed.setCmd { p.committed.cmd with generation := p.committed.cmd.generation + 1 } := rfl

theorem Part.mem_keptChannels (n : ChannelId) :
    n ∈ p.keptChannels ↔ commitCase (p.chan n).cfg (pendingChannel p.cmd.pending n) = .kept := by
  rw [Part.keptChannels, List.mem_filter, and_iff_right (mem_allChannels n), decide_eq_true_iff]

theorem Part.keptChannels_nodup : p.keptChannels.Nodup := allChannels_nodup.filter _

theorem Part.SameUnits.committedChannels : p.SameUnits p.committedChannels :=
  Part.forEach_inv (inv := p.SameUnits) (fun n q _ h => h.trans (.commitChannel q n _)) (.refl p)

theorem Part.committedChannels_chan (n : ChannelId) :
    p.committedChannels.chan n = (p.chan n).committed (pendingChannel p.cmd.pending n) p.now := by
  refine (Part.forEach_chan (inv := p.SameUnits) (f := fun n c => c.committed (pendingChannel p.cmd.pending n) p.now)
    allChannels_nodup (fun n q _ h => h.trans (.commitChannel q n _)) (fun n q _ h => ?_)
    (fun n q => q.commitChannel_onlyChan n _) (.refl p) n).trans (if_pos (mem_allChannels n))
  rw [Part.commitChannel_chan_self, h.now]

theorem Part.committedChannels_bank :
    p.committedChannels.bank .channel = (p.bank .channel).takeAll
      (allChannels.flatMap fun n => unbindingErrors n (p.chan n) (pendingChannel p.cmd.pending n)) :=
  Part.forEach_bank (inv := fun _ => True) (es := fun n c => unbindingErrors n c (pendingChannel p.cmd.pending n))
    allChannels_nodup (fun _ _ _ _ => trivial) (fun n q _ _ => by rw [Part.commitChannel_bank, if_pos rfl])
    (fun n q => q.commitChannel_onlyChan n _) trivial

theorem Part.committedChannels_bank_of_ne {b : BankId} (hb : b ≠ .channel) : p.committedChannels.bank b = p.bank b :=
  Part.forEach_inv (inv := fun q => q.bank b = p.bank b)
    (fun n q _ h => by rw [Part.commitChannel_bank, if_neg hb, h]) rfl

/-- The new globals stand, and the other units are as they were. -/
theorem Part.SameUnits.limitedChannels : (p.takeGlobals (pendingGlobals p.cmd.pending)).SameUnits p.limitedChannels :=
  ((Part.SameUnits.committedChannels p).takeGlobals _).trans (.limitAll _ _)

theorem Part.limitedChannels_chan (n : ChannelId) :
    p.limitedChannels.chan n =
      if n ∈ p.keptChannels then ((p.chan n).committed (pendingChannel p.cmd.pending n) p.now).limited p.now
      else (p.chan n).committed (pendingChannel p.cmd.pending n) p.now := by
  have now : (p.committedChannels.takeGlobals (pendingGlobals p.cmd.pending)).now = p.now := by
    rw [Part.takeGlobals_now, (Part.SameUnits.committedChannels p).now]
  rw [Part.limitedChannels, Part.limitAll_chan _ p.keptChannels_nodup, Part.takeGlobals_chan, Part.committedChannels_chan, now]

theorem Part.limitedChannels_bank :
    p.limitedChannels.bank .channel =
      ((p.bank .channel).takeAll
        (allChannels.flatMap fun n => unbindingErrors n (p.chan n) (pendingChannel p.cmd.pending n))).takeAll
      (p.keptChannels.filterMap fun n =>
        limitError n ((p.chan n).committed (pendingChannel p.cmd.pending n) p.now)) := by
  have chan : (fun n => limitError n ((p.committedChannels.takeGlobals (pendingGlobals p.cmd.pending)).chan n)) =
      fun n => limitError n ((p.chan n).committed (pendingChannel p.cmd.pending n) p.now) := by
    funext n; rw [Part.takeGlobals_chan, Part.committedChannels_chan]
  rw [Part.limitedChannels, Part.limitAll_bank _ p.keptChannels_nodup, Part.takeGlobals_bank, Part.committedChannels_bank, chan]

theorem Part.limitedChannels_bank_of_ne {b : BankId} (hb : b ≠ .channel) : p.limitedChannels.bank b = p.bank b := by
  rw [Part.limitedChannels, Part.limitAll_bank_of_ne _ hb, Part.takeGlobals_bank, Part.committedChannels_bank_of_ne _ hb]

/-! ## The reviews -/

theorem Part.Reconsiders.reviewedChannels : p.limitedChannels.Reconsiders p.reviewedChannels :=
  (Part.Reconsiders.recomputeAll _).trans (.commitReviews _ _)

theorem Part.reviewedChannels_settled (n : ChannelId) : p.reviewedChannels.Settled n :=
  (Part.recomputeAll_settled _ n).commitReviews _

theorem Part.reviewedChannels_reviewed {n : ChannelId} (hn : n ∈ p.keptChannels) : (p.reviewedChannels.chan n).Reviewed := by
  have case := (p.mem_keptChannels n).mp hn
  have used := (commitCase_eq_kept.mp case).2.1
  refine Part.commitReviews_reviewed p.keptChannels_nodup hn ((Part.recomputeAll_settled _ n).granted ?_)
  rw [((Part.Reconsiders.recomputeAll _).chan n).cfg, Part.limitedChannels_chan, if_pos hn, Channel.limited_cfg, Channel.committed_cfg]
  exact used

end

end Sys2Proof.Machine
end

section
/-! SUPPORT. The loops, the weather and the supervision at a commit (R46, R80, R81, R132). -/

namespace Sys2Proof.Machine

/-! ## Zones and loops -/

/-- A zone with its new configuration. -/
def Zone.configured (x : Zone) (words : ConfigWords) (z : ZoneId) (now : Nat) : Zone :=
  { x with loop := x.loop.configure (pendingLoop words (.zone z)) now, smokeDeadline := pendingSmokeDeadline words z }

/-- What a change of zones leaves. -/
structure Part.ZonesOnly (p q : Part) : Prop where
  chans : q.chans = p.chans
  lines : q.lines = p.lines
  banks : q.banks = p.banks
  now : q.now = p.now
  weather : q.weather = p.weather
  globals : q.globals = p.globals
  cmd : q.cmd = p.cmd

section
variable {p q r : Part}

theorem Part.ZonesOnly.refl (p : Part) : p.ZonesOnly p := ⟨rfl, rfl, rfl, rfl, rfl, rfl, rfl⟩
theorem Part.ZonesOnly.trans (h : p.ZonesOnly q) (k : q.ZonesOnly r) : p.ZonesOnly r :=
  ⟨k.chans.trans h.chans, k.lines.trans h.lines, k.banks.trans h.banks, k.now.trans h.now, k.weather.trans h.weather,
    k.globals.trans h.globals, k.cmd.trans h.cmd⟩
theorem Part.ZonesOnly.modZone (p : Part) (z : ZoneId) (f : Zone → Zone) : p.ZonesOnly (p.modZone z f) :=
  ⟨rfl, rfl, rfl, rfl, rfl, rfl, rfl⟩
theorem Part.ZonesOnly.setGa (p : Part) (g : FireLoop) : p.ZonesOnly (p.setGa g) :=
  ⟨rfl, rfl, rfl, rfl, rfl, rfl, rfl⟩

theorem Part.ZonesOnly.chan (h : p.ZonesOnly q) (n : ChannelId) : q.chan n = p.chan n := by rw [Part.chan, h.chans]; rfl
theorem Part.ZonesOnly.line (h : p.ZonesOnly q) (l : LineId) : q.line l = p.line l := by rw [Part.line, h.lines]; rfl

variable (p) (words : ConfigWords)

/-- The zones of a list take their new configurations. -/
def Part.configureZones (p : Part) (words : ConfigWords) (zs : List ZoneId) : Part :=
  zs.foldl (fun q z => q.modZone z fun x => x.configured words z q.now) p

theorem Part.configureZones_only (zs : List ZoneId) : p.ZonesOnly (p.configureZones words zs) :=
  foldl_keeps Part.ZonesOnly.refl Part.ZonesOnly.trans (fun q z => .modZone q z _) zs p

theorem Part.configureZones_ga (zs : List ZoneId) : (p.configureZones words zs).ga = p.ga :=
  foldl_keeps (R := fun a b : Part => b.ga = a.ga) (fun _ => rfl) (fun h k => k.trans h)
    (f := fun q z => q.modZone z fun x => x.configured words z q.now) (fun _ _ => rfl) zs p

theorem Part.configureZones_zone {zs : List ZoneId} (nd : zs.Nodup) (y : ZoneId) :
    (p.configureZones words zs).zone y = if y ∈ zs then (p.zone y).configured words y p.now else p.zone y := by
  induction zs generalizing p with
  | nil => rfl
  | cons z zs ih =>
    obtain ⟨fresh, nd⟩ := List.nodup_cons.1 nd
    have rest := ih (p.modZone z fun x => x.configured words z p.now) nd
    refine rest.trans ?_
    rw [Part.zone_modZone]
    by_cases e : y = z
    · subst e; rw [if_neg fresh, if_pos rfl, if_pos (.head zs)]
    · rw [if_neg e]; simp only [List.mem_cons, e, false_or]; rfl

theorem Part.commitLoops_eq :
    p.commitLoops words =
      (p.configureZones words allZones).setGa
        ((p.configureZones words allZones).ga.configure (pendingLoop words .ga) (p.configureZones words allZones).now) := rfl

theorem Part.commitLoops_only : p.ZonesOnly (p.commitLoops words) :=
  (p.configureZones_only words allZones).trans (.setGa _ _)

theorem Part.commitLoops_zone (z : ZoneId) : (p.commitLoops words).zone z = (p.zone z).configured words z p.now := by
  rw [Part.commitLoops_eq, Part.setGa_zone, p.configureZones_zone words (zs := allZones) (List.nodup_finRange 6)]
  exact if_pos (List.mem_finRange z)

theorem Part.commitLoops_ga : (p.commitLoops words).ga = p.ga.configure (pendingLoop words .ga) p.now := by
  rw [Part.commitLoops_eq, Part.setGa_ga, Part.configureZones_ga, (p.configureZones_only words allZones).now]

end

section
variable (g : FireLoop) (cfg : LoopConfig) (now : Nat)

theorem FireLoop.configure_of_eq (h : g.cfg = cfg) : g.configure cfg now = g := if_pos h
theorem FireLoop.configure_of_ne (h : g.cfg ≠ cfg) : g.configure cfg now =
    { g with
      cfg := cfg
      timer := if alarmCondition cfg g.state ∧ (g.timer.isSome ∨ g.inAlarm = false) then some (cfg.mode, now) else none } :=
  if_neg h

theorem FireLoop.configure_cfg : (g.configure cfg now).cfg = cfg := by
  unfold FireLoop.configure; split; exacts [‹_›, rfl]
theorem FireLoop.configure_state : (g.configure cfg now).state = g.state := by
  unfold FireLoop.configure; split <;> rfl

theorem alarmCondition_iff (s : LoopState) :
    alarmCondition cfg s = true ↔ s = .alarm ∨ ((s = .openCircuit ∨ s = .shortCircuit) ∧ cfg.faultAsAlarm = true) := by
  cases s <;> simp [alarmCondition]

end

/-! ## Weather (R80, R81) -/

/-- A changed wind window starts anew. -/
def Weather.rewound (w : Weather) (old new : GlobalConfig) (now : Nat) : Weather :=
  if old.windWindow = new.windWindow then w else { w with pulses := 0, windowStart := now }

/-- The rain timer has reached its changed delay. -/
def Weather.rainReached (w : Weather) (old new : GlobalConfig) (now : Nat) : Bool :=
  decide (w.rainState = .wetting ∨ w.rainState = .drying) && w.rainFrom.any fun t =>
    decide (rainDelay new w.rainState ≠ rainDelay old w.rainState ∧ t + rainDelay new w.rainState * second ≤ now)

/-- The rain condition after its timer has reached the delay. -/
def Weather.rainEnded (w : Weather) : Weather :=
  { w with rainState := if w.rainState = .wetting then .wet else .dry, rainFrom := none }

section
variable (p : Part) (old : GlobalConfig)

theorem Part.commitWind_eq : p.commitWind old = p ∨ p.commitWind old = p.setWeather (p.weather.rewound old p.globals p.now) := by
  unfold Part.commitWind
  by_cases h : old.windWindow = p.globals.windWindow
  · exact .inl (if_pos h)
  · rw [if_neg h, Weather.rewound, if_neg h]; exact .inr rfl

theorem Part.commitWind_weather : (p.commitWind old).weather = p.weather.rewound old p.globals p.now := by
  unfold Part.commitWind Weather.rewound; split <;> rfl

/-- R78: the rain condition changes, and all grants are considered again. -/
theorem Part.expireRain_eq :
    p.expireRain =
      if p.weather.rainState = .wetting ∨ p.weather.rainState = .drying then
        (p.setWeather p.weather.rainEnded).recomputeAll
      else p := by
  unfold Part.expireRain Weather.rainEnded
  cases p.weather.rainState <;> rfl

theorem Part.commitRain_eq :
    p.commitRain old =
      if p.weather.rainReached old p.globals p.now = true then (p.setWeather p.weather.rainEnded).recomputeAll else p := by
  unfold Part.commitRain Weather.rainReached
  cases p.weather.rainFrom with
  | none => rw [Option.any_none, Bool.and_false, if_neg Bool.false_ne_true]
  | some t =>
    dsimp only
    rw [Part.expireRain_eq]
    by_cases hs : p.weather.rainState = .wetting ∨ p.weather.rainState = .drying
    · simp only [hs, decide_true, Bool.true_and, Option.any_some, decide_eq_true_eq, if_true]
    · simp only [hs, decide_false, Bool.false_and, if_false, ite_self, Bool.false_eq_true]

theorem Part.commitRain_weather :
    (p.commitRain old).weather =
      if p.weather.rainReached old p.globals p.now = true then p.weather.rainEnded else p.weather := by
  rw [Part.commitRain_eq]
  split
  · exact (Part.Reconsiders.recomputeAll _).units.weather
  · rfl

end

/-! ## Supervision (R132) -/

/-- The record of a channel whose supervision timer may have reached a changed interval. -/
def Channel.resupervised (c : Channel) (interval now : Nat) : Channel :=
  if c.supFrom.any (fun t => decide (t + interval * second ≤ now)) = true then c.supervisedAtOnce else c

/-- The supervision of a channel that has reached the interval is due. -/
def Part.resupervise (p : Part) (n : ChannelId) : Part :=
  if (p.chan n).supFrom.any (fun t => decide (t + p.globals.supervisionInterval * second ≤ p.now)) = true then p.dueAtOnce n
  else p

section
variable (p : Part) (old : GlobalConfig)

theorem Part.commitSupervision_eq :
    p.commitSupervision old =
      if old.supervisionInterval = p.globals.supervisionInterval then p else p.forEach allChannels fun n q => q.resupervise n := by
  have step : (fun n q => Part.resupervise q n) = fun (n : ChannelId) (q : Part) =>
      match (q.chan n).supFrom with
      | some t => if t + q.globals.supervisionInterval * second ≤ q.now then q.dueAtOnce n else q
      | none => q := by
    funext n q
    unfold Part.resupervise
    cases (q.chan n).supFrom with
    | none => rfl
    | some t => simp only [Option.any_some, decide_eq_true_eq]
  rw [step]
  rfl

variable (n : ChannelId)

theorem Part.resupervise_chan_self :
    (p.resupervise n).chan n = (p.chan n).resupervised p.globals.supervisionInterval p.now := by
  unfold Part.resupervise Channel.resupervised
  split
  · exact p.dueAtOnce_chan_self n
  · rfl

theorem Part.resupervise_onlyChan : p.OnlyChan n (p.resupervise n) := by
  unfold Part.resupervise; split; exacts [p.dueAtOnce_onlyChan n, .refl p]

theorem Part.SameUnits.dueAtOnce : p.SameUnits (p.dueAtOnce n) :=
  .of_keepsGrants ((Part.KeepsGrants.refl p).dueAtOnce n) (p.dueAtOnce_rest n).2.2

theorem Part.SameUnits.resupervise : p.SameUnits (p.resupervise n) := by
  unfold Part.resupervise; split; exacts [.dueAtOnce p n, .refl p]

theorem Part.resupervise_rest : (p.resupervise n).lines = p.lines ∧ (p.resupervise n).banks = p.banks := by
  unfold Part.resupervise
  obtain ⟨lines, banks, -⟩ := p.dueAtOnce_rest n
  split; exacts [⟨lines, banks⟩, ⟨rfl, rfl⟩]

theorem Part.commitSupervision_chan :
    (p.commitSupervision old).chan n =
      if old.supervisionInterval = p.globals.supervisionInterval then p.chan n
      else (p.chan n).resupervised p.globals.supervisionInterval p.now := by
  rw [Part.commitSupervision_eq]
  split
  · rfl
  · refine (Part.forEach_chan (act := fun n q => q.resupervise n) (inv := p.SameUnits)
      (f := fun _ c => c.resupervised p.globals.supervisionInterval p.now) allChannels_nodup
      (fun n q _ h => h.trans (.resupervise q n)) (fun n q _ h => ?_) (fun n q => q.resupervise_onlyChan n) (.refl p) n).trans
      (if_pos (mem_allChannels n))
    rw [Part.resupervise_chan_self, h.globals, h.now]

theorem Part.SameUnits.commitSupervision : p.SameUnits (p.commitSupervision old) := by
  rw [Part.commitSupervision_eq]
  split
  · exact .refl p
  · exact Part.forEach_inv (inv := p.SameUnits) (fun n q _ h => h.trans (.resupervise q n)) (.refl p)

theorem Part.commitSupervision_rest :
    (p.commitSupervision old).lines = p.lines ∧ (p.commitSupervision old).banks = p.banks := by
  rw [Part.commitSupervision_eq]
  split
  · exact ⟨rfl, rfl⟩
  · refine Part.forEach_inv (inv := fun q => q.lines = p.lines ∧ q.banks = p.banks) (fun n q _ h => ?_) ⟨rfl, rfl⟩
    obtain ⟨lines, banks⟩ := q.resupervise_rest n
    exact ⟨lines.trans h.1, banks.trans h.2⟩

end

end Sys2Proof.Machine
end

section
/-! SUPPORT. What a commit leaves: channels, zones, weather and banks (R21 to R24, R46, R80, R81, R132). -/

namespace Sys2Proof.Machine

section
variable {p q : Part} {n : ChannelId}

theorem governs_configured (w : Weather) (x : Zone) (words : ConfigWords) (z : ZoneId) (now : Nat) (c : Channel) :
    governs w (x.configured words z now) c = governs w x c := rfl

theorem governs_rewound (w : Weather) (old new : GlobalConfig) (now : Nat) (z : Zone) (c : Channel) :
    governs (w.rewound old new now) z c = governs w z c := by
  unfold Weather.rewound; split <;> rfl

theorem Part.Settled.commitLoops (h : p.Settled n) (words : ConfigWords) : (p.commitLoops words).Settled n := by
  have only := p.commitLoops_only words
  have chan := only.chan n
  refine h.congr (by rw [chan]) (by rw [chan]) (by rw [chan]) (by rw [chan]) (by rw [chan]) fun c => ?_
  rw [only.weather, Part.commitLoops_zone, governs_configured]

theorem Part.Settled.commitWind (h : p.Settled n) (old : GlobalConfig) : (p.commitWind old).Settled n := by
  rcases p.commitWind_eq old with e | e <;> rw [e]
  · exact h
  · exact h.congr rfl rfl rfl rfl rfl fun c => governs_rewound _ _ _ _ _ c

theorem Part.Settled.commitRain (h : p.Settled n) (old : GlobalConfig) : (p.commitRain old).Settled n := by
  rw [Part.commitRain_eq]
  split
  · exact Part.recomputeAll_settled _ n
  · exact h

/-- The grants are considered again; the weather may differ. -/
structure Part.Follows (p q : Part) : Prop where
  chan : ∀ n, (p.chan n).Regranted (q.chan n)
  reviewed : ∀ n, (p.chan n).cfg.cls ≠ .unused → (p.chan n).Reviewed → (q.chan n).Reviewed
  banks : q.banks = p.banks
  now : q.now = p.now
  globals : q.globals = p.globals
  cmd : q.cmd = p.cmd

theorem Part.Follows.trans {r : Part} (h : p.Follows q) (k : q.Follows r) : p.Follows r where
  chan n := (h.chan n).trans (k.chan n)
  reviewed n used hr := k.reviewed n (by rw [(h.chan n).cfg]; exact used) (h.reviewed n used hr)
  banks := k.banks.trans h.banks
  now := k.now.trans h.now
  globals := k.globals.trans h.globals
  cmd := k.cmd.trans h.cmd

theorem Part.Follows.commitLoops (p : Part) (words : ConfigWords) : p.Follows (p.commitLoops words) := by
  have only := p.commitLoops_only words
  refine ⟨fun n => ?_, fun n _ h => ?_, only.banks, only.now, only.globals, only.cmd⟩
  · rw [only.chan]; exact .refl _
  · rw [only.chan]; exact h

theorem Part.Follows.commitWind (p : Part) (old : GlobalConfig) : p.Follows (p.commitWind old) := by
  rcases p.commitWind_eq old with e | e <;> rw [e] <;> exact ⟨fun _ => .refl _, fun _ _ h => h, rfl, rfl, rfl, rfl⟩

theorem Part.Follows.commitRain (p : Part) (old : GlobalConfig) : p.Follows (p.commitRain old) := by
  rw [Part.commitRain_eq]
  split
  · have again := Part.Reconsiders.recomputeAll (p.setWeather p.weather.rainEnded)
    exact ⟨again.chan, fun n used h => Part.recomputeAll_reviewed (p := p.setWeather p.weather.rainEnded) used h, again.banks,
      again.units.now, again.units.globals, again.units.cmd⟩
  · exact ⟨fun _ => .refl _, fun _ _ h => h, rfl, rfl, rfl, rfl⟩

theorem Part.commitWind_units (p : Part) (old : GlobalConfig) :
    (p.commitWind old).zones = p.zones ∧ (p.commitWind old).ga = p.ga := by
  rcases p.commitWind_eq old with e | e <;> rw [e] <;> exact ⟨rfl, rfl⟩

theorem Part.commitRain_units (p : Part) (old : GlobalConfig) :
    (p.commitRain old).zones = p.zones ∧ (p.commitRain old).ga = p.ga := by
  rw [Part.commitRain_eq]
  split
  · have again := Part.Reconsiders.recomputeAll (p.setWeather p.weather.rainEnded)
    exact ⟨again.units.zones, again.units.ga⟩
  · exact ⟨rfl, rfl⟩

end

/-- The weather after a commit. -/
def Weather.committed (w : Weather) (old new : GlobalConfig) (now : Nat) : Weather :=
  if w.rainReached old new now = true then (w.rewound old new now).rainEnded else w.rewound old new now

section
variable (p : Part)

theorem Part.Follows.committedUnits : p.reviewedChannels.Follows p.committedUnits :=
  ((Part.Follows.commitLoops _ _).trans (.commitWind _ _)).trans (.commitRain _ _)

theorem Part.committedUnits_settled (n : ChannelId) : p.committedUnits.Settled n :=
  ((p.reviewedChannels_settled n).commitLoops _ |>.commitWind _).commitRain _

/-- The units of the part before its loops and its weather are committed. -/
theorem Part.SameUnits.reviewedChannels : (p.takeGlobals (pendingGlobals p.cmd.pending)).SameUnits p.reviewedChannels :=
  (Part.SameUnits.limitedChannels p).trans (Part.Reconsiders.reviewedChannels p).units

theorem Weather.rainReached_rewound (w : Weather) (old new : GlobalConfig) (now : Nat) :
    (w.rewound old new now).rainReached old new now = w.rainReached old new now := by
  unfold Weather.rewound; split <;> rfl

theorem Part.committedUnits_globals : p.committedUnits.globals = pendingGlobals p.cmd.pending :=
  (Part.Follows.committedUnits p).globals.trans (Part.SameUnits.reviewedChannels p).globals

theorem Part.committed_globals : p.committed.globals = pendingGlobals p.cmd.pending :=
  (Part.SameUnits.commitSupervision _ _).globals.trans p.committedUnits_globals

theorem Part.committed_cmd : p.committed.cmd = p.cmd :=
  (Part.SameUnits.commitSupervision _ _).cmd.trans
    ((Part.Follows.committedUnits p).cmd.trans (Part.SameUnits.reviewedChannels p).cmd)

theorem Part.committed_loops :
    p.committed.zones = (p.reviewedChannels.commitLoops p.cmd.pending).zones ∧
      p.committed.ga = (p.reviewedChannels.commitLoops p.cmd.pending).ga := by
  have supervision := Part.SameUnits.commitSupervision p.committedUnits p.globals
  obtain ⟨windZones, windGa⟩ := (p.reviewedChannels.commitLoops p.cmd.pending).commitWind_units p.globals
  obtain ⟨rainZones, rainGa⟩ := ((p.reviewedChannels.commitLoops p.cmd.pending).commitWind p.globals).commitRain_units p.globals
  exact ⟨supervision.zones.trans (rainZones.trans windZones), supervision.ga.trans (rainGa.trans windGa)⟩

theorem Part.committed_zone (z : ZoneId) : p.committed.zone z = (p.zone z).configured p.cmd.pending z p.now := by
  have units := Part.SameUnits.reviewedChannels p
  have before : p.reviewedChannels.zone z = p.zone z := units.zone z
  have now : p.reviewedChannels.now = p.now := units.now
  have zone := p.reviewedChannels.commitLoops_zone p.cmd.pending z
  rw [before, now] at zone
  rw [Part.zone, p.committed_loops.1]
  exact zone

theorem Part.committed_ga : p.committed.ga = p.ga.configure (pendingLoop p.cmd.pending .ga) p.now := by
  have units := Part.SameUnits.reviewedChannels p
  have before : p.reviewedChannels.ga = p.ga := units.ga
  have now : p.reviewedChannels.now = p.now := units.now
  rw [p.committed_loops.2, Part.commitLoops_ga, before, now]

theorem Part.committed_loop (k : LoopId) : p.committed.loop k = (p.loop k).configure (pendingLoop p.cmd.pending k) p.now := by
  cases k with
  | zone z => exact congrArg Zone.loop (p.committed_zone z)
  | ga => exact p.committed_ga

theorem Part.committed_weather :
    p.committed.weather = p.weather.committed p.globals (pendingGlobals p.cmd.pending) p.now := by
  have loops := p.reviewedChannels.commitLoops_only p.cmd.pending
  have units := Part.SameUnits.reviewedChannels p
  have wind := Part.Follows.commitWind (p.reviewedChannels.commitLoops p.cmd.pending) p.globals
  have before : (p.reviewedChannels.commitLoops p.cmd.pending).weather = p.weather := loops.weather.trans units.weather
  have now : (p.reviewedChannels.commitLoops p.cmd.pending).now = p.now := loops.now.trans units.now
  have globals : (p.reviewedChannels.commitLoops p.cmd.pending).globals = pendingGlobals p.cmd.pending :=
    loops.globals.trans units.globals
  rw [Part.committed, (Part.SameUnits.commitSupervision _ _).weather, Part.committedUnits, Part.commitRain_weather,
    wind.globals, wind.now, Part.commitWind_weather, before, now, globals, Weather.rainReached_rewound]
  rfl

theorem Part.committed_banks : p.committed.banks = p.limitedChannels.banks :=
  (p.committedUnits.commitSupervision_rest p.globals).2.trans
    ((Part.Follows.committedUnits p).banks.trans (Part.Reconsiders.reviewedChannels p).banks)

theorem Part.committed_chan (n : ChannelId) :
    p.committed.chan n =
      if p.globals.supervisionInterval = (pendingGlobals p.cmd.pending).supervisionInterval then p.committedUnits.chan n
      else (p.committedUnits.chan n).resupervised (pendingGlobals p.cmd.pending).supervisionInterval p.now := by
  have now : p.committedUnits.now = p.now := (Part.Follows.committedUnits p).now.trans (Part.SameUnits.reviewedChannels p).now
  rw [Part.committed, Part.commitSupervision_chan, p.committedUnits_globals, now]

theorem Part.committedUnits_regranted (n : ChannelId) : (p.limitedChannels.chan n).Regranted (p.committedUnits.chan n) :=
  ((Part.Reconsiders.reviewedChannels p).chan n).trans ((Part.Follows.committedUnits p).chan n)

theorem Part.committedUnits_reviewed {n : ChannelId} (hn : n ∈ p.keptChannels) : (p.committedUnits.chan n).Reviewed := by
  refine (Part.Follows.committedUnits p).reviewed n ?_ (p.reviewedChannels_reviewed hn)
  rw [((Part.Reconsiders.reviewedChannels p).chan n).cfg, Part.limitedChannels_chan, if_pos hn, Channel.limited_cfg,
    Channel.committed_cfg]
  exact (commitCase_eq_kept.mp ((p.mem_keptChannels n).mp hn)).2.1

end

end Sys2Proof.Machine
end

section
/-! SUPPORT. A channel that leaves its line at a commit: its order, its exchange and its retake (R22, R23, R125). -/

namespace Sys2Proof.Machine

/-! ## Changes of a line for the sake of one channel -/

/-- The work of one channel alone differs, and an idle line starts nothing. -/
structure Line.Beside (m : ChannelId) (x y : Line) : Prop where
  work : Line.WorkOnly m x y
  idle : x.exchange = none → y.exchange = none ∧ y.freeAt = x.freeAt

section
variable {m : ChannelId} {x y z : Line}

theorem Line.Beside.refl (m : ChannelId) (x : Line) : Line.Beside m x x := ⟨.refl m x, fun h => ⟨h, rfl⟩⟩

theorem Line.Beside.trans (h : Line.Beside m x y) (k : Line.Beside m y z) : Line.Beside m x z where
  work := h.work.trans k.work
  idle hx := ⟨(k.idle (h.idle hx).1).1, (k.idle (h.idle hx).1).2.trans (h.idle hx).2⟩

theorem Line.QueueOnly.freeAt (h : x.QueueOnly y) : y.freeAt = x.freeAt := by
  unfold Line.QueueOnly at h; rw [← h]

theorem Line.Beside.of_queue (work : Line.WorkOnly m x y) (queue : x.QueueOnly y) (he : y.exchange = x.exchange) :
    Line.Beside m x y := ⟨work, fun h => ⟨he.trans h, queue.freeAt⟩⟩

variable (m x)

theorem Line.Beside.remove : Line.Beside m x (x.remove m) := .of_queue (.remove m x) (.remove x m) rfl

theorem Line.Beside.join {o : Order} (h : o.channel = m) : Line.Beside m x (x.join o) :=
  .of_queue (.join m x h) (.join x o) (by simp)

theorem Line.Beside.reenter {o : Order} (h : o.channel = m) : Line.Beside m x (x.reenter o) :=
  .of_queue (.reenter m x h) (.reenter x o) (by simp)

theorem Line.Beside.retarget (t : Nat) (cls : OrderClass) : Line.Beside m x (x.retarget m t cls) :=
  .of_queue (.retarget m x t cls) (.retarget x m t cls) (by simp)

theorem Line.Beside.reclassInFlight (cls : OrderClass) : Line.Beside m x (x.reclassInFlight m cls) where
  work := .reclassInFlight m x cls
  idle h := by
    rcases x.reclassInFlight_cases m cls with e | ⟨_, _, he, -⟩
    · rw [e]; exact ⟨h, rfl⟩
    · exact nomatch h.symm.trans he

theorem Line.Beside.left (now : Nat) : Line.Beside m x (x.left m now) where
  work := .left x m now
  idle h := by
    have free : x.flightOf m = none := Line.flightOf_eq_none.mpr fun e he => nomatch h.symm.trans he
    have same : x.abandonedFor m now = x := by rw [Line.abandonedFor, free]; rfl
    rw [Line.left, same]
    exact ⟨h, rfl⟩

theorem Line.Beside.abandonedFor (now : Nat) : Line.Beside m x (x.abandonedFor m now) where
  work := .abandonedFor x m now
  idle h := by
    have free : x.flightOf m = none := Line.flightOf_eq_none.mpr fun e he => nomatch h.symm.trans he
    rw [Line.abandonedFor, free]
    exact ⟨h, rfl⟩

end

/-! ## Steps for one channel -/

/-- On every line the work of one channel alone differs, and an idle line starts nothing. -/
def Part.Beside (m : ChannelId) (p q : Part) : Prop := ∀ l, Line.Beside m (p.line l) (q.line l)

section
variable {m : ChannelId} {p q r : Part}

theorem Part.Beside.refl (m : ChannelId) (p : Part) : p.Beside m p := fun _ => .refl m _
theorem Part.Beside.trans (h : p.Beside m q) (k : q.Beside m r) : p.Beside m r := fun l => (h l).trans (k l)
theorem Part.Beside.of_lines (h : p.Beside m q) (hl : ∀ l, r.line l = q.line l) : p.Beside m r := fun l => by
  rw [hl]; exact h l

theorem Part.Beside.modLine (h : p.Beside m q) (l : LineId) {f : Line → Line} (hf : ∀ x, Line.Beside m x (f x)) :
    p.Beside m (q.modLine l f) := fun k => by
  rw [Part.line_modLine]
  split
  next e => rw [e]; exact (h l).trans (hf _)
  next => exact h k

theorem Part.Beside.modChan (h : p.Beside m q) (n : ChannelId) (f : Channel → Channel) : p.Beside m (q.modChan n f) :=
  h.of_lines fun _ => rfl
theorem Part.Beside.setMotion (h : p.Beside m q) (n : ChannelId) (s : Motion) : p.Beside m (q.setMotion n s) :=
  h.of_lines fun _ => rfl
theorem Part.Beside.record (h : p.Beside m q) (b : BankId) (e : ErrorRecord) : p.Beside m (q.record b e) :=
  h.of_lines fun _ => rfl
theorem Part.Beside.removeOrder (h : p.Beside m q) : p.Beside m (q.removeOrder m) := h.modLine _ fun x => .remove m x
theorem Part.Beside.joinOrder (h : p.Beside m q) (t : Nat) : p.Beside m (q.joinOrder m t) := h.modLine _ fun x => .join m x rfl
theorem Part.Beside.reclass (h : p.Beside m q) : p.Beside m (q.reclass m) := h.modLine _ fun x => .reclassInFlight m x _

theorem Part.Beside.testIdle (h : p.Beside m q) : p.Beside m (q.testIdle m) := by
  unfold Part.testIdle
  dsimp only
  split
  · split
    · exact (h.joinOrder _).setMotion m _
    · exact h
  · exact h

theorem Part.Beside.supersede (h : p.Beside m q) (t : Nat) : p.Beside m (q.supersede m t) := by
  rw [Part.supersede_eq]
  split
  · exact h.reclass.removeOrder
  · split
    · exact h.reclass.modLine _ fun x => .retarget m x _ _
    · exact h.reclass.joinOrder _

theorem Part.Beside.notice (h : p.Beside m q) : p.Beside m (q.notice m) := by
  unfold Part.notice
  dsimp only
  split
  · exact h.testIdle
  · split
    · exact (h.removeOrder.modChan m _).setMotion m _
    · exact h.modLine _ fun x => .retarget m x _ _
  · exact h.supersede _
  · exact h.supersede _
  · exact h

theorem Part.Beside.recompute (h : p.Beside m q) : p.Beside m (q.recompute m) := by
  rw [Part.recompute_eq]
  split
  · exact h
  · exact Part.Beside.notice (h.of_lines fun _ => rfl)

theorem Part.Beside.leaveLine (h : p.Beside m q) : p.Beside m (q.leaveLine m) := fun l => by
  rw [Part.leaveLine_line]
  split; exacts [(h l).trans (.left m _ _), h l]

theorem Part.Beside.commitOffline (h : p.Beside m q) (n : ChannelId) (cfg : ChannelConfig) :
    p.Beside m (q.commitOffline n cfg) := h.of_lines fun l => q.commitOffline_line n cfg l

theorem Part.Beside.abandonFor (h : p.Beside m q) (l : LineId) : p.Beside m (q.abandonFor l m) := fun k => by
  rw [Part.abandonFor_line]
  split
  next e => rw [e]; exact (h l).trans (.abandonedFor m _ _)
  next => exact h k

theorem Part.Beside.faultChannel (h : p.Beside m q) (f : FaultCode) : p.Beside m (q.faultChannel m f) :=
  h.removeOrder.of_lines fun l => q.faultChannel_line m f l

theorem Part.Beside.expireTravel (h : p.Beside m q) (e : Nat) : p.Beside m (q.expireTravel m e) := by
  by_cases pending : (q.chan m).motion = .queued ∨ (q.chan m).motion = .ordering
  · rw [Part.expireTravel_of_pending q m e pending]
    split; exacts [(h.abandonFor _).faultChannel _, h.faultChannel _]
  · by_cases hm : (q.chan m).motion = .moving
    · rw [Part.expireTravel_of_moving q m e hm]
      exact Part.Beside.modLine (h.removeOrder.of_lines fun _ => rfl) _ fun x => .reenter m x rfl
    · rw [Part.expireTravel_of_settled q m e (not_or.1 pending) hm]; exact h

theorem Part.Beside.commitChannel (p : Part) (m : ChannelId) (cfg : ChannelConfig) : p.Beside m (p.commitChannel m cfg) := by
  have left := (Part.Beside.refl m p).leaveLine
  cases h : commitCase (p.chan m).cfg cfg with
  | stillUnused => rw [Part.commitChannel_same (.inl h)]; exact (Part.Beside.refl m p).modChan m _
  | kept => rw [Part.commitChannel_same (.inr h)]; exact (Part.Beside.refl m p).modChan m _
  | toUnused => rw [Part.commitChannel_toUnused h]; exact left.of_lines fun _ => rfl
  | fromUnused => rw [Part.commitChannel_fromUnused h]; exact (Part.Beside.refl m p).commitOffline m cfg
  | rebound =>
    rw [Part.commitChannel_rebound h]
    split
    · exact left.commitOffline m cfg
    · exact (left.commitOffline m cfg).record _ _

theorem Part.Beside.commitExpiry (p : Part) (m : ChannelId) : p.Beside m (p.commitExpiry m) := by
  unfold Part.commitExpiry
  split
  · split; exacts [(Part.Beside.refl m p).expireTravel _, .refl m p]
  · exact .refl m p

theorem Part.Beside.commitReview (p : Part) (m : ChannelId) : p.Beside m (p.commitReview m) := by
  unfold Part.commitReview
  dsimp only
  split
  · exact (Part.Beside.refl m p).testIdle
  · split
    · exact ((Part.Beside.refl m p).removeOrder.modChan m _).setMotion m _
    · exact .refl m p
  · exact .refl m p

end

end Sys2Proof.Machine
end

section
/-! SUPPORT. A commit leaves nothing of a channel on the line it leaves (R22, R23, R125). -/

namespace Sys2Proof.Machine

/-- One act among those of a list: what stands before its turn, and what stands after it. -/
theorem Part.forEach_at {act : ChannelId → Part → Part} {before after : Part → Prop} {p : Part} {ns : List ChannelId}
    {n : ChannelId} (nd : ns.Nodup) (hn : n ∈ ns) (early : ∀ m q, m ≠ n → before q → before (act m q))
    (turn : ∀ q, before q → after (act n q)) (late : ∀ m q, m ≠ n → after q → after (act m q)) (hp : before p) :
    after (p.forEach ns act) := by
  induction ns generalizing p with
  | nil => exact nomatch hn
  | cons m ns ih =>
    obtain ⟨fresh, nd⟩ := List.nodup_cons.1 nd
    by_cases e : m = n
    · subst e
      show after ((act m p).forEach ns act)
      exact Part.forEach_inv (inv := after) (fun k q hk h => late k q (fun e => fresh (e ▸ hk)) h) (turn p hp)
    · exact ih nd ((List.mem_cons.1 hn).resolve_left fun h => e h.symm) (early m p e hp)

/-- The channel is UNUSED or OFFLINE, the line has nothing of it, and is idle until the instant given. -/
structure Part.Departed (n : ChannelId) (l : LineId) (free : Option Nat) (p : Part) : Prop where
  rest : (p.chan n).motion = .unused ∨ (p.chan n).motion = .offline
  gone : (p.line l).FreeOf n
  idle : ∀ t, free = some t → (p.line l).exchange = none ∧ (p.line l).freeAt = t

/-- When the line is free after the exchange for the channel, if it has one, is abandoned (R125). -/
def Line.freeAfter (x : Line) (n : ChannelId) (now : Nat) : Option Nat := (x.flightOf n).map fun e => e.sentAt.getD now + 10

section
variable {n m : ChannelId} {l : LineId} {free : Option Nat} {p q : Part}

theorem Part.Departed.of_same (h : p.Departed n l free) (hc : (q.chan n).motion = (p.chan n).motion)
    (hl : q.line l = p.line l) : q.Departed n l free := ⟨hc ▸ h.rest, hl ▸ h.gone, hl ▸ h.idle⟩

theorem Part.Departed.beside (h : p.Departed n l free) (hm : n ≠ m) (k : p.Beside m q) (only : p.OnlyChan m q) :
    q.Departed n l free where
  rest := by rw [only n hm]; exact h.rest
  gone := ((k l).work.others n hm).freeOf h.gone
  idle t ht := ⟨((k l).idle (h.idle t ht).1).1, ((k l).idle (h.idle t ht).1).2.trans (h.idle t ht).2⟩

theorem Channel.still_of_rest {c : Channel} (h : c.motion = .unused ∨ c.motion = .offline) :
    c.motion ≠ .idle ∧ c.motion ≠ .queued := by
  rcases h with h | h <;> simp [h]

/-- A recomputation of the channel itself finds no order to change. -/
theorem Part.recompute_line_of_rest (h : (p.chan n).motion = .unused ∨ (p.chan n).motion = .offline) (k : LineId) :
    (p.recompute n).line k = p.line k := by
  rw [Part.recompute_eq]
  split
  · rfl
  · have motion : ((p.regrant n).chan n).motion = (p.chan n).motion := by rw [Part.regrant_chan_self]
    rw [Part.notice_of_waiting _ _ (by rw [motion]; tauto)]
    rfl

theorem Part.Departed.recompute (h : p.Departed n l free) (m : ChannelId) : (p.recompute m).Departed n l free := by
  by_cases e : n = m
  · subst e
    obtain ⟨idle, queued⟩ := Channel.still_of_rest h.rest
    exact h.of_same ((p.recompute_regranted n).motion idle queued) (Part.recompute_line_of_rest h.rest l)
  · exact h.beside e (Part.Beside.refl m p).recompute (p.recompute_onlyChan m)

theorem Part.Departed.recomputeAll (h : p.Departed n l free) : p.recomputeAll.Departed n l free :=
  Part.forEach_inv (inv := Part.Departed n l free) (fun m _ _ k => k.recompute m) h

theorem Part.Departed.commitReviews (h : p.Departed n l free) {ns : List ChannelId} (hn : n ∉ ns) :
    (p.forEach ns fun m q => q.commitReview m).Departed n l free :=
  Part.forEach_inv (inv := Part.Departed n l free)
    (fun m q hm k => k.beside (fun e => hn (e ▸ hm)) (.commitReview q m) (q.commitReview_onlyChan m)) h

theorem Part.Departed.limitAll (h : p.Departed n l free) {ns : List ChannelId} (hn : n ∉ ns) :
    (p.limitAll ns).Departed n l free :=
  Part.forEach_inv (inv := Part.Departed n l free)
    (fun m q hm k => k.beside (fun e => hn (e ▸ hm)) (.commitExpiry q m) (q.commitExpiry_onlyChan m)) h

theorem Part.Departed.commitLoops (h : p.Departed n l free) (words : ConfigWords) : (p.commitLoops words).Departed n l free :=
  have only := p.commitLoops_only words
  h.of_same (by rw [only.chan]) (only.line l)

theorem Part.Departed.commitWind (h : p.Departed n l free) (old : GlobalConfig) : (p.commitWind old).Departed n l free := by
  rcases p.commitWind_eq old with e | e <;> rw [e]
  · exact h
  · exact h.of_same rfl rfl

theorem Part.Departed.commitRain (h : p.Departed n l free) (old : GlobalConfig) : (p.commitRain old).Departed n l free := by
  rw [Part.commitRain_eq]
  split
  · exact Part.Departed.recomputeAll (h.of_same rfl rfl)
  · exact h

theorem Channel.resupervised_motion (c : Channel) (interval now : Nat) : (c.resupervised interval now).motion = c.motion := by
  unfold Channel.resupervised; split; exacts [c.supervisedAtOnce_motion, rfl]

theorem Part.Departed.commitSupervision (h : p.Departed n l free) (old : GlobalConfig) :
    (p.commitSupervision old).Departed n l free := by
  refine h.of_same ?_ ?_
  · rw [Part.commitSupervision_chan]
    split; exacts [rfl, Channel.resupervised_motion _ _ _]
  · rw [Part.line, (p.commitSupervision_rest old).1]; rfl

/-- The line that the channel leaves: its exchange is abandoned, and nothing of the channel is left. -/
theorem Line.left_idle (x : Line) (n : ChannelId) (now t : Nat) (h : x.freeAfter n now = some t) :
    (x.left n now).exchange = none ∧ (x.left n now).freeAt = t := by
  obtain ⟨e, he, rfl⟩ := Option.map_eq_some_iff.mp h
  obtain ⟨exchange, kind⟩ := Line.flightOf_eq_some.mp he
  exact Line.abandonedFor_of_exchange now exchange kind

/-- A channel leaves its line at the commit when it becomes UNUSED or is bound elsewhere. -/
def leaves (old new : ChannelConfig) : Prop := commitCase old new = .toUnused ∨ commitCase old new = .rebound

theorem Part.commitChannel_departed {cfg : ChannelConfig} (h : leaves (p.chan n).cfg cfg) :
    (p.commitChannel n cfg).Departed n (p.lineOf n) ((p.line (p.lineOf n)).freeAfter n p.now) := by
  have line : (p.leaveLine n).line (p.lineOf n) = (p.line (p.lineOf n)).left n p.now := by
    rw [Part.leaveLine_line, if_pos rfl]
  have leaving {q : Part} (rest : (q.chan n).motion = .unused ∨ (q.chan n).motion = .offline)
      (hl : q.line (p.lineOf n) = (p.leaveLine n).line (p.lineOf n)) :
      q.Departed n (p.lineOf n) ((p.line (p.lineOf n)).freeAfter n p.now) := by
    refine ⟨rest, ?_, fun t ht => ?_⟩ <;> rw [hl, line]
    · exact Line.left_freeOf _ n _
    · exact Line.left_idle _ n _ t ht
  rcases h with h | h
  · rw [Part.commitChannel_toUnused h]
    exact leaving (.inl (by rw [Part.unuse_chan_self]; rfl)) rfl
  · have rest : (((p.leaveLine n).commitOffline n cfg).chan n).motion = .offline := by
      rw [Part.leaveLine_commitOffline_chan_self]; rfl
    rw [Part.commitChannel_rebound h]
    split
    · exact leaving (.inr rest) (Part.commitOffline_line _ n cfg _)
    · exact leaving (.inr rest) (Part.commitOffline_line _ n cfg _)

end

section
variable (p : Part) (n : ChannelId)

/-- What stands before a channel's turn: the clock, its record, and its exchange in flight. -/
structure Part.Awaits (l : LineId) (p q : Part) : Prop where
  now : q.now = p.now
  chan : q.chan n = p.chan n
  flight : (q.line l).flightOf n = (p.line l).flightOf n

variable {n}

theorem Part.committedChannels_departed (h : leaves (p.chan n).cfg (pendingChannel p.cmd.pending n)) :
    p.committedChannels.Departed n (p.lineOf n) ((p.line (p.lineOf n)).freeAfter n p.now) := by
  refine Part.forEach_at (before := Part.Awaits n (p.lineOf n) p) allChannels_nodup (mem_allChannels n) (fun m q hm k => ?_)
    (fun q k => ?_)
    (fun m q hm k => k.beside hm.symm (.commitChannel q m _) (q.commitChannel_onlyChan m _)) ⟨rfl, rfl, rfl⟩
  · exact ⟨(Part.SameUnits.commitChannel q m _).now.trans k.now, (q.commitChannel_onlyChan m _ n hm.symm).trans k.chan,
      (((Part.Beside.commitChannel q m _) _).work.others n hm.symm).flight.trans k.flight⟩
  · have lineOf : q.lineOf n = p.lineOf n := by rw [Part.lineOf, k.chan]; rfl
    have departed := Part.commitChannel_departed (p := q) (cfg := pendingChannel p.cmd.pending n) (by rw [k.chan]; exact h)
    rw [lineOf, Line.freeAfter, k.flight, k.now] at departed
    exact departed

theorem Part.committed_departed (h : leaves (p.chan n).cfg (pendingChannel p.cmd.pending n)) :
    p.committed.Departed n (p.lineOf n) ((p.line (p.lineOf n)).freeAfter n p.now) := by
  have left : n ∉ p.keptChannels := by
    rw [Part.mem_keptChannels]
    rcases h with h | h <;> simp [h]
  have global : (p.committedChannels.takeGlobals (pendingGlobals p.cmd.pending)).Departed n (p.lineOf n)
      ((p.line (p.lineOf n)).freeAfter n p.now) := (p.committedChannels_departed h).of_same (by simp) (by simp)
  have reviewed : p.reviewedChannels.Departed n (p.lineOf n) ((p.line (p.lineOf n)).freeAfter n p.now) :=
    (global.limitAll left).recomputeAll.commitReviews left
  exact (((reviewed.commitLoops _).commitWind _).commitRain _).commitSupervision _

end

end Sys2Proof.Machine
end

section
/-! SUPPORT. The record of a channel after a commit, by how the commit changes it (R21 to R24, R132). -/

namespace Sys2Proof.Machine

/-! ## A kept channel against its travel limit -/

section
variable {c : Channel} (now : Nat)

theorem Channel.limited_of_limit {e : Nat} (he : c.travel = some e) (hl : c.cfg.travelLimit ≤ e) :
    c.limited now = c.timedOut e now := by
  unfold Channel.limited; rw [he]; exact if_pos hl

theorem Channel.limited_of_below (h : ∀ e, c.travel = some e → e < c.cfg.travelLimit) : c.limited now = c := by
  unfold Channel.limited
  split
  next e he => exact if_neg (Nat.not_le.2 (h e he))
  next => rfl

theorem Channel.limited_cases (c : Channel) : c.limited now = c ∨ ∃ e, c.limited now = c.timedOut e now := by
  unfold Channel.limited
  split
  next e _ => split; exacts [.inr ⟨e, rfl⟩, .inl rfl]
  next => exact .inl rfl

theorem Channel.timedOut_of_pending (e : Nat) (h : c.motion = .queued ∨ c.motion = .ordering) :
    c.timedOut e now = c.faultedWith now (.travelTimeout e) := if_pos h

theorem Channel.timedOut_of_moving (e : Nat) (h : c.motion = .moving) : c.timedOut e now = c.halted now := by
  rw [Channel.timedOut, if_neg (by simp [h]), if_pos h]

theorem Channel.timedOut_of_settled (e : Nat) (hp : ¬ (c.motion = .queued ∨ c.motion = .ordering)) (hm : c.motion ≠ .moving) :
    c.timedOut e now = c := by
  rw [Channel.timedOut, if_neg hp, if_neg hm]

theorem Channel.timedOut_place (e : Nat) : (c.timedOut e now).position = c.position ∧ (c.timedOut e now).report = c.report := by
  unfold Channel.timedOut
  split
  · exact ⟨rfl, rfl⟩
  · split <;> exact ⟨rfl, rfl⟩

theorem Channel.limited_place : (c.limited now).position = c.position ∧ (c.limited now).report = c.report := by
  rcases c.limited_cases now with h | ⟨e, h⟩ <;> rw [h]
  · exact ⟨rfl, rfl⟩
  · exact Channel.timedOut_place now e

theorem Channel.limited_of_settled (hp : ¬ (c.motion = .queued ∨ c.motion = .ordering)) (hm : c.motion ≠ .moving) :
    c.limited now = c := by
  rcases c.limited_cases now with h | ⟨e, h⟩ <;> rw [h]
  exact Channel.timedOut_of_settled now e hp hm

/-- R132: a supervised channel stays supervised, its timer running on. -/
theorem Channel.limited_supervised (hs : supervised c.motion = true) :
    supervised (c.limited now).motion = true ∧ (c.limited now).supFrom = c.supFrom ∧ (c.limited now).supDue = c.supDue := by
  rcases c.limited_cases now with h | ⟨e, h⟩ <;> rw [h]
  · exact ⟨hs, rfl, rfl⟩
  · unfold Channel.timedOut
    split
    · refine ⟨rfl, ?_, ?_⟩ <;> simp [Channel.faultedWith, Channel.enter, hs] <;> simp [supervised]
    · rw [if_neg (by rintro hm; rw [hm] at hs; exact nomatch hs)]
      exact ⟨hs, rfl, rfl⟩

end

/-! ## Supervision -/

/-- The record under the new globals' supervision interval. -/
def Channel.supervisedUnder (c : Channel) (old new : GlobalConfig) (now : Nat) : Channel :=
  if old.supervisionInterval = new.supervisionInterval then c else c.resupervised new.supervisionInterval now

/-- The supervision timer has reached a changed interval. -/
def Channel.supervisionReached (c : Channel) (old new : GlobalConfig) (now : Nat) : Prop :=
  old.supervisionInterval ≠ new.supervisionInterval ∧
    ∃ since, c.supFrom = some since ∧ since + new.supervisionInterval * 1000 ≤ now

section
variable (c : Channel) (old new : GlobalConfig) (now : Nat)

theorem Channel.supervisedUnder_eq :
    c.supervisedUnder old new now = { c with supDue := (c.supervisedUnder old new now).supDue } := by
  unfold Channel.supervisedUnder Channel.resupervised Channel.supervisedAtOnce
  split
  · rfl
  · split
    · split <;> rfl
    · rfl

theorem Channel.supervisedUnder_supDue (hs : supervised c.motion = true) :
    (c.supervisedUnder old new now).supDue = true ↔ c.supDue = true ∨ c.supervisionReached old new now := by
  unfold Channel.supervisedUnder Channel.supervisionReached Channel.resupervised Channel.supervisedAtOnce
  rw [if_pos hs]
  by_cases same : old.supervisionInterval = new.supervisionInterval
  · simp [same]
  · rw [if_neg same]
    cases hf : c.supFrom with
    | none => simp
    | some t =>
      by_cases reached : t + new.supervisionInterval * 1000 ≤ now
      · simp [second, same, reached]
      · simp [second, reached]

end

/-! ## The channels of a commit -/

section
variable (p : Part) (n : ChannelId)

theorem Part.committed_chan_eq :
    p.committed.chan n = (p.committedUnits.chan n).supervisedUnder p.globals (pendingGlobals p.cmd.pending) p.now :=
  p.committed_chan n

theorem Part.committed_settled : p.committed.Settled n := by
  have units := Part.SameUnits.commitSupervision p.committedUnits p.globals
  have chan := p.committed_chan_eq n
  rw [Channel.supervisedUnder_eq] at chan
  refine (p.committedUnits_settled n).congr (by rw [chan]) (by rw [chan]) (by rw [chan]) (by rw [chan]) (by rw [chan])
    fun c => ?_
  rw [Part.committed, units.weather, units.zone]

theorem Part.committed_cfg : (p.committed.chan n).cfg = pendingChannel p.cmd.pending n := by
  rw [Part.committed_chan_eq, Channel.supervisedUnder_eq]
  refine (p.committedUnits_regranted n).cfg.trans ?_
  rw [Part.limitedChannels_chan]
  split
  · rw [Channel.limited_cfg, Channel.committed_cfg]
  · rw [Channel.committed_cfg]

variable {p n}

/-- A channel that is neither IDLE nor QUEUED after the expiries: only its grant and its supervision differ. -/
theorem Part.committed_of_still (hi : (p.limitedChannels.chan n).motion ≠ .idle)
    (hq : (p.limitedChannels.chan n).motion ≠ .queued) :
    p.committed.chan n = { p.limitedChannels.chan n with
      governing := (p.committed.chan n).governing
      granted := (p.committed.chan n).granted
      supDue := (p.committed.chan n).supDue } := by
  obtain ⟨g, t, regranted⟩ : ∃ g t, p.committedUnits.chan n = { p.limitedChannels.chan n with governing := g, granted := t } :=
    ⟨_, _, (p.committedUnits_regranted n).still hi hq⟩
  obtain ⟨b, chan⟩ : ∃ b, p.committed.chan n = { p.committedUnits.chan n with supDue := b } :=
    ⟨_, (p.committed_chan_eq n).trans (Channel.supervisedUnder_eq _ _ _ _)⟩
  rw [chan, regranted]

theorem Part.committed_supDue (hs : supervised (p.limitedChannels.chan n).motion = true) :
    (p.committed.chan n).supFrom = (p.limitedChannels.chan n).supFrom ∧
    ((p.committed.chan n).supDue = true ↔ (p.limitedChannels.chan n).supDue = true ∨
      (p.limitedChannels.chan n).supervisionReached p.globals (pendingGlobals p.cmd.pending) p.now) := by
  have regranted := p.committedUnits_regranted n
  have due := (p.committedUnits.chan n).supervisedUnder_supDue p.globals (pendingGlobals p.cmd.pending) p.now
    (regranted.supervised hs)
  rw [← Part.committed_chan_eq, regranted.supDue hs, Channel.supervisionReached, regranted.supFrom hs] at due
  refine ⟨?_, due⟩
  rw [Part.committed_chan_eq, Channel.supervisedUnder_eq]
  exact regranted.supFrom hs

theorem Part.limitedChannels_of_left (h : commitCase (p.chan n).cfg (pendingChannel p.cmd.pending n) ≠ .kept) :
    p.limitedChannels.chan n = (p.chan n).committed (pendingChannel p.cmd.pending n) p.now := by
  rw [Part.limitedChannels_chan, if_neg fun k => h ((p.mem_keptChannels n).mp k)]

theorem Part.limitedChannels_of_kept (h : commitCase (p.chan n).cfg (pendingChannel p.cmd.pending n) = .kept) :
    p.limitedChannels.chan n = ({ p.chan n with cfg := pendingChannel p.cmd.pending n } : Channel).limited p.now := by
  rw [Part.limitedChannels_chan, if_pos ((p.mem_keptChannels n).mpr h), Channel.committed_same _ _ (.inr h)]

/-- R22: a channel that becomes UNUSED. -/
theorem Part.committed_toUnused (h : commitCase (p.chan n).cfg (pendingChannel p.cmd.pending n) = .toUnused) :
    p.committed.chan n = { (p.chan n).committedTo (pendingChannel p.cmd.pending n) p.now .unused with
      governing := .none
      granted := none
      supDue := (p.committed.chan n).supDue } := by
  have limited := p.limitedChannels_of_left (n := n) (by rw [h]; decide)
  rw [Channel.committed_toUnused _ _ h] at limited
  have still := Part.committed_of_still (p := p) (n := n) (by rw [limited]; nofun) (by rw [limited]; nofun)
  have settled := p.committed_settled n
  unfold Part.Settled at settled
  have unused : (p.committed.chan n).cfg.cls = .unused := by rw [p.committed_cfg]; exact (commitCase_eq_toUnused.mp h).2
  rw [Machine.governs, if_pos unused] at settled
  obtain ⟨governing, granted⟩ := Prod.ext_iff.mp settled
  rw [limited, show (p.committed.chan n).governing = .none from governing,
    show (p.committed.chan n).granted = none from granted] at still
  exact still

/-- R23: a channel that enters use or is bound elsewhere. -/
theorem Part.committed_offline (h : commitCase (p.chan n).cfg (pendingChannel p.cmd.pending n) = .fromUnused ∨
      commitCase (p.chan n).cfg (pendingChannel p.cmd.pending n) = .rebound) :
    p.committed.chan n = { (p.chan n).committedTo (pendingChannel p.cmd.pending n) p.now .offline with
      governing := (p.committed.chan n).governing
      granted := (p.committed.chan n).granted
      supDue := true } := by
  have limited := p.limitedChannels_of_left (n := n) (by rcases h with h | h <;> rw [h] <;> decide)
  rw [Channel.committed_offline _ _ h] at limited
  have still := Part.committed_of_still (p := p) (n := n) (by rw [limited]; nofun) (by rw [limited]; nofun)
  have due := (Part.committed_supDue (p := p) (n := n) (by rw [limited]; rfl)).2.2 (.inl (by rw [limited]))
  rw [limited, due] at still
  exact still

end

end Sys2Proof.Machine
end

section
/-! SUPPORT. The kept channels, the loops, the weather and the errors of a commit, as its statement says them (R21, R46, R80, R81,
R116). -/

namespace Sys2Proof.Machine

/-! ## Kept channels (R21) -/

section
variable {p : Part} {n : ChannelId}

/-- The record of a kept channel before its expiry. -/
def Part.keptRecord (p : Part) (n : ChannelId) : Channel := { p.chan n with cfg := pendingChannel p.cmd.pending n }

section
variable (kept : commitCase (p.chan n).cfg (pendingChannel p.cmd.pending n) = .kept)
include kept

theorem Part.kept_place :
    (p.committed.chan n).position = (p.chan n).position ∧ (p.committed.chan n).report = (p.chan n).report := by
  have regranted := p.committedUnits_regranted n
  obtain ⟨position, report⟩ := Channel.limited_place (c := p.keptRecord n) p.now
  have limited : p.limitedChannels.chan n = (p.keptRecord n).limited p.now := Part.limitedChannels_of_kept kept
  rw [Part.committed_chan_eq, Channel.supervisedUnder_eq]
  exact ⟨(regranted.position.trans (congrArg Channel.position limited)).trans position,
    (regranted.report.trans (congrArg Channel.report limited)).trans report⟩

theorem Part.kept_supervised (hs : supervised (p.chan n).motion = true) :
    (p.committed.chan n).supFrom = (p.chan n).supFrom ∧
      ((p.committed.chan n).supDue = true ↔ (p.chan n).supDue = true ∨
        (p.chan n).supervisionReached p.globals (pendingGlobals p.cmd.pending) p.now) := by
  obtain ⟨still, supFrom, supDue⟩ := Channel.limited_supervised (c := p.keptRecord n) p.now hs
  have limited : p.limitedChannels.chan n = (p.keptRecord n).limited p.now := Part.limitedChannels_of_kept kept
  rw [← limited] at still supFrom supDue
  have due := Part.committed_supDue still
  rw [Channel.supervisionReached, supFrom, supDue] at due
  exact due

/-- R113: the travel of a channel with an order has reached the new limit. -/
theorem Part.kept_expired_pending {e : Nat} (he : (p.chan n).travel = some e)
    (hl : (pendingChannel p.cmd.pending n).travelLimit ≤ e) (hm : (p.chan n).motion = .queued ∨ (p.chan n).motion = .ordering) :
    (p.committed.chan n).motion = .faulted ∧ (p.committed.chan n).fault = some (.travelTimeout e) ∧
      (p.committed.chan n).travel = none ∧ (p.committed.chan n).accepted = none ∧ (p.committed.chan n).shortMark = false := by
  have limited : p.limitedChannels.chan n = (p.keptRecord n).faultedWith p.now (.travelTimeout e) :=
    (Part.limitedChannels_of_kept kept).trans ((Channel.limited_of_limit p.now (c := p.keptRecord n) he hl).trans
      (Channel.timedOut_of_pending p.now e hm))
  rw [Part.committed_of_still (by rw [limited]; nofun) (by rw [limited]; nofun), limited]
  exact ⟨rfl, rfl, rfl, rfl, rfl⟩

/-- R113: the travel of a MOVING channel has reached the new limit. -/
theorem Part.kept_expired_moving {e : Nat} (he : (p.chan n).travel = some e)
    (hl : (pendingChannel p.cmd.pending n).travelLimit ≤ e) (hm : (p.chan n).motion = .moving) :
    (p.committed.chan n).motion = .halting ∧ (p.committed.chan n).travel = none ∧ (p.committed.chan n).accepted = none := by
  have limited : p.limitedChannels.chan n = (p.keptRecord n).halted p.now :=
    (Part.limitedChannels_of_kept kept).trans ((Channel.limited_of_limit p.now (c := p.keptRecord n) he hl).trans
      (Channel.timedOut_of_moving p.now e hm))
  rw [Part.committed_of_still (by rw [limited]; nofun) (by rw [limited]; nofun), limited]
  exact ⟨rfl, rfl, rfl⟩

theorem Part.kept_limited_below (below : ∀ e, (p.chan n).travel = some e → e < (pendingChannel p.cmd.pending n).travelLimit) :
    p.limitedChannels.chan n = p.keptRecord n :=
  (Part.limitedChannels_of_kept kept).trans (Channel.limited_of_below p.now (c := p.keptRecord n) below)

/-- R21: an IDLE or QUEUED channel within its travel limit has the motion that its tolerance asks for. -/
theorem Part.kept_reviewed (below : ∀ e, (p.chan n).travel = some e → e < (pendingChannel p.cmd.pending n).travelLimit)
    (hm : (p.chan n).motion = .idle ∨ (p.chan n).motion = .queued) :
    (p.committed.chan n).motion =
        (if withinTolerance (p.committed.chan n) (p.committed.chan n).granted = true then .idle else .queued) ∧
      (p.committed.chan n).fault = (p.chan n).fault := by
  have limited := Part.kept_limited_below kept below
  have regranted := p.committedUnits_regranted n
  rw [limited] at regranted
  have reviewed := p.committedUnits_reviewed ((p.mem_keptChannels n).mpr kept) (regranted.pending hm)
  rw [Part.committed_chan_eq, Channel.supervisedUnder_eq]
  exact ⟨reviewed, regranted.fault⟩

/-- An ORDERING or MOVING channel within its travel limit keeps what is under way. -/
theorem Part.kept_underWay (below : ∀ e, (p.chan n).travel = some e → e < (pendingChannel p.cmd.pending n).travelLimit)
    (hm : (p.chan n).motion = .ordering ∨ (p.chan n).motion = .moving) :
    (p.committed.chan n).motion = (p.chan n).motion ∧ (p.committed.chan n).fault = (p.chan n).fault ∧
      (p.committed.chan n).travel = (p.chan n).travel ∧ (p.committed.chan n).accepted = (p.chan n).accepted := by
  have limited := Part.kept_limited_below kept below
  have motion : (p.keptRecord n).motion = (p.chan n).motion := rfl
  rw [Part.committed_of_still (by rw [limited, motion]; rcases hm with h | h <;> simp [h])
    (by rw [limited, motion]; rcases hm with h | h <;> simp [h]), limited]
  exact ⟨rfl, rfl, rfl, rfl⟩

/-- A channel without an order under way keeps its motion and its faults. -/
theorem Part.kept_settled (hm : (p.chan n).motion = .halting ∨ (p.chan n).motion = .faulted ∨ (p.chan n).motion = .offline) :
    (p.committed.chan n).motion = (p.chan n).motion ∧ (p.committed.chan n).fault = (p.chan n).fault ∧
      (p.committed.chan n).lastFault = (p.chan n).lastFault := by
  have motion : (p.keptRecord n).motion = (p.chan n).motion := rfl
  have limited : p.limitedChannels.chan n = p.keptRecord n :=
    (Part.limitedChannels_of_kept kept).trans (Channel.limited_of_settled p.now (c := p.keptRecord n)
      (by rw [motion]; rcases hm with h | h | h <;> simp [h]) (by rw [motion]; rcases hm with h | h | h <;> simp [h]))
  rw [Part.committed_of_still (by rw [limited, motion]; rcases hm with h | h | h <;> simp [h])
    (by rw [limited, motion]; rcases hm with h | h | h <;> simp [h]), limited]
  exact ⟨rfl, rfl, rfl⟩

end

/-! ## Channels that leave their line (R22, R23) -/

theorem Line.FreeOf.enter_quiet {x : Line} (h : x.FreeOf n) (now : Nat) : (x.enter now .quiet).FreeOf n :=
  ⟨h.orders, h.flight, fun ⟨_, hr, _⟩ => nomatch hr⟩

/-- Quieting complete gives a line nothing of a channel. -/
theorem Line.FreeOf.completeQuieting {l : LineId} (h : (p.line l).FreeOf n) : (p.completeQuieting.line l).FreeOf n := by
  rw [Part.line_completeQuieting]
  split; exacts [h.enter_quiet _, h]

theorem Part.committed_left (h : leaves (p.chan n).cfg (pendingChannel p.cmd.pending n)) :
    (p.committed.chan n).lastFault = (if (p.chan n).fault = none then (p.chan n).lastFault else (p.chan n).fault) ∧
      (p.committed.chan n).shortMark = false ∧ (p.committed.chan n).accepted = none := by
  have forgets (now : Nat) (m : Motion) :
      ((p.chan n).committedTo (pendingChannel p.cmd.pending n) now m).lastFault =
        (if (p.chan n).fault = none then (p.chan n).lastFault else (p.chan n).fault) := by
    cases hf : (p.chan n).fault <;> simp [Channel.committedTo, Channel.enter, Channel.forget, hf]
  rcases h with h | h
  · rw [Part.committed_toUnused h]
    exact ⟨forgets p.now .unused, rfl, rfl⟩
  · rw [Part.committed_offline (.inr h)]
    exact ⟨forgets p.now .offline, rfl, rfl⟩

end

/-! ## Loops (R46, R48) -/

section
variable {g : FireLoop} {cfg : LoopConfig} (now : Nat)

theorem FireLoop.configure_timer_starts (h : g.cfg ≠ cfg) (ha : alarmCondition cfg g.state = true)
    (hn : g.timer ≠ none ∨ ¬ alarmCondition g.cfg g.state = true) : (g.configure cfg now).timer = some (cfg.mode, now) := by
  rw [FireLoop.configure_of_ne g cfg now h]
  refine if_pos ⟨ha, hn.imp Option.isSome_iff_ne_none.mpr fun k => ?_⟩
  exact Bool.eq_false_iff.mpr k

theorem FireLoop.configure_timer_stops (h : g.cfg ≠ cfg)
    (hn : ¬ alarmCondition cfg g.state = true ∨ (g.timer = none ∧ alarmCondition g.cfg g.state = true)) :
    (g.configure cfg now).timer = none := by
  rw [FireLoop.configure_of_ne g cfg now h]
  refine if_neg ?_
  rintro ⟨alarm, timer⟩
  rcases hn with hn | ⟨idle, before⟩
  · exact hn alarm
  · rcases timer with running | quiet
    · rw [idle] at running; exact nomatch running
    · exact Bool.noConfusion (before.symm.trans quiet)

end

/-! ## Weather (R80, R81) -/

section
variable (w : Weather) (old new : GlobalConfig) (now : Nat)

theorem Weather.rainReached_iff : w.rainReached old new now = true ↔
    w.rainFrom ≠ none ∧
      (w.rainState = .wetting ∧ (old.rainOnDelay ≠ new.rainOnDelay ∧
          ∀ since, w.rainFrom = some since → since + new.rainOnDelay * 1000 ≤ now) ∨
        w.rainState = .drying ∧ (old.rainOffDelay ≠ new.rainOffDelay ∧
          ∀ since, w.rainFrom = some since → since + new.rainOffDelay * 1000 ≤ now)) := by
  unfold Weather.rainReached
  cases w.rainFrom with
  | none => simp
  | some t =>
    simp only [Option.any_some, Bool.and_eq_true, decide_eq_true_eq]
    cases w.rainState <;> simp [rainDelay, second, @eq_comm _ old.rainOnDelay, @eq_comm _ old.rainOffDelay]

theorem Weather.committed_window :
    ((w.committed old new now).pulses, (w.committed old new now).windowStart) =
      if old.windWindow = new.windWindow then (w.pulses, w.windowStart) else (0, now) := by
  unfold Weather.committed Weather.rewound Weather.rainEnded
  split <;> split <;> rfl

theorem Weather.committed_rest :
    (w.committed old new now).lastCount = w.lastCount ∧ (w.committed old new now).lastSample = w.lastSample ∧
      (w.committed old new now).settled = w.settled ∧ (w.committed old new now).storm = w.storm ∧
      (w.committed old new now).smokeWind = w.smokeWind ∧ (w.committed old new now).setRun = w.setRun ∧
      (w.committed old new now).clearRun = w.clearRun := by
  unfold Weather.committed Weather.rewound Weather.rainEnded
  split <;> split <;> exact ⟨rfl, rfl, rfl, rfl, rfl, rfl, rfl⟩

theorem Weather.committed_of_reached (h : w.rainReached old new now = true) :
    (w.committed old new now).rainFrom = none ∧
      (w.committed old new now).rainState = if w.rainState = .wetting then .wet else .dry := by
  rw [Weather.committed, if_pos h]
  unfold Weather.rewound Weather.rainEnded
  split <;> exact ⟨rfl, rfl⟩

theorem Weather.committed_of_unreached (h : ¬ w.rainReached old new now = true) :
    (w.committed old new now).rainFrom = w.rainFrom ∧ (w.committed old new now).rainState = w.rainState := by
  rw [Weather.committed, if_neg h]
  unfold Weather.rewound
  split <;> exact ⟨rfl, rfl⟩

end

/-! ## Errors (R116) -/

theorem flatMap_ite {α β : Type} (l : List α) (w : α → Bool) (e : α → β) :
    (l.flatMap fun n => if w n = true then [e n] else []) = (l.filter w).map e := by
  simpa using flatMap_filter_ite l (fun _ => true) w e

section
variable (c : ChannelId → Channel) (cfg : ChannelId → ChannelConfig)

/-- In use before and after the commit. -/
def staysInUse (n : ChannelId) : Bool := decide ((c n).cfg.cls ≠ .unused) && decide ((cfg n).cls ≠ .unused)

/-- Bound to the same line and node. -/
def boundAlike (n : ChannelId) : Bool := decide ((c n).cfg.line = (cfg n).line) && decide ((c n).cfg.node = (cfg n).node)

theorem commitCase_eq_kept_iff (n : ChannelId) :
    commitCase (c n).cfg (cfg n) = .kept ↔ (staysInUse c cfg n && boundAlike c cfg n) = true := by
  rw [commitCase_eq_kept]; simp [staysInUse, boundAlike, and_assoc]

theorem commitCase_eq_rebound_iff (n : ChannelId) :
    commitCase (c n).cfg (cfg n) = .rebound ↔ (staysInUse c cfg n && !boundAlike c cfg n) = true := by
  rw [commitCase_eq_rebound]; simp [staysInUse, boundAlike, and_assoc, -not_and, not_and_or]

theorem flatMap_unbindingErrors :
    (allChannels.flatMap fun n => unbindingErrors n (c n) (cfg n)) =
      (allChannels.filter fun n => staysInUse c cfg n && !boundAlike c cfg n && decide ((c n).motion ≠ .offline)).map
        fun n => ⟨.fault, .channelOffline, some (.channel n), none⟩ := by
  rw [← flatMap_ite]
  refine List.flatMap_congr fun n _ => ?_
  unfold unbindingErrors
  refine if_congr ?_ rfl rfl
  rw [commitCase_eq_rebound_iff c cfg, Bool.and_eq_true (_ && _), decide_eq_true_iff]

theorem filterMap_limitErrors (now : Nat) :
    ((allChannels.filter fun n => decide (commitCase (c n).cfg (cfg n) = .kept)).filterMap fun n =>
        limitError n ((c n).committed (cfg n) now)) =
      (allChannels.filter fun n => staysInUse c cfg n && boundAlike c cfg n &&
          ((c n).motion == .queued || (c n).motion == .ordering)).filterMap fun n =>
        (c n).travel.bind fun e =>
          if (cfg n).travelLimit ≤ e then some ⟨ruledSeverity (c n), .channelFaulted, some (.channel n), some (.fault (.travelTimeout e))⟩
          else none := by
  rw [List.filterMap_filter, List.filterMap_filter]
  refine List.filterMap_congr fun n _ => ?_
  by_cases kept : commitCase (c n).cfg (cfg n) = .kept
  · have both := (commitCase_eq_kept_iff c cfg n).mp kept
    rw [if_pos (decide_eq_true kept), both, Channel.committed_same _ _ (.inr kept), Bool.true_and]
    unfold limitError
    refine if_congr ?_ rfl rfl
    simp
  · have differ : (staysInUse c cfg n && boundAlike c cfg n) = false :=
      Bool.eq_false_iff.mpr fun h => kept ((commitCase_eq_kept_iff c cfg n).mpr h)
    rw [if_neg (by simpa using kept), differ, Bool.false_and, if_neg Bool.false_ne_true]

end

end Sys2Proof.Machine
end

section
/-! PROOF. O38: a commit makes the pending copy active. -/

namespace Sys2Proof.Machine

section
variable (s : State)

/-- The part on which CONFIG_COMMIT is decided. -/
def State.atCommit : Part := s.grant.part.interrupt (some .configCommit)

theorem State.atCommit_chan (n : ChannelId) : s.atCommit.chan n = s.part.chan n := by simp [State.atCommit]
theorem State.atCommit_line (l : LineId) : s.atCommit.line l = s.part.line l := by simp [State.atCommit]
theorem State.atCommit_zone (z : ZoneId) : s.atCommit.zone z = s.part.zone z := by simp [State.atCommit]
theorem State.atCommit_loop (k : LoopId) : s.atCommit.loop k = s.part.loop k := by
  cases k with
  | zone z => exact congrArg Zone.loop (s.atCommit_zone z)
  | ga => show s.atCommit.ga = s.part.ga; simp [State.atCommit]
theorem State.atCommit_weather : s.atCommit.weather = s.part.weather := by simp [State.atCommit]
theorem State.atCommit_globals : s.atCommit.globals = s.part.globals := by simp [State.atCommit]
theorem State.atCommit_pending : s.atCommit.cmd.pending = s.part.cmd.pending := by simp [State.atCommit]
theorem State.atCommit_generation : s.atCommit.cmd.generation = s.part.cmd.generation := by simp [State.atCommit]
theorem State.atCommit_now : s.atCommit.now = s.part.now := by
  obtain ⟨-, -, -, -, -, -, -, -, -, now⟩ := s.grant_part
  rw [State.atCommit, Part.interrupt_now, now]

/-- Without a latch, and with a pending copy that is valid, the commit is done. -/
theorem State.verdict_configCommit (free : ∀ z : ZoneId, (s.part.zone z).latch = false)
    (valid : validate s.part.cmd.pending = none) : s.verdict .configCommit = done s.atCommit.commit := by
  have unlatched : ¬ s.atCommit.anyLatch = true := fun h => by
    obtain ⟨z, hz⟩ := (Part.anyLatch_iff _).mp h
    rw [s.atCommit_zone, free z] at hz
    exact nomatch hz
  show s.atCommit.configCommit = _
  unfold Part.configCommit
  rw [if_neg unlatched, s.atCommit_pending, valid]

theorem CommandUnit.conclude_copies (u : CommandUnit) (code : Word) (v : Verdict) :
    (u.conclude code v).generation = u.generation ∧ (u.conclude code v).pending = u.pending := ⟨rfl, rfl⟩

/-- A commit counts a generation, and leaves the pending copy. -/
theorem Part.commit_cmd (p : Part) : p.commit.cmd = { p.cmd with generation := p.cmd.generation + 1 } := by
  rw [Part.commit_eq, Part.setCmd_cmd, Part.committed_cmd]

/-- The state after a commit that is done. -/
structure State.Commits (s t : State) : Prop where
  chan : ∀ n, t.part.chan n = s.atCommit.committed.chan n
  line : ∀ l, t.part.line l = s.atCommit.commit.completeQuieting.line l
  zone : ∀ z, t.part.zone z = s.atCommit.committed.zone z
  loop : ∀ k, t.part.loop k = s.atCommit.committed.loop k
  weather : t.part.weather = s.atCommit.committed.weather
  globals : t.part.globals = s.atCommit.committed.globals
  bank : ∀ b, t.part.bank b = s.atCommit.committed.bank b
  cmd : t.part.cmd.outcome = .done ∧ t.part.cmd.generation = s.part.cmd.generation + 1 ∧
    t.part.cmd.pending = s.part.cmd.pending

theorem State.commits (free : ∀ z : ZoneId, (s.part.zone z).latch = false) (valid : validate s.part.cmd.pending = none) :
    s.Commits (s.commanded .configCommit) := by
  have verdict := s.verdict_configCommit free valid
  have cmd := s.commanded_cmd .configCommit
  rw [verdict, Verdict.done_part] at cmd
  have copies := s.atCommit.commit.cmd.conclude_copies (codeOf .configCommit) (done s.atCommit.commit)
  refine ⟨fun n => ?_, fun l => ?_, fun z => ?_, fun k => ?_, ?_, ?_, fun b => ?_, s.commanded_done _ (by rw [verdict]; rfl), ?_, ?_⟩
  · rw [State.commanded_chan, verdict]; rfl
  · rw [State.commanded_line_eq, verdict]; rfl
  · rw [State.commanded_zone, verdict]; rfl
  · cases k with
    | zone z => show ((s.commanded .configCommit).part.zone z).loop = _; rw [State.commanded_zone, verdict]; rfl
    | ga => show (s.commanded .configCommit).part.ga = _; rw [State.commanded_ga, verdict]; rfl
  · rw [State.commanded_weather, verdict]; rfl
  · rw [State.commanded_globals, verdict]; rfl
  · rw [s.commanded_bank_done _ (by rw [verdict]; rfl), verdict]; rfl
  · rw [cmd, copies.1, Part.commit_cmd, s.atCommit_generation]
  · rw [cmd, copies.2, Part.commit_cmd, s.atCommit_pending]

variable {s} {t : State}

theorem State.Commits.bank_channel (h : s.Commits t) :
    let inUse (m : ChannelId) : Bool :=
      decide ((s.part.chan m).cfg.cls ≠ .unused) && decide ((t.part.chan m).cfg.cls ≠ .unused)
    let same (m : ChannelId) : Bool :=
      decide ((s.part.chan m).cfg.line = (t.part.chan m).cfg.line) &&
        decide ((s.part.chan m).cfg.node = (t.part.chan m).cfg.node)
    t.part.bank .channel = ((s.grant.part.bank .channel).takeAll
      ((allChannels.filter (fun m => inUse m && !same m && decide ((s.part.chan m).motion ≠ .offline))).map
        (fun m => ⟨.fault, .channelOffline, some (.channel m), none⟩))).takeAll
      ((allChannels.filter (fun m => inUse m && same m &&
          ((s.part.chan m).motion == .queued || (s.part.chan m).motion == .ordering))).filterMap (fun m =>
        (s.part.chan m).travel.bind (fun e =>
          if (t.part.chan m).cfg.travelLimit ≤ e then
            some ⟨ruledSeverity (s.part.chan m), .channelFaulted, some (.channel m), some (.fault (.travelTimeout e))⟩
          else none))) := by
  dsimp only
  have cfg (m : ChannelId) : (t.part.chan m).cfg = pendingChannel s.atCommit.cmd.pending m := by
    rw [h.chan, Part.committed_cfg]
  have banks : s.atCommit.committed.bank .channel = s.atCommit.limitedChannels.bank .channel := by
    rw [Part.bank, Part.committed_banks]; rfl
  have before : s.atCommit.bank .channel = s.grant.part.bank .channel := Part.interrupt_bank_of_ne _ _ BankId.noConfusion
  have unbound := flatMap_unbindingErrors s.atCommit.chan (pendingChannel s.atCommit.cmd.pending)
  have limits := filterMap_limitErrors s.atCommit.chan (pendingChannel s.atCommit.cmd.pending) s.atCommit.now
  rw [h.bank, banks, Part.limitedChannels_bank, before, Part.keptChannels, unbound, limits]
  simp only [cfg, ← s.atCommit_chan]
  rfl

theorem State.Commits.bank_of_ne (h : s.Commits t) {b : BankId} (hb : b ≠ .channel) : t.part.bank b = s.atCommit.bank b := by
  rw [h.bank, Part.bank, Part.committed_banks]
  exact Part.limitedChannels_bank_of_ne _ hb

/-- R22, R23, R125: the line of a channel that becomes UNUSED or is bound elsewhere. -/
theorem State.Commits.line_left (h : s.Commits t) {n : ChannelId}
    (left : leaves (s.atCommit.chan n).cfg (pendingChannel s.atCommit.cmd.pending n)) :
    (t.part.line (s.part.chan n).cfg.line).queued n = none ∧
      (∀ r, (t.part.line (s.part.chan n).cfg.line).retake = some r → r.channel ≠ n) ∧
      ∀ e, (s.part.line (s.part.chan n).cfg.line).exchange = some e → e.kind.channel = some n →
        (t.part.line (s.part.chan n).cfg.line).exchange = none ∧
        (t.part.line (s.part.chan n).cfg.line).freeAt = e.sentAt.getD s.part.now + 10 := by
  have departed := s.atCommit.committed_departed left
  have lineOf : s.atCommit.lineOf n = (s.part.chan n).cfg.line := by rw [Part.lineOf, s.atCommit_chan]
  have commit : ∀ l, s.atCommit.commit.line l = s.atCommit.committed.line l := fun _ => rfl
  rw [lineOf, s.atCommit_line, s.atCommit_now] at departed
  have gone := Line.FreeOf.completeQuieting (p := s.atCommit.commit) (commit _ ▸ departed.gone)
  obtain ⟨-, -, exchange, -, -, -, freeAt, -⟩ :=
    Part.completeQuieting_line_fields s.atCommit.commit (s.part.chan n).cfg.line
  rw [h.line]
  refine ⟨by rw [Line.queued_eq, gone.orders]; rfl, fun r hr hc => gone.retake ⟨r, hr, hc⟩, fun e hx hk => ?_⟩
  rw [exchange, freeAt, commit]
  refine departed.idle _ ?_
  rw [Line.freeAfter, Line.flightOf_eq_some.mpr ⟨hx, hk⟩]
  rfl

/-- R80, R81: the weather under the new globals. -/
theorem State.Commits.weather_committed (h : s.Commits t) :
    t.part.weather = s.part.weather.committed s.part.globals t.part.globals s.part.now := by
  rw [h.weather, h.globals, Part.committed_weather, Part.committed_globals, s.atCommit_weather, s.atCommit_globals,
    s.atCommit_now]

/-- R46: every loop under its new configuration. -/
theorem State.Commits.loop_configured (h : s.Commits t) (k : LoopId) :
    t.part.loop k = (s.part.loop k).configure (pendingLoop s.part.cmd.pending k) s.part.now := by
  rw [h.loop, Part.committed_loop, s.atCommit_loop, s.atCommit_pending, s.atCommit_now]

theorem State.Commits.zone_configured (h : s.Commits t) (z : ZoneId) :
    t.part.zone z = (s.part.zone z).configured s.part.cmd.pending z s.part.now := by
  rw [h.zone, Part.committed_zone, s.atCommit_zone, s.atCommit_pending, s.atCommit_now]

theorem State.Commits.globals_pending (h : s.Commits t) : t.part.globals = pendingGlobals s.part.cmd.pending := by
  rw [h.globals, Part.committed_globals, s.atCommit_pending]

theorem State.Commits.cfg (h : s.Commits t) (n : ChannelId) :
    (t.part.chan n).cfg = pendingChannel s.part.cmd.pending n := by
  rw [h.chan, Part.committed_cfg, s.atCommit_pending]

theorem State.Commits.settled (h : s.Commits t) (n : ChannelId) : t.part.Settled n := by
  have settled := s.atCommit.committed_settled n
  unfold Part.Settled at *
  rw [h.chan, h.weather, h.zone]
  exact settled

theorem State.Commits.captures (h : s.Commits t) (n : ChannelId) :
    (t.part.chan n).requested = (s.part.chan n).requested ∧ (t.part.chan n).notifyWord = (s.part.chan n).notifyWord := by
  have keeps := (Part.KeepsCaptures.refl s.atCommit).commit
  rw [h.chan, ← s.atCommit_chan]
  exact ⟨keeps.requested n, keeps.notifyWord n⟩

end

/-! ## The clauses of the statement -/

section
variable {s t : State} (h : s.Commits t) (n : ChannelId)
include h

theorem State.Commits.toUnused (used : (s.part.chan n).cfg.cls ≠ .unused) (unused : (t.part.chan n).cfg.cls = .unused) :
    let d := t.part.chan n
    d.motion = .unused ∧ d.position = none ∧ d.report = none ∧ d.travel = none ∧ d.fault = none ∧ d.miss = 0 ∧
      d.governing = .none ∧ d.granted = none := by
  rw [h.chan, Part.committed_cfg] at unused
  rw [← s.atCommit_chan] at used
  dsimp only
  rw [h.chan, Part.committed_toUnused (commitCase_eq_toUnused.mpr ⟨used, unused⟩)]
  exact ⟨rfl, rfl, rfl, rfl, rfl, rfl, rfl, rfl⟩

theorem State.Commits.toOffline (used : (t.part.chan n).cfg.cls ≠ .unused)
    (bound : (s.part.chan n).cfg.cls = .unused ∨ (s.part.chan n).cfg.line ≠ (t.part.chan n).cfg.line ∨
      (s.part.chan n).cfg.node ≠ (t.part.chan n).cfg.node) :
    let d := t.part.chan n
    d.motion = .offline ∧ d.position = none ∧ d.report = none ∧ d.travel = none ∧ d.fault = none ∧ d.miss = 0 ∧
      d.supDue = true := by
  rw [h.chan, Part.committed_cfg] at used bound
  rw [← s.atCommit_chan] at bound
  dsimp only
  have case : commitCase (s.atCommit.chan n).cfg (pendingChannel s.atCommit.cmd.pending n) = .fromUnused ∨
      commitCase (s.atCommit.chan n).cfg (pendingChannel s.atCommit.cmd.pending n) = .rebound := by
    by_cases before : (s.atCommit.chan n).cfg.cls = .unused
    · exact .inl (commitCase_eq_fromUnused.mpr ⟨before, used⟩)
    · exact .inr (commitCase_eq_rebound.mpr ⟨before, used, not_and_or.mpr (bound.resolve_left before)⟩)
  rw [h.chan, Part.committed_offline case]
  exact ⟨rfl, rfl, rfl, rfl, rfl, rfl, rfl⟩

theorem State.Commits.leaves (used : (s.part.chan n).cfg.cls ≠ .unused)
    (away : (t.part.chan n).cfg.cls = .unused ∨ (s.part.chan n).cfg.line ≠ (t.part.chan n).cfg.line ∨
      (s.part.chan n).cfg.node ≠ (t.part.chan n).cfg.node) :
    Machine.leaves (s.atCommit.chan n).cfg (pendingChannel s.atCommit.cmd.pending n) := by
  rw [h.chan, Part.committed_cfg] at away
  rw [← s.atCommit_chan] at away used
  by_cases after : (pendingChannel s.atCommit.cmd.pending n).cls = .unused
  · exact .inl (commitCase_eq_toUnused.mpr ⟨used, after⟩)
  · exact .inr (commitCase_eq_rebound.mpr ⟨used, after, not_and_or.mpr (away.resolve_left after)⟩)

theorem State.Commits.leftRecord (left : Machine.leaves (s.atCommit.chan n).cfg (pendingChannel s.atCommit.cmd.pending n)) :
    (t.part.chan n).lastFault =
        (if (s.part.chan n).fault = none then (s.part.chan n).lastFault else (s.part.chan n).fault) ∧
      (t.part.chan n).shortMark = false ∧ (t.part.chan n).accepted = none := by
  rw [h.chan, ← s.atCommit_chan]
  exact Part.committed_left left

theorem State.Commits.kept (used : (s.part.chan n).cfg.cls ≠ .unused) (used' : (t.part.chan n).cfg.cls ≠ .unused)
    (line : (s.part.chan n).cfg.line = (t.part.chan n).cfg.line) (node : (s.part.chan n).cfg.node = (t.part.chan n).cfg.node) :
    commitCase (s.atCommit.chan n).cfg (pendingChannel s.atCommit.cmd.pending n) = .kept := by
  rw [h.chan, Part.committed_cfg] at used' line node
  rw [← s.atCommit_chan] at used line node
  exact commitCase_eq_kept.mpr ⟨used, used', line, node⟩

/-- R21, R132: the clauses of a channel that keeps its line and node. -/
theorem State.Commits.keptRecord (kept : commitCase (s.atCommit.chan n).cfg (pendingChannel s.atCommit.cmd.pending n) = .kept) :
    let c := s.part.chan n
    let d := t.part.chan n
    d.position = c.position ∧ d.report = c.report ∧
      (supervised c.motion = true → d.supFrom = c.supFrom ∧
        (d.supDue = true ↔ c.supDue = true ∨ (s.part.globals.supervisionInterval ≠ t.part.globals.supervisionInterval ∧
          ∃ since, c.supFrom = some since ∧ since + t.part.globals.supervisionInterval * 1000 ≤ s.part.now))) ∧
      (∀ e, c.travel = some e → d.cfg.travelLimit ≤ e →
        (c.motion = .queued ∨ c.motion = .ordering →
          d.motion = .faulted ∧ d.fault = some (.travelTimeout e) ∧ d.travel = none ∧ d.accepted = none ∧
          d.shortMark = false) ∧
        (c.motion = .moving → d.motion = .halting ∧ d.travel = none ∧ d.accepted = none)) ∧
      ((∀ e, c.travel = some e → e < d.cfg.travelLimit) → c.motion = .idle ∨ c.motion = .queued →
        d.motion = (if withinTolerance d d.granted = true then .idle else .queued) ∧ d.fault = c.fault) ∧
      ((∀ e, c.travel = some e → e < d.cfg.travelLimit) → c.motion = .ordering ∨ c.motion = .moving →
        d.motion = c.motion ∧ d.fault = c.fault ∧ d.travel = c.travel ∧ d.accepted = c.accepted) ∧
      (c.motion = .halting ∨ c.motion = .faulted ∨ c.motion = .offline →
        d.motion = c.motion ∧ d.fault = c.fault ∧ d.lastFault = c.lastFault) := by
  dsimp only
  rw [h.chan, h.globals, Part.committed_globals, Part.committed_cfg, ← s.atCommit_chan, ← s.atCommit_globals, ← s.atCommit_now]
  obtain ⟨position, report⟩ := Part.kept_place kept
  exact ⟨position, report, Part.kept_supervised kept,
    fun e he hl => ⟨Part.kept_expired_pending kept he hl, Part.kept_expired_moving kept he hl⟩,
    fun below hm => Part.kept_reviewed kept below hm, fun below hm => Part.kept_underWay kept below hm,
    fun hm => Part.kept_settled kept hm⟩

end

/-- Settles O38: the commit in its stages, channel by channel. -/
theorem configCommitMakesThePendingCopyActive : Obligations.ConfigCommitMakesThePendingCopyActive := by
  intro s hr free valid words
  have h := s.commits free valid
  obtain ⟨outcome, generation, pending⟩ := h.cmd
  refine ⟨s.commanded .configCommit, ?next, outcome, generation, pending, h.globals_pending, fun z => ?zones, fun k => ?loops,
    h.bank_channel, ?gate, fun b hg hc => ?banks, fun n => ?channels, ?weather, s.commanded_wordAt _, s.commanded_writesOnly _⟩
  case next => rw [← State.writeCommand_eq_commanded _ hr]; rfl
  case zones =>
    rw [h.zone_configured]
    exact ⟨FireLoop.configure_cfg _ _ _, rfl, free z, rfl⟩
  case loops =>
    dsimp only
    rw [h.loop_configured, FireLoop.configure_cfg, FireLoop.configure_state, ← alarmCondition_iff, ← alarmCondition_iff]
    exact ⟨rfl, rfl, fun same => by rw [FireLoop.configure_of_eq _ _ _ same],
      FireLoop.configure_timer_starts s.part.now, FireLoop.configure_timer_stops s.part.now⟩
  case gate => rw [h.bank_of_ne BankId.noConfusion]; exact Part.interrupt_bank_gate _ _ rfl
  case banks => rw [h.bank_of_ne hc]; exact Part.interrupt_bank_of_ne _ _ hg
  case channels =>
    obtain ⟨requested, notifyWord⟩ := h.captures n
    exact ⟨h.cfg n, h.settled n, requested, notifyWord, h.toUnused n, h.toOffline n, fun used away =>
      have left := h.leaves n used away
      have ⟨lastFault, shortMark, accepted⟩ := h.leftRecord n left
      ⟨lastFault, shortMark, accepted, h.line_left left⟩,
      fun used used' line node => h.keptRecord n (h.kept n used used' line node)⟩
  case weather =>
    rw [h.weather_committed]
    obtain ⟨count, sample, settled, storm, smokeWind, setRun, clearRun⟩ :=
      s.part.weather.committed_rest s.part.globals (s.commanded .configCommit).part.globals s.part.now
    have reached := s.part.weather.rainReached_iff s.part.globals (s.commanded .configCommit).part.globals s.part.now
    exact ⟨Weather.committed_window _ _ _ _, count, sample, settled, storm, smokeWind, setRun, clearRun,
      fun expires => Weather.committed_of_reached _ _ _ _ (reached.mpr expires),
      fun stays => Weather.committed_of_unreached _ _ _ _ fun k => stays (reached.mp k)⟩

end Sys2Proof.Machine
end

section
/-! SUPPORT. The stages of a latch setting (R30, R36, R53 to R57): the freezes, the recomputation and the fresh attempts of the
zone's channels, and the return of the lines to RUN. -/

namespace Sys2Proof.Machine

/-! ## Steps on channels and their queues -/

/-- Besides channel records, queues, exchanges, retakes and banks nothing differs, and no channel's configuration does. -/
structure Part.ChannelWork (p q : Part) : Prop where
  cfg : ∀ n, (q.chan n).cfg = (p.chan n).cfg
  state : ∀ l, (q.line l).state = (p.line l).state
  test : ∀ l, (q.line l).test = (p.line l).test
  units : p.SameUnits q
  notices : p.SameNotices q

theorem Line.QueueOnly.test {x y : Line} (h : x.QueueOnly y) : y.test = x.test := by
  unfold Line.QueueOnly at h; rw [← h]

section
variable {p q r : Part} {n : ChannelId}

theorem Part.QueueWork.test (h : p.QueueWork n q) (l : LineId) : (q.line l).test = (p.line l).test := by
  by_cases e : l = p.lineOf n
  · exact e ▸ h.own.test
  · rw [h.other l e]

theorem Part.ChannelWork.refl (p : Part) : p.ChannelWork p :=
  ⟨fun _ => rfl, fun _ => rfl, fun _ => rfl, .refl p, ⟨rfl, rfl⟩⟩

theorem Part.ChannelWork.trans (h : p.ChannelWork q) (k : q.ChannelWork r) : p.ChannelWork r where
  cfg n := (k.cfg n).trans (h.cfg n)
  state l := (k.state l).trans (h.state l)
  test l := (k.test l).trans (h.test l)
  units := h.units.trans k.units
  notices := ⟨k.notices.1.trans h.notices.1, k.notices.2.trans h.notices.2⟩

theorem Part.ChannelWork.of_queueWork (work : p.QueueWork n q) (cfg : ∀ m, (q.chan m).cfg = (p.chan m).cfg)
    (units : p.SameUnits q) : p.ChannelWork q :=
  ⟨cfg, work.state, work.test, units, work.notices, work.noticeAcks⟩

theorem Part.ChannelWork.forEach {act : ChannelId → Part → Part} (p : Part) (ns : List ChannelId)
    (step : ∀ (n : ChannelId) (q : Part), q.ChannelWork (act n q)) : p.ChannelWork (p.forEach ns act) :=
  Part.forEach_inv (inv := p.ChannelWork) (fun n q _ h => h.trans (step n q)) (.refl p)

end

section
variable (p : Part) (z : ZoneId)

theorem Part.channelsOf_nodup : (p.channelsOf z).Nodup := allChannels_nodup.filter _

theorem Part.mem_channelsOf {n : ChannelId} : n ∈ p.channelsOf z ↔ (p.chan n).cfg.zone = z := by
  rw [Part.channelsOf, List.mem_filter, and_iff_right (mem_allChannels n), decide_eq_true_iff]

end

/-! ## The freezes (R30) -/

/-- R30: a HOLD channel in use freezes its granted target. -/
def Channel.frozen (c : Channel) : Channel :=
  if c.cfg.cls ≠ .unused ∧ c.cfg.smokeAction = .holds then { c with freeze := c.granted } else c

theorem Channel.frozen_of_hold {c : Channel} (used : c.cfg.cls ≠ .unused) (hold : c.cfg.smokeAction = .holds) :
    c.frozen = { c with freeze := c.granted } := if_pos ⟨used, hold⟩

theorem Channel.frozen_of_acting {c : Channel} (acts : c.cfg.smokeAction ≠ .holds) : c.frozen = c := if_neg fun h => acts h.2

/-- The freeze of one channel. -/
def Part.takeFreeze (p : Part) (n : ChannelId) : Part :=
  if (p.chan n).cfg.cls ≠ .unused ∧ (p.chan n).cfg.smokeAction = .holds then
    p.modChan n (fun c => { c with freeze := c.granted })
  else p

section
variable (p : Part) (z : ZoneId) (n : ChannelId)

theorem Part.takeFreezes_eq : p.takeFreezes z = p.forEach (p.channelsOf z) fun n q => q.takeFreeze n := rfl

theorem Part.takeFreeze_chan_self : (p.takeFreeze n).chan n = (p.chan n).frozen := by
  unfold Part.takeFreeze Channel.frozen
  split
  · exact p.chan_modChan_self n _
  · rfl

theorem Part.takeFreeze_onlyChan : p.OnlyChan n (p.takeFreeze n) := by
  unfold Part.takeFreeze
  split
  · exact (Part.OnlyChan.refl p).modChan _
  · exact .refl p

theorem Part.takeFreeze_work : p.ChannelWork (p.takeFreeze n) := by
  unfold Part.takeFreeze
  split
  · have work : p.QueueWork n (p.modChan n fun c => { c with freeze := c.granted }) :=
      (Part.QueueWork.refl p).modChan _ fun _ => rfl
    refine .of_queueWork work (fun m => ?_) ((Part.SameUnits.refl p).modChan _)
    by_cases e : m = n
    · exact e ▸ work.cfg
    · rw [Part.chan_modChan, if_neg e]
  · exact .refl p

theorem Part.takeFreezes_work : p.ChannelWork (p.takeFreezes z) := .forEach p _ fun n q => q.takeFreeze_work n

theorem Part.takeFreezes_chan :
    (p.takeFreezes z).chan n = if (p.chan n).cfg.zone = z then (p.chan n).frozen else p.chan n := by
  rw [Part.takeFreezes_eq, Part.forEach_chan (inv := fun _ => True) (f := fun _ c => c.frozen) (p.channelsOf_nodup z)
    (fun _ _ _ _ => trivial) (fun n q _ _ => q.takeFreeze_chan_self n) (fun n q => q.takeFreeze_onlyChan n) trivial n]
  simp only [Part.mem_channelsOf]

end

/-! ## The recomputation (R36) -/

section
variable (p : Part) (z : ZoneId)

theorem Part.recompute_work (n : ChannelId) : p.ChannelWork (p.recompute n) :=
  .of_queueWork (.of_recompute p n) (p.recompute_onlyGrants n).cfg (Part.Reconsiders.recompute p n).units

theorem Part.recomputeZone_work : p.ChannelWork (p.recomputeZone z) := .forEach p _ fun n q => q.recompute_work n

theorem Part.Reconsiders.recomputeZone : p.Reconsiders (p.recomputeZone z) :=
  Part.forEach_inv (inv := p.Reconsiders) (fun n q _ h => h.trans (.recompute q n)) (.refl p)

theorem Part.recomputeZone_onlyGrants : p.OnlyGrants (p.recomputeZone z) := p.recomputeList_onlyGrants _

theorem Part.recomputeZone_chan_of_ne {n : ChannelId} (h : (p.chan n).cfg.zone ≠ z) : (p.recomputeZone z).chan n = p.chan n :=
  p.recomputeList_other _ n fun k => h ((p.mem_channelsOf z).1 k)

end

/-! ## The fresh attempts (R55) -/

/-- R55: the record of a channel after its fresh attempt. -/
def Channel.attempted (c : Channel) (out : Bool) (now : Nat) : Channel :=
  if c.cfg.smokeAction = .holds then c else c.cleared out now

/-- R18: a channel that is freed is FAULTED no more. -/
theorem Channel.cleared_motion (c : Channel) (out : Bool) (now : Nat) : (c.cleared out now).motion ≠ .faulted := by
  unfold Channel.cleared
  split
  · cases out with
    | true => exact fun h => Motion.noConfusion h
    | false =>
      show ((c.unfaulted.enter now .idle).tested now).motion ≠ .faulted
      unfold Channel.tested
      split <;> exact fun h => Motion.noConfusion h
  next h => exact h

/-- The fresh attempt of one channel. -/
def Part.freshAttempt (p : Part) (n : ChannelId) : Part :=
  if (p.chan n).cfg.smokeAction = .holds then p else p.clearFault n

section
variable (p : Part) (z : ZoneId) (n : ChannelId)

theorem Part.freshAttempts_eq : p.freshAttempts z = p.forEach (p.channelsOf z) fun n q => q.freshAttempt n := by
  unfold Part.freshAttempts
  congr 1
  funext n q
  unfold Part.freshAttempt Part.clearFault
  by_cases hold : (q.chan n).cfg.smokeAction = .holds
  · rw [if_pos hold, if_neg fun h => h.2 hold]
  · simp only [hold, ne_eq, not_false_eq_true, and_true, if_false]

theorem Part.clearFault_test (l : LineId) : ((p.clearFault n).line l).test = (p.line l).test := by
  have unfaulted : p.QueueWork n (p.modChan n Channel.unfaulted) := (Part.QueueWork.refl p).modChan _ fun _ => rfl
  unfold Part.clearFault
  split
  · rw [Part.leaveFaulted_eq]
    split
    · exact (unfaulted.forgetPosition.setMotion .offline).test l
    · exact (unfaulted.setMotion .idle).testIdle.test l
  · rfl

theorem Part.clearFault_work : p.ChannelWork (p.clearFault n) :=
  have free := Part.Freeing.clearFault p n
  ⟨free.cfg, free.state, p.clearFault_test n, .of_keepsGrants (p.clearFault_keepsGrants n) free.now, free.notices,
    free.noticeAcks⟩

theorem Part.freshAttempt_work : p.ChannelWork (p.freshAttempt n) := by
  unfold Part.freshAttempt; split; exacts [.refl p, p.clearFault_work n]

theorem Part.freshAttempt_keepsGrants : p.KeepsGrants (p.freshAttempt n) := by
  unfold Part.freshAttempt; split; exacts [.refl p, p.clearFault_keepsGrants n]

theorem Part.freshAttempt_onlyChan : p.OnlyChan n (p.freshAttempt n) := by
  unfold Part.freshAttempt; split; exacts [.refl p, p.clearFault_onlyChan n]

theorem Part.freshAttempt_chan_self :
    (p.freshAttempt n).chan n = (p.chan n).attempted (LineState.isOut (p.line (p.lineOf n)).state) p.now := by
  unfold Part.freshAttempt Channel.attempted; split; exacts [rfl, p.clearFault_chan_self n]

theorem Part.freshAttempts_work : p.ChannelWork (p.freshAttempts z) := by
  rw [Part.freshAttempts_eq]
  exact .forEach p _ fun n q => q.freshAttempt_work n

theorem Part.freshAttempts_keepsGrants : p.KeepsGrants (p.freshAttempts z) := by
  rw [Part.freshAttempts_eq]
  exact (Part.KeepsGrants.refl p).forEach _ _ fun n q => q.freshAttempt_keepsGrants n

theorem Part.freshAttempts_chan :
    (p.freshAttempts z).chan n =
      if (p.chan n).cfg.zone = z then (p.chan n).attempted (LineState.isOut (p.line (p.lineOf n)).state) p.now
      else p.chan n := by
  rw [Part.freshAttempts_eq, Part.forEach_chan (inv := p.ChannelWork)
    (f := fun n c => c.attempted (LineState.isOut (p.line (p.lineOf n)).state) p.now) (p.channelsOf_nodup z)
    (fun n q _ h => h.trans (q.freshAttempt_work n)) (fun n q _ h => ?_) (fun n q => q.freshAttempt_onlyChan n) (.refl p) n]
  · simp only [Part.mem_channelsOf]
  · have lineOf : q.lineOf n = p.lineOf n := congrArg ChannelConfig.line (h.cfg n)
    rw [Part.freshAttempt_chan_self, lineOf, h.state, h.units.now]

end

/-! ## The lines (R56, R138) -/

/-- R138: the state of a line after a latch setting. -/
def LineState.latched : LineState → LineState
  | .run | .quieting | .quiet | .test => .run
  | .disabled => .disabled
  | .failed => .failed

/-- R125, R138, R149: a line after a latch setting. -/
def Line.latched (x : Line) (now : Nat) : Line :=
  match x.state with
  | .quieting | .quiet => x.enter now .run
  | .test => (x.abandoned now).aborted.enter now .run
  | .run | .disabled | .failed => x

theorem LineState.latched_latched (x : LineState) : x.latched.latched = x.latched := by cases x <;> rfl
theorem LineState.latched_ne_quieting (x : LineState) : x.latched ≠ .quieting := by cases x <;> exact nofun

theorem Line.aborted_of_ne {x : Line} (h : x.state ≠ .test) : x.aborted = x := if_neg h

/-- A latch setting leaves no line in TEST, so that the next one aborts no test. -/
theorem Line.aborted_of_latched {x y : Line} (h : y.state = x.state.latched) : y.aborted = y := by
  refine Line.aborted_of_ne ?_
  rw [h]
  cases x.state <;> exact nofun

theorem Line.latched_state (x : Line) (now : Nat) : (x.latched now).state = x.state.latched := by
  unfold Line.latched
  cases h : x.state with
  | run | disabled | failed => exact h
  | _ => rfl

theorem Line.abandoned_aborted_test (x : Line) (now : Nat) : (x.abandoned now).aborted.test = x.aborted.test := by
  rw [Line.abandoned_eq]
  unfold Line.aborted
  dsimp only
  split <;> rfl

theorem Line.latched_test (x : Line) (now : Nat) : (x.latched now).test = x.aborted.test := by
  unfold Line.latched
  cases h : x.state with
  | test => exact x.abandoned_aborted_test now
  | run | quieting | quiet | disabled | failed =>
    have stands : x.aborted = x := Line.aborted_of_ne (by rw [h]; exact nofun)
    show x.test = x.aborted.test
    rw [stands]

/-- Besides lines and banks nothing differs. -/
structure Part.LinesOnly (p q : Part) : Prop where
  chans : q.chans = p.chans
  units : p.SameUnits q
  notices : p.SameNotices q

section
variable {p q r : Part}

theorem Part.LinesOnly.refl (p : Part) : p.LinesOnly p := ⟨rfl, .refl p, rfl, rfl⟩
theorem Part.LinesOnly.trans (h : p.LinesOnly q) (k : q.LinesOnly r) : p.LinesOnly r :=
  ⟨k.chans.trans h.chans, h.units.trans k.units, k.notices.1.trans h.notices.1, k.notices.2.trans h.notices.2⟩
theorem Part.LinesOnly.chan (h : p.LinesOnly q) (n : ChannelId) : q.chan n = p.chan n := by rw [Part.chan, h.chans]; rfl

end

section
variable (p : Part) (l : LineId)

theorem Part.LinesOnly.modLine (f : Line → Line) : p.LinesOnly (p.modLine l f) :=
  ⟨rfl, (Part.SameUnits.refl p).modLine l f, rfl, rfl⟩

theorem Part.LinesOnly.abandon : p.LinesOnly (p.abandon l) := by
  unfold Part.abandon; split; exacts [.modLine p l _, .refl p]

theorem Part.LinesOnly.abortTest : p.LinesOnly (p.abortTest l) := by
  unfold Part.abortTest
  split
  · exact (Part.LinesOnly.modLine p l _).trans ⟨rfl, (Part.SameUnits.refl _).record _ _, rfl, rfl⟩
  · exact .refl p

theorem Part.LinesOnly.latchLine : p.LinesOnly (p.latchLine l) := by
  unfold Part.latchLine
  split
  · exact .modLine p l _
  · exact .modLine p l _
  · exact ((Part.LinesOnly.abandon p l).trans (.abortTest _ l)).trans (.modLine _ l _)
  all_goals exact .refl p

theorem Part.LinesOnly.latchLines : p.LinesOnly p.latchLines :=
  foldl_keeps Part.LinesOnly.refl Part.LinesOnly.trans (fun q l => .latchLine q l) _ p

theorem Part.latchLines_keepsGrants : p.KeepsGrants p.latchLines :=
  foldl_keeps Part.KeepsGrants.refl Part.KeepsGrants.trans (fun q l => (Part.KeepsGrants.refl q).latchLine l) _ p

theorem Part.latchLine_line (k : LineId) :
    (p.latchLine l).line k = if k = l then (p.line l).latched p.now else p.line k := by
  have stands : p.line k = if k = l then p.line l else p.line k := by split <;> simp_all
  unfold Part.latchLine Line.latched
  cases h : (p.line l).state with
  | quieting | quiet => exact p.enterLine_line .run k
  | test =>
    rw [Part.enterLine_line, Part.abortTest_line, Part.abortTest_line, Part.abandon_line, Part.abandon_line, if_pos rfl,
      if_pos rfl, Part.abortTest_now, Part.abandon_now]
    split <;> rfl
  | run | disabled | failed => exact stands

theorem Part.foldl_latchLine_line {ls : List LineId} (nd : ls.Nodup) :
    (ls.foldl (fun q l => q.latchLine l) p).line l = if l ∈ ls then (p.line l).latched p.now else p.line l := by
  induction ls generalizing p with
  | nil => rfl
  | cons k ls ih =>
    obtain ⟨fresh, nd⟩ := List.nodup_cons.1 nd
    refine (ih (p.latchLine k) nd).trans ?_
    rw [Part.latchLine_line, (Part.LinesOnly.latchLine p k).units.now]
    by_cases e : l = k
    · subst e; rw [if_neg fresh, if_pos rfl, if_pos (.head ls)]
    · rw [if_neg e]; simp only [List.mem_cons, e, false_or]

theorem Part.latchLines_line : p.latchLines.line l = (p.line l).latched p.now :=
  (p.foldl_latchLine_line l (List.nodup_finRange 4)).trans (if_pos (List.mem_finRange l))

end

end Sys2Proof.Machine
end

section
/-! SUPPORT. The latch setting of one zone, and those of a loop's qualification (R30, R36, R52 to R57). -/

namespace Sys2Proof.Machine

/-! ## One latch setting -/

/-- Loops, clock, weather, globals, Command Unit and notices are as they were. -/
structure Part.SameButLatches (p q : Part) : Prop where
  loop : ∀ k, q.loop k = p.loop k
  now : q.now = p.now
  weather : q.weather = p.weather
  globals : q.globals = p.globals
  cmd : q.cmd = p.cmd
  notices : p.SameNotices q

/-- R30, R55: the record of a channel in a zone whose latch is newly set. -/
structure Channel.LatchedTo (c d : Channel) : Prop where
  cfg : d.cfg = c.cfg
  freeze : c.cfg.cls ≠ .unused → c.cfg.smokeAction = .holds → d.freeze = c.granted
  freed : c.motion = .faulted → c.cfg.smokeAction ≠ .holds → d.fault = none ∧ d.lastFault = c.fault ∧ d.motion ≠ .faulted

/-- R56, R138, R149: a line that a latch setting has reached. -/
structure Line.LatchedTo (x y : Line) : Prop where
  state : y.state = x.state.latched
  test : y.test = x.aborted.test

theorem Part.SameButLatches.refl (p : Part) : p.SameButLatches p := ⟨fun _ => rfl, rfl, rfl, rfl, rfl, rfl, rfl⟩

theorem Part.SameButLatches.trans {p q r : Part} (h : p.SameButLatches q) (k : q.SameButLatches r) : p.SameButLatches r where
  loop j := (k.loop j).trans (h.loop j)
  now := k.now.trans h.now
  weather := k.weather.trans h.weather
  globals := k.globals.trans h.globals
  cmd := k.cmd.trans h.cmd
  notices := ⟨k.notices.1.trans h.notices.1, k.notices.2.trans h.notices.2⟩

/-- A second latch setting finds the line in RUN or out of service. -/
theorem Line.LatchedTo.trans {x y z : Line} (h : x.LatchedTo y) (k : y.LatchedTo z) : x.LatchedTo z where
  state := by rw [k.state, h.state, LineState.latched_latched]
  test := by rw [k.test, Line.aborted_of_latched h.state, h.test]

/-- R53, R57: the latch and the deadline, before the zone's channels are treated. -/
def Part.startDeadline (p : Part) (z : ZoneId) : Part := p.modZone z fun x => x.setLatch p.now

/-- The zone's channels, before the lines return to RUN. -/
def Part.latchChannels (p : Part) (z : ZoneId) : Part := (((p.startDeadline z).takeFreezes z).recomputeZone z).freshAttempts z

section
variable (p : Part) (z : ZoneId)

theorem Part.setLatch_eq : p.setLatch z = (p.latchChannels z).latchLines := rfl

theorem Part.latchChannels_work : (p.startDeadline z).ChannelWork (p.latchChannels z) :=
  (((p.startDeadline z).takeFreezes_work z).trans (Part.recomputeZone_work _ z)).trans (Part.freshAttempts_work _ z)

theorem Part.setLatch_units : (p.startDeadline z).SameUnits (p.setLatch z) :=
  (p.latchChannels_work z).units.trans (Part.LinesOnly.latchLines _).units

theorem Part.setLatch_chan (n : ChannelId) : (p.setLatch z).chan n = (p.latchChannels z).chan n :=
  (Part.LinesOnly.latchLines _).chan n

theorem Part.setLatch_zone (y : ZoneId) : (p.setLatch z).zone y = if y = z then (p.zone z).setLatch p.now else p.zone y :=
  ((p.setLatch_units z).zone y).trans (p.zone_modZone z y _)

theorem Part.SameButLatches.setLatch : p.SameButLatches (p.setLatch z) where
  loop
    | .zone y => by
      show ((p.setLatch z).zone y).loop = (p.zone y).loop
      rw [Part.setLatch_zone]
      split
      next e => rw [e]; rfl
      next => rfl
    | .ga => (p.setLatch_units z).ga
  now := (p.setLatch_units z).now
  weather := (p.setLatch_units z).weather
  globals := (p.setLatch_units z).globals
  cmd := (p.setLatch_units z).cmd
  notices :=
    have lines := (Part.LinesOnly.latchLines (p.latchChannels z)).notices
    have channels := (p.latchChannels_work z).notices
    ⟨lines.1.trans channels.1, lines.2.trans channels.2⟩

/-- R56: every line, by the latch setting. -/
theorem Part.setLatch_line (l : LineId) : (p.line l).LatchedTo ((p.setLatch z).line l) := by
  have channels := p.latchChannels_work z
  have line : (p.setLatch z).line l = ((p.latchChannels z).line l).latched (p.latchChannels z).now := Part.latchLines_line _ l
  have state : ((p.latchChannels z).line l).state = (p.line l).state := channels.state l
  have test : ((p.latchChannels z).line l).test = (p.line l).test := channels.test l
  refine ⟨by rw [line, Line.latched_state, state], ?_⟩
  rw [line, Line.latched_test]
  unfold Line.aborted
  rw [state]
  split
  · exact congrArg (fun t : LineTest => { t with result := some .aborted }) test
  · exact test

/-- Channels of other zones stand. -/
theorem Part.setLatch_chan_of_ne {n : ChannelId} (h : (p.chan n).cfg.zone ≠ z) : (p.setLatch z).chan n = p.chan n := by
  have frozen : ((p.startDeadline z).takeFreezes z).chan n = p.chan n := by
    rw [Part.takeFreezes_chan]; exact if_neg h
  have granted : (((p.startDeadline z).takeFreezes z).recomputeZone z).chan n = p.chan n := by
    rw [Part.recomputeZone_chan_of_ne _ z (by rwa [frozen]), frozen]
  rw [Part.setLatch_chan, Part.latchChannels, Part.freshAttempts_chan, granted, if_neg h]

/-- R36: the zone's channels hold the result of the governing order. -/
theorem Part.setLatch_settled {n : ChannelId} (h : (p.chan n).cfg.zone = z) : (p.setLatch z).Settled n := by
  have zone : (((p.startDeadline z).takeFreezes z).chan n).cfg.zone = z := by
    rw [((p.startDeadline z).takeFreezes_work z).cfg]; exact h
  exact (Part.recomputeZone_settled _ z n zone).keepsGrants
    ((Part.freshAttempts_keepsGrants _ z).trans (Part.latchLines_keepsGrants _))

/-- R30, R55: the records of the zone's channels: the freeze stands through recomputation and fresh attempt, and the fault until
its attempt. -/
theorem Part.setLatch_chan_latched {n : ChannelId} (h : (p.chan n).cfg.zone = z) :
    (p.chan n).LatchedTo ((p.setLatch z).chan n) := by
  have frozen : ((p.startDeadline z).takeFreezes z).chan n = (p.chan n).frozen := by
    rw [Part.takeFreezes_chan]; exact if_pos h
  have regranted := (Part.Reconsiders.recomputeZone ((p.startDeadline z).takeFreezes z) z).chan n
  have cfg : ((p.latchChannels z).chan n).cfg = (p.chan n).cfg := (p.latchChannels_work z).cfg n
  rw [Part.setLatch_chan]
  refine ⟨cfg, fun used hold => ?freeze, fun faulted acts => ?freed⟩
  case freeze =>
    rw [Part.latchChannels, (Part.freshAttempts_keepsGrants _ z).freeze, (Part.recomputeZone_onlyGrants _ z).freeze, frozen,
      Channel.frozen_of_hold used hold]
  case freed =>
    rw [frozen, Channel.frozen_of_acting acts] at regranted
    have motion := regranted.motion (by rw [faulted]; exact nofun) (by rw [faulted]; exact nofun)
    rw [Part.latchChannels, Part.freshAttempts_chan, regranted.cfg, if_pos h, Channel.attempted, regranted.cfg, if_neg acts]
    obtain ⟨fault, lastFault, -⟩ := Channel.cleared_fields (motion.trans faulted) _ _
    exact ⟨fault, lastFault.trans regranted.fault, Channel.cleared_motion _ _ _⟩

end

/-! ## The latch settings of a qualification (R52, R53) -/

/-- The zones a loop serves. -/
def servedZones : LoopId → List ZoneId
  | .zone z => [z]
  | .ga => allZones

/-- Each clear latch of a list of zones is set, in order. -/
def Part.latchEach (p : Part) (zs : List ZoneId) : Part := zs.foldl (fun q z => q.latchIfClear z) p

/-- A zone and its channels are as they were. -/
structure Part.SameIn (z : ZoneId) (p q : Part) : Prop where
  zone : q.zone z = p.zone z
  chan : ∀ n, (p.chan n).cfg.zone = z → q.chan n = p.chan n

/-- R30, R36, R53, R55, R57: the latch of a zone is newly set. -/
structure Part.NewlyLatched (z : ZoneId) (p q : Part) : Prop where
  zone : q.zone z = (p.zone z).setLatch p.now
  chan : ∀ n, (p.chan n).cfg.zone = z → (p.chan n).LatchedTo (q.chan n)
  settled : ∀ n, (p.chan n).cfg.zone = z → q.Settled n

theorem Part.qualify_eq (p : Part) (loop : LoopId) : p.qualify loop = p.latchEach (servedZones loop) := by cases loop <;> rfl

theorem servedZones_nodup (loop : LoopId) : (servedZones loop).Nodup := by
  cases loop with
  | zone z => exact List.nodup_singleton z
  | ga => exact List.nodup_finRange 6

theorem mem_servedZones {loop : LoopId} {z : ZoneId} : z ∈ servedZones loop ↔ loop = .zone z ∨ loop = .ga := by
  cases loop with
  | zone y => simp [servedZones, eq_comm]
  | ga => simp [servedZones, allZones]

section
variable {p q r : Part} {z : ZoneId}

theorem Part.SameIn.refl (z : ZoneId) (p : Part) : p.SameIn z p := ⟨rfl, fun _ _ => rfl⟩

theorem Part.SameIn.trans (h : p.SameIn z q) (k : q.SameIn z r) : p.SameIn z r :=
  ⟨k.zone.trans h.zone, fun n hn => (k.chan n (by rwa [h.chan n hn])).trans (h.chan n hn)⟩

/-- What follows leaves the zone alone. -/
theorem Part.NewlyLatched.sameIn (h : p.NewlyLatched z q) (k : q.SameIn z r) (weather : r.weather = q.weather) :
    p.NewlyLatched z r := by
  have chan (n : ChannelId) (hn : (p.chan n).cfg.zone = z) : (q.chan n).cfg.zone = z ∧ r.chan n = q.chan n :=
    have hq : (q.chan n).cfg.zone = z := by rw [(h.chan n hn).cfg]; exact hn
    ⟨hq, k.chan n hq⟩
  refine ⟨k.zone.trans h.zone, fun n hn => (chan n hn).2 ▸ h.chan n hn, fun n hn => ?_⟩
  obtain ⟨hq, same⟩ := chan n hn
  have settled := h.settled n hn
  unfold Part.Settled at settled ⊢
  rw [same, weather, hq, k.zone]
  rwa [hq] at settled

/-- What came before left the zone alone. -/
theorem Part.SameIn.newlyLatched (h : p.SameIn z q) (now : q.now = p.now) (k : q.NewlyLatched z r) : p.NewlyLatched z r where
  zone := by rw [k.zone, h.zone, now]
  chan n hn := h.chan n hn ▸ k.chan n (by rwa [h.chan n hn])
  settled n hn := k.settled n (by rwa [h.chan n hn])

end

section
variable (p : Part)

theorem Part.latchIfClear_of_set {z : ZoneId} (h : (p.zone z).latch = true) : p.latchIfClear z = p := if_pos h

theorem Part.latchIfClear_of_clear {z : ZoneId} (h : (p.zone z).latch = false) : p.latchIfClear z = p.setLatch z := by
  rw [Part.latchIfClear, h]; rfl

theorem Part.SameButLatches.latchIfClear (z : ZoneId) : p.SameButLatches (p.latchIfClear z) := by
  unfold Part.latchIfClear; split; exacts [.refl p, .setLatch p z]

theorem Part.SameButLatches.latchEach (zs : List ZoneId) : p.SameButLatches (p.latchEach zs) :=
  foldl_keeps Part.SameButLatches.refl Part.SameButLatches.trans (fun q z => .latchIfClear q z) zs p

theorem Part.setLatch_newlyLatched (z : ZoneId) : p.NewlyLatched z (p.setLatch z) :=
  ⟨(p.setLatch_zone z z).trans (if_pos rfl), fun _ h => p.setLatch_chan_latched z h, fun _ h => p.setLatch_settled z h⟩

theorem Part.latchIfClear_sameIn {y z : ZoneId} (h : z = y → (p.zone z).latch = true) : p.SameIn z (p.latchIfClear y) := by
  unfold Part.latchIfClear
  split
  · exact .refl z p
  next clear =>
    have ne : z ≠ y := fun e => clear (e ▸ h e)
    exact ⟨(p.setLatch_zone y z).trans (if_neg ne), fun n hn => p.setLatch_chan_of_ne y (hn ▸ ne)⟩

/-- A zone that is not served, and one whose latch is set, stand. -/
theorem Part.latchEach_sameIn {zs : List ZoneId} {z : ZoneId} (h : z ∈ zs → (p.zone z).latch = true) :
    p.SameIn z (p.latchEach zs) := by
  induction zs generalizing p with
  | nil => exact .refl z p
  | cons y zs ih =>
    have first := p.latchIfClear_sameIn (y := y) fun e => h (e ▸ .head zs)
    exact first.trans (ih (p.latchIfClear y) fun hz => by rw [first.zone]; exact h (.tail y hz))

/-- A served zone with a clear latch is newly latched. -/
theorem Part.latchEach_newlyLatched {zs : List ZoneId} (nd : zs.Nodup) {z : ZoneId} (hz : z ∈ zs)
    (clear : (p.zone z).latch = false) : p.NewlyLatched z (p.latchEach zs) := by
  induction zs generalizing p with
  | nil => exact nomatch hz
  | cons y zs ih =>
    obtain ⟨fresh, nd⟩ := List.nodup_cons.1 nd
    rcases List.mem_cons.1 hz with rfl | hz
    · have rest : (p.latchEach (z :: zs)) = (p.setLatch z).latchEach zs := by
        rw [← p.latchIfClear_of_clear clear]; rfl
      rw [rest]
      exact (p.setLatch_newlyLatched z).sameIn (Part.latchEach_sameIn _ fun h => absurd h fresh)
        (Part.SameButLatches.latchEach _ zs).weather
    · have first := p.latchIfClear_sameIn (y := y) fun e => absurd (e ▸ hz) fresh
      exact first.newlyLatched (Part.SameButLatches.latchIfClear p y).now
        (ih (p.latchIfClear y) nd hz (by rw [first.zone]; exact clear))

/-- Where no served latch is clear nothing happens. -/
theorem Part.latchEach_of_set {zs : List ZoneId} (h : ∀ z ∈ zs, (p.zone z).latch = true) : p.latchEach zs = p := by
  induction zs with
  | nil => rfl
  | cons z zs ih =>
    rw [Part.latchEach, List.foldl_cons, p.latchIfClear_of_set (h z (.head zs))]
    exact ih fun y hy => h y (.tail z hy)

/-- R56: where a latch was set, every line is as a latch setting leaves it. -/
theorem Part.latchEach_line {zs : List ZoneId} {z : ZoneId} (hz : z ∈ zs) (clear : (p.zone z).latch = false) (l : LineId) :
    (p.line l).LatchedTo ((p.latchEach zs).line l) := by
  induction zs generalizing p z with
  | nil => exact nomatch hz
  | cons y zs ih =>
    show (p.line l).LatchedTo (((p.latchIfClear y).latchEach zs).line l)
    cases hy : (p.zone y).latch with
    | true =>
      have later : z ∈ zs := (List.mem_cons.1 hz).resolve_left fun e => by rw [e, hy] at clear; exact nomatch clear
      rw [p.latchIfClear_of_set hy]
      exact ih p later clear
    | false =>
      rw [p.latchIfClear_of_clear hy]
      have first := p.setLatch_line y l
      by_cases more : ∃ x ∈ zs, ((p.setLatch y).zone x).latch = false
      · obtain ⟨x, hx, again⟩ := more
        exact first.trans (ih (p.setLatch y) hx again)
      · rw [Part.latchEach_of_set _ fun x hx => Bool.eq_true_of_not_eq_false fun k => more ⟨x, hx, k⟩]
        exact first

end

/-! ## The expiry of a loop's timer (R49, R50) -/

/-- The clock at the instant of an expiry, and the loop's timer stopped. -/
def Part.stopTimer (p : Part) (loop : LoopId) (t : Nat) : Part :=
  (p.advanceTo t).setLoop loop { (p.advanceTo t).loop loop with timer := none }

section
variable (p : Part) (loop : LoopId) (t : Nat)

theorem Part.loopTimerExpiry_eq {mode : FireMode} {since : Nat} (timer : (p.loop loop).timer = some (mode, since))
    (alarm : (p.loop loop).inAlarm = true) :
    p.loopTimerExpiry loop mode = (p.stopTimer loop (since + qualifyTime mode)).latchEach (servedZones loop) := by
  rw [Part.loopTimerExpiry, timer]
  dsimp only
  rw [if_pos ⟨rfl, alarm⟩]
  exact Part.qualify_eq _ loop

theorem Part.stopTimer_same : (p.advanceTo t).SameButLoops (p.stopTimer loop t) := .setLoop _ loop _

theorem Part.stopTimer_loop : ((p.stopTimer loop t).loop loop).timer = none := by
  rw [Part.stopTimer, Part.loop_setLoop, if_pos rfl]

theorem Part.stopTimer_zone (z : ZoneId) :
    (p.stopTimer loop t).zone z = { p.zone z with loop := (p.stopTimer loop t).loop (.zone z) } :=
  (p.stopTimer_same loop t).zone z

theorem Part.stopTimer_chan (n : ChannelId) : (p.stopTimer loop t).chan n = p.chan n := by
  rw [Part.chan, (p.stopTimer_same loop t).chans]; rfl

theorem Part.stopTimer_line (l : LineId) : (p.stopTimer loop t).line l = p.line l := by
  rw [Part.line, (p.stopTimer_same loop t).lines]; rfl

end

/-! ## The statement's clauses -/

/-- The state after the expiry of a loop's timer. -/
def State.timerExpired (s : State) (loop : LoopId) (mode : FireMode) : State := s.event fun p => p.loopTimerExpiry loop mode

/-- The end of an event changes no zone and no channel. -/
theorem Part.SameIn.event (s : State) (act : Part → Part) (z : ZoneId) : (act s.part).SameIn z (s.event act).part :=
  ⟨s.event_zone act z, fun n _ => s.event_chan act n⟩

theorem Part.SameButLatches.event (s : State) (act : Part → Part) : (act s.part).SameButLatches (s.event act).part where
  loop
    | .zone z => congrArg Zone.loop (s.event_zone act z)
    | .ga => s.event_ga act
  now := s.event_now act
  weather := s.event_weather act
  globals := s.event_globals act
  cmd := s.event_cmd act
  notices := ⟨s.event_notices act, s.event_noticeAcks act⟩

section
variable {s : State} {loop : LoopId} {mode : FireMode} {since : Nat} {z : ZoneId}
variable (timer : (s.part.loop loop).timer = some (mode, since)) (alarm : (s.part.loop loop).inAlarm = true)
include timer alarm

theorem State.timerExpired_newlyLatched (served : z ∈ servedZones loop) (clear : (s.part.zone z).latch = false) :
    (s.part.stopTimer loop (since + qualifyTime mode)).NewlyLatched z (s.timerExpired loop mode).part := by
  have clear' : ((s.part.stopTimer loop (since + qualifyTime mode)).zone z).latch = false := by
    rw [Part.stopTimer_zone]; exact clear
  have latched := Part.latchEach_newlyLatched _ (servedZones_nodup loop) served clear'
  rw [← s.part.loopTimerExpiry_eq loop timer alarm] at latched
  exact latched.sameIn (.event s (·.loopTimerExpiry loop mode) z) (s.event_weather _)

theorem State.timerExpired_sameIn (h : z ∈ servedZones loop → (s.part.zone z).latch = true) :
    (s.part.stopTimer loop (since + qualifyTime mode)).SameIn z (s.timerExpired loop mode).part := by
  have same := Part.latchEach_sameIn (s.part.stopTimer loop (since + qualifyTime mode)) (zs := servedZones loop) (z := z)
    fun hz => by rw [Part.stopTimer_zone]; exact h hz
  rw [← s.part.loopTimerExpiry_eq loop timer alarm] at same
  exact same.trans (.event s (·.loopTimerExpiry loop mode) z)

theorem State.timerExpired_rest :
    (s.part.stopTimer loop (since + qualifyTime mode)).SameButLatches (s.timerExpired loop mode).part := by
  have rest := Part.SameButLatches.latchEach (s.part.stopTimer loop (since + qualifyTime mode)) (servedZones loop)
  rw [← s.part.loopTimerExpiry_eq loop timer alarm] at rest
  exact rest.trans (.event s (·.loopTimerExpiry loop mode))

/-- R56: where a latch was set no line is in QUIETING, so that the end of the event changes none. -/
theorem State.timerExpired_line (served : z ∈ servedZones loop) (clear : (s.part.zone z).latch = false) (l : LineId) :
    (s.part.line l).LatchedTo ((s.timerExpired loop mode).part.line l) := by
  have clear' : ((s.part.stopTimer loop (since + qualifyTime mode)).zone z).latch = false := by
    rw [Part.stopTimer_zone]; exact clear
  have latched := Part.latchEach_line _ served clear' l
  rw [← s.part.loopTimerExpiry_eq loop timer alarm, Part.stopTimer_line] at latched
  rw [State.timerExpired, State.event_line _ _ l (by rw [latched.state]; exact LineState.latched_ne_quieting _)]
  exact latched

end

/-- R56, R138, R149: the states of a line that a latch setting has reached. -/
theorem Line.LatchedTo.cases {x y : Line} (h : x.LatchedTo y) :
    (x.state = .quieting ∨ x.state = .quiet ∨ x.state = .test → y.state = .run) ∧
      (x.state = .test → y.test.result = some .aborted) ∧
      (x.state = .run ∨ x.state = .disabled ∨ x.state = .failed → y.state = x.state) := by
  refine ⟨fun k => ?_, fun k => ?_, fun k => ?_⟩
  · rw [h.state]; rcases k with k | k | k <;> rw [k] <;> rfl
  · rw [h.test, Line.aborted, if_pos k]
  · rw [h.state]; rcases k with k | k | k <;> rw [k] <;> rfl

/-- R36: the channels of a newly latched zone hold what the governing order gives for that zone. -/
theorem Part.NewlyLatched.governs {p q : Part} {z : ZoneId} (h : p.NewlyLatched z q) (n : ChannelId)
    (hn : (p.chan n).cfg.zone = z) :
    ((q.chan n).governing, (q.chan n).granted) = Machine.governs q.weather (q.zone z) (q.chan n) := by
  have settled := h.settled n hn
  unfold Part.Settled at settled
  rwa [(h.chan n hn).cfg, hn] at settled

/-- Settles O42: the timer stops, then each served zone's clear latch is set, one after the other, and each such setting reaches
its own zone, that zone's channels and every line. -/
theorem loopQualificationSetsTheLatches : Obligations.LoopQualificationSetsTheLatches := by
  intro s loop mode since timer alarm serves newly
  have chan := s.part.stopTimer_chan loop (since + qualifyTime mode)
  have zone := s.part.stopTimer_zone loop (since + qualifyTime mode)
  have stopped := s.part.stopTimer_same loop (since + qualifyTime mode)
  have rest := s.timerExpired_rest timer alarm
  refine ⟨s.timerExpired loop mode, ?next, ?timer, ?now, fun z hz => ?newly, fun z hz => ?stands, fun hz l => ?lines,
    rest.weather.trans stopped.weather, rest.globals.trans stopped.globals, rest.cmd.trans stopped.cmd,
    ⟨rest.notices.1.trans stopped.notices, rest.notices.2.trans stopped.noticeAcks⟩, s.event_only _⟩
  case next => cases mode <;> rfl
  case timer => rw [rest.loop]; exact s.part.stopTimer_loop loop _
  case now => rw [rest.now, stopped.now]; cases mode <;> rfl
  case newly =>
    have latched := State.timerExpired_newlyLatched timer alarm (mem_servedZones.2 hz.1) hz.2
    have governed := latched.governs
    have record := latched.chan
    simp only [chan] at governed record
    rw [latched.zone, zone z] at governed ⊢
    exact ⟨rfl, rfl, rfl, rfl, rfl, rfl, fun n hn => ⟨governed n hn, (record n hn).freeze, (record n hn).freed⟩⟩
  case stands =>
    have same := State.timerExpired_sameIn timer alarm fun hs =>
      Bool.eq_true_of_not_eq_false fun clear => hz ⟨mem_servedZones.1 hs, clear⟩
    rw [same.zone, zone z]
    exact ⟨rfl, rfl, rfl, fun n hn => (same.chan n (by rwa [chan n])).trans (chan n)⟩
  case lines =>
    obtain ⟨z, served, clear⟩ := hz
    exact (State.timerExpired_line timer alarm (mem_servedZones.2 served) clear l).cases

end Sys2Proof.Machine
end

section
/-! SUPPORT. The events of the fire loops and of a zone's completeness and deadline (R47 to R50, R57 to R64). -/

namespace Sys2Proof.Machine

/-! ## A loop's change of state (R47, R48) -/

section
variable (g : FireLoop) (x : LoopState) (now : Nat)

theorem FireLoop.sampled_same : g.sampled g.state now = g := if_pos rfl

theorem FireLoop.sampled_state : (g.sampled x now).state = x := by
  unfold FireLoop.sampled
  split
  next same => exact same
  next => rfl

theorem FireLoop.sampled_cfg : (g.sampled x now).cfg = g.cfg := by
  unfold FireLoop.sampled; split <;> rfl

variable {g x}

/-- R49, R50: the timer stops on leaving the alarm condition. -/
theorem FireLoop.sampled_timer_of_leaves (changes : g.state ≠ x) (quiet : ¬ alarmCondition g.cfg x = true) :
    (g.sampled x now).timer = none := by
  rw [FireLoop.sampled, if_neg changes]; exact if_neg quiet

/-- R49, R50: the timer of the loop's mode starts on entering the alarm condition. -/
theorem FireLoop.sampled_timer_of_enters (alarm : alarmCondition g.cfg x = true)
    (quiet : ¬ alarmCondition g.cfg g.state = true) : (g.sampled x now).timer = some (g.cfg.mode, now) := by
  have changes : g.state ≠ x := fun same => quiet (same ▸ alarm)
  rw [FireLoop.sampled, if_neg changes]
  exact (if_pos alarm).trans (if_neg quiet)

/-- The timer stands within the alarm condition. -/
theorem FireLoop.sampled_timer_of_stays (alarm : alarmCondition g.cfg x = true)
    (was : alarmCondition g.cfg g.state = true) : (g.sampled x now).timer = g.timer := by
  unfold FireLoop.sampled
  split
  · rfl
  · exact (if_pos alarm).trans (if_pos was)

end

section
variable (p : Part) (k : LoopId) {x : LoopState}

theorem Part.changeLoop_of_same (same : (p.loop k).state = x) : p.changeLoop k x = p := if_pos same

/-- R47: an entry into a loop fault is recorded. -/
theorem Part.changeLoop_bank_fault {kind : ErrorKind} (changes : (p.loop k).state ≠ x)
    (fault : loopFaultKind x = some kind) :
    (p.changeLoop k x).bank .input = ((p.bank .input).take ⟨.fault, kind, some (loopSubject k), none⟩).count := by
  rw [Part.changeLoop, if_neg changes, fault]
  cases k <;> exact Part.bank_record_self _ _ _

theorem Part.changeLoop_bank_sound (sound : loopFaultKind x = none) : (p.changeLoop k x).bank .input = p.bank .input := by
  unfold Part.changeLoop
  split
  · rfl
  · rw [sound]; cases k <;> rfl

end

/-- The loops after an event. -/
theorem State.event_loop (s : State) (act : Part → Part) (k : LoopId) : (s.event act).part.loop k = (act s.part).loop k :=
  (Part.SameButLatches.event s act).loop k

/-- Settles O41: the loop is as the report leaves it, by whether it leaves, enters or stays in the alarm condition. -/
theorem loopChangeStartsOrStopsTheTimer : Obligations.LoopChangeStartsOrStopsTheTimer := by
  intro s k x g alarm
  have rest := s.part.changeLoop_same k x
  have self : (s.event fun p => p.changeLoop k x).part.loop k = g.sampled x s.part.now := by
    rw [State.event_loop, Part.loop_changeLoop, if_pos rfl]
  have input : (s.event fun p => p.changeLoop k x).part.bank .input = (s.part.changeLoop k x).bank .input :=
    State.event_bank ..
  have alarm_iff (y : LoopState) : alarm y ↔ alarmCondition g.cfg y = true := (alarmCondition_iff g.cfg y).symm
  simp only [alarm_iff]
  refine ⟨s.event fun p => p.changeLoop k x, rfl, ?state, ?cfg, ?leaves, ?enters, ?stays, ?same, ?sound, ?opens, ?shorts,
    fun z => ?zone, fun j hj => ?other, fun b hb => ?banks, fun n => ?chans, s.event_sameLines _ fun l => ?lines,
    (s.event_weather _).trans rest.weather, (s.event_globals _).trans rest.globals, (s.event_cmd _).trans rest.cmd,
    ⟨(s.event_notices _).trans rest.notices, (s.event_noticeAcks _).trans rest.noticeAcks⟩, s.event_only _⟩
  case state => rw [self]; exact g.sampled_state x _
  case cfg => rw [self]; exact g.sampled_cfg x _
  case leaves => rw [self]; exact FireLoop.sampled_timer_of_leaves _
  case enters => rw [self]; exact FireLoop.sampled_timer_of_enters _
  case stays => rw [self]; exact FireLoop.sampled_timer_of_stays _
  case same =>
    intro same
    rw [self, input, s.part.changeLoop_of_same k same, ← same]
    exact ⟨g.sampled_same _, rfl⟩
  case sound =>
    intro _ sound
    rw [input]
    exact s.part.changeLoop_bank_sound k (by rcases sound with rfl | rfl <;> rfl)
  case opens =>
    rintro changes rfl
    rw [input]
    exact s.part.changeLoop_bank_fault k changes rfl
  case shorts =>
    rintro changes rfl
    rw [input]
    exact s.part.changeLoop_bank_fault k changes rfl
  case zone => rw [State.event_zone, rest.zone]; exact ⟨rfl, rfl⟩
  case other => rw [State.event_loop, Part.loop_changeLoop, if_neg hj]
  case banks => rw [State.event_bank]; exact rest.bank b hb
  case chans => rw [State.event_chan, Part.chan, rest.chans]; rfl
  case lines => rw [Part.line, rest.lines]; rfl

/-! ## Completeness (R58 to R60, R62, R64) -/

/-- R58: completeness as the rule says it. -/
theorem Part.zoneComplete_iff (p : Part) (z : ZoneId) :
    p.zoneComplete z = true ↔ (p.zone z).latch = false ∨ ∀ n : ChannelId,
      (p.chan n).cfg.zone = z → (p.chan n).cfg.cls ≠ .unused → (p.chan n).governing = .smoke →
      (p.chan n).cfg.smokeAction ≠ .holds → (p.chan n).motion = .idle ∧ withinTolerance (p.chan n) (p.chan n).granted = true := by
  have channel (n : ChannelId) : (!counts z (p.chan n) || arrived (p.chan n)) = true ↔
      ((p.chan n).cfg.zone = z → (p.chan n).cfg.cls ≠ .unused → (p.chan n).governing = .smoke →
        (p.chan n).cfg.smokeAction ≠ .holds →
        (p.chan n).motion = .idle ∧ withinTolerance (p.chan n) (p.chan n).granted = true) := by
    rw [counts, arrived]
    grind
  rw [Part.zoneComplete, Bool.or_eq_true, Bool.not_eq_true', List.all_eq_true]
  simp only [channel, mem_allChannels, true_imp_iff]

theorem Zone.judge_complete (x : Zone) : x.judge true =
    { x with
      complete := true, indicator := x.latch,
      deadline := if x.deadline = .running then .met else x.deadline,
      remaining := if x.deadline = .running then none else x.remaining,
      overrunRunning := if x.deadline = .missed then false else x.overrunRunning } := by
  simp [Zone.judge]

theorem Zone.judge_incomplete (x : Zone) : x.judge false = { x with complete := false, indicator := false } := by
  simp [Zone.judge]

/-- What a change of zone `z` alone leaves as it was. -/
structure Part.OnlyZone (z : ZoneId) (p q : Part) : Prop where
  zone : ∀ y, y ≠ z → q.zone y = p.zone y
  ga : q.ga = p.ga
  chans : q.chans = p.chans
  lines : q.lines = p.lines
  weather : q.weather = p.weather
  globals : q.globals = p.globals
  cmd : q.cmd = p.cmd
  notices : q.notices = p.notices
  noticeAcks : q.noticeAcks = p.noticeAcks

theorem Part.OnlyZone.modZone (p : Part) (z : ZoneId) (f : Zone → Zone) : Part.OnlyZone z p (p.modZone z f) :=
  ⟨fun y hy => by rw [Part.zone_modZone, if_neg hy], rfl, rfl, rfl, rfl, rfl, rfl, rfl, rfl⟩

/-- An event that changes one zone alone changes no other zone, no channel and no line but by quieting complete. -/
theorem State.event_onlyZone (s : State) (act : Part → Part) {z : ZoneId} (only : Part.OnlyZone z s.part (act s.part)) :
    (∀ y : ZoneId, y ≠ z → (s.event act).part.zone y = s.part.zone y) ∧ s.part.SameChans (s.event act).part ∧
      s.part.SameLines (s.event act).part := by
  refine ⟨fun y hy => (s.event_zone act y).trans (only.zone y hy), fun n => ?_, s.event_sameLines act fun l => ?_⟩
  · rw [State.event_chan, Part.chan, only.chans]; rfl
  · rw [Part.line, only.lines]; rfl

/-- Settles O43: the judgement writes the zone's record by its completeness, and nothing else. -/
theorem completenessJudgementUpdatesTheZone : Obligations.CompletenessJudgementUpdatesTheZone := by
  intro s z x complete
  have only : Part.OnlyZone z s.part (s.part.judgeZone z) := .modZone ..
  have complete_iff : complete ↔ s.part.zoneComplete z = true := (s.part.zoneComplete_iff z).symm
  have zone : (s.event fun p => p.judgeZone z).part.zone z = x.judge (s.part.zoneComplete z) :=
    (s.event_zone _ z).trans (Part.zone_modZone_self ..)
  obtain ⟨zones, chans, lines⟩ := s.event_onlyZone (fun p => p.judgeZone z) only
  refine ⟨s.event fun p => p.judgeZone z, rfl, fun h => ?complete, fun h => ?incomplete, zones,
    (s.event_ga _).trans only.ga, fun b => s.event_bank _ b, chans, lines,
    (s.event_weather _).trans only.weather, (s.event_globals _).trans only.globals, (s.event_cmd _).trans only.cmd,
    ⟨(s.event_notices _).trans only.notices, (s.event_noticeAcks _).trans only.noticeAcks⟩, s.event_only _⟩
  case complete => rw [zone, complete_iff.1 h]; exact x.judge_complete
  case incomplete =>
    rw [zone, Bool.eq_false_of_not_eq_true fun k => h (complete_iff.2 k)]; exact x.judge_incomplete

/-! ## The seconds of a deadline (R57, R61, R62) -/

section
variable (p : Part) (z : ZoneId)

/-- The instant of the zone's next whole second, not before the clock (log 2). -/
def Part.nextSecond : Nat := max p.now ((p.zone z).secondMark + 1000)

/-- R57: the whole seconds of a RUNNING deadline before its last. -/
theorem Part.deadlineSecond_running {r : Nat} (running : (p.zone z).deadline = .running)
    (left : (p.zone z).remaining = some (r + 2)) :
    p.deadlineSecond z = (p.advanceTo ((p.zone z).secondMark + 1000)).modZone z
      fun x => { x with remaining := some (r + 1), secondMark := p.nextSecond z } := by
  rw [Part.deadlineSecond, running, left]
  exact if_neg (by omega)

/-- R61: the last second of a RUNNING deadline with the zone incomplete, reported by either row (log 13). -/
theorem Part.deadlineSecond_last (running : (p.zone z).deadline = .running) (left : (p.zone z).remaining = some 1)
    (incomplete : p.zoneComplete z = false) :
    p.deadlineSecond z = (p.advanceTo ((p.zone z).secondMark + 1000)).missDeadline z := by
  have still : (p.advanceTo ((p.zone z).secondMark + second)).zoneComplete z = false := incomplete
  rw [Part.deadlineSecond, running, left]
  dsimp only
  rw [if_pos le_rfl, Part.lastSecond, still]
  rfl

theorem Part.deadlineExpiry_last (running : (p.zone z).deadline = .running) (left : (p.zone z).remaining = some 1)
    (incomplete : p.zoneComplete z = false) :
    p.deadlineExpiry z = (p.advanceTo ((p.zone z).secondMark + 1000)).missDeadline z := by
  have still : (p.advanceTo ((p.zone z).secondMark + second)).zoneComplete z = false := incomplete
  rw [Part.deadlineExpiry, running, left]
  dsimp only
  rw [if_pos le_rfl, Part.lastSecond, still]
  rfl

/-- R62: a whole second of a running overrun count. -/
theorem Part.overrunSecond_running (missed : (p.zone z).deadline = .missed) (running : (p.zone z).overrunRunning = true) :
    p.overrunSecond z = (p.advanceTo ((p.zone z).secondMark + 1000)).modZone z
      fun x => { x with overrun := saturate 65535 (x.overrun + 1), secondMark := p.nextSecond z } :=
  if_pos ⟨missed, running⟩

end

/-- R61: a missed deadline reaches the zone's record and the ZONE bank alone. -/
theorem Part.OnlyZone.missDeadline (p : Part) (z : ZoneId) : Part.OnlyZone z p (p.missDeadline z) :=
  have only := Part.OnlyZone.modZone p z fun x =>
    { x with deadline := .missed, remaining := none, overrunRunning := true, secondMark := p.now }
  ⟨only.zone, only.ga, only.chans, only.lines, only.weather, only.globals, only.cmd, only.notices, only.noticeAcks⟩

theorem Part.missDeadline_zone (p : Part) (z : ZoneId) : (p.missDeadline z).zone z =
    { p.zone z with deadline := .missed, remaining := none, overrunRunning := true, secondMark := p.now } :=
  Part.zone_modZone_self p z fun x =>
    { x with deadline := .missed, remaining := none, overrunRunning := true, secondMark := p.now }

/-- A change of one zone alone at a later instant is a change of that zone alone, and of the clock. -/
theorem Part.OnlyZone.later {p q : Part} {z : ZoneId} {t : Nat} (h : Part.OnlyZone z (p.advanceTo t) q) :
    Part.OnlyZone z p q :=
  ⟨h.zone, h.ga, h.chans, h.lines, h.weather, h.globals, h.cmd, h.notices, h.noticeAcks⟩

section
variable (s : State) (act : Part → Part) {z : ZoneId} {t : Nat}

/-- A second that writes the zone's record alone. -/
theorem State.event_zoneSecond {f : Zone → Zone} (eq : act s.part = (s.part.advanceTo t).modZone z f) :
    (s.event act).part.zone z = f (s.part.zone z) ∧ s.part.SameBanks (s.event act).part ∧
      (∀ y : ZoneId, y ≠ z → (s.event act).part.zone y = s.part.zone y) ∧ s.part.SameChans (s.event act).part ∧
      s.part.SameLines (s.event act).part ∧ s.EventOnly (s.event act) := by
  have only : Part.OnlyZone z s.part (act s.part) := (eq ▸ Part.OnlyZone.modZone _ z f).later
  obtain ⟨zones, chans, lines⟩ := s.event_onlyZone act only
  refine ⟨?_, fun b => ?_, zones, chans, lines, s.event_only act⟩
  · rw [State.event_zone, eq]; exact Part.zone_modZone_self ..
  · rw [State.event_bank, eq]; rfl

/-- R61: the second that makes the deadline MISSED. -/
theorem State.event_missDeadline (eq : act s.part = (s.part.advanceTo t).missDeadline z) :
    (s.event act).part.zone z = { s.part.zone z with
        deadline := .missed, remaining := none, overrunRunning := true, secondMark := max s.part.now t } ∧
      (s.event act).part.bank .zone = ((s.part.bank .zone).take ⟨.safety, .deadlineMissed, some (.zone z), none⟩).count ∧
      s.part.SameBanksBut (s.event act).part .zone ∧
      (∀ y : ZoneId, y ≠ z → (s.event act).part.zone y = s.part.zone y) ∧ s.part.SameChans (s.event act).part ∧
      s.part.SameLines (s.event act).part ∧ s.EventOnly (s.event act) := by
  have only : Part.OnlyZone z s.part (act s.part) := (eq ▸ Part.OnlyZone.missDeadline _ z).later
  obtain ⟨zones, chans, lines⟩ := s.event_onlyZone act only
  refine ⟨?_, ?_, fun b hb => ?_, zones, chans, lines, s.event_only act⟩
  · rw [State.event_zone, eq]; exact Part.missDeadline_zone ..
  · rw [State.event_bank, eq]; exact Part.bank_record_self ..
  · rw [State.event_bank, eq]; exact (Part.bank_record ..).trans (if_neg hb)

end

theorem saturate_eq_min (ceiling k : Nat) : saturate ceiling k = min k ceiling := by
  unfold saturate; split <;> omega

/-- Settles O44: each second moves the clock to its instant and writes the zone's record; the last one records the miss. -/
theorem deadlineAndOverrunCountSeconds : Obligations.DeadlineAndOverrunCountSeconds := by
  intro s z x at'
  refine ⟨fun r running left => ?second, fun running left incomplete c hc => ?last, fun missed running => ?overrun⟩
  case second =>
    exact ⟨_, rfl, s.event_zoneSecond (·.deadlineSecond z) (s.part.deadlineSecond_running z running left)⟩
  case last =>
    rcases hc with rfl | rfl
    · exact ⟨_, rfl, s.event_missDeadline (·.deadlineSecond z) (s.part.deadlineSecond_last z running left incomplete)⟩
    · exact ⟨_, rfl, s.event_missDeadline (·.deadlineExpiry z) (s.part.deadlineExpiry_last z running left incomplete)⟩
  case overrun =>
    have written := s.event_zoneSecond (·.overrunSecond z) (s.part.overrunSecond_running z missed running)
    rw [saturate_eq_min] at written
    exact ⟨_, rfl, written⟩

end Sys2Proof.Machine
end

section
/-! SUPPORT. The release of one latched zone (R31, R36, R65, R66), and what a run of releases leaves as it was. -/

namespace Sys2Proof.Machine

/-! ## The dropped freezes (R31) -/

/-- The freeze of one channel is dropped. -/
def Part.dropFreeze (p : Part) (n : ChannelId) : Part := p.modChan n fun c => { c with freeze := none }

section
variable (p : Part) (z : ZoneId) (n : ChannelId)

theorem Part.dropFreezes_eq : p.dropFreezes z = p.forEach (p.channelsOf z) fun n q => q.dropFreeze n := rfl

theorem Part.dropFreeze_chan_self : (p.dropFreeze n).chan n = { p.chan n with freeze := none } := p.chan_modChan_self n _

theorem Part.dropFreeze_onlyChan : p.OnlyChan n (p.dropFreeze n) := (Part.OnlyChan.refl p).modChan _

theorem Part.dropFreeze_work : p.ChannelWork (p.dropFreeze n) := by
  have work : p.QueueWork n (p.dropFreeze n) := (Part.QueueWork.refl p).modChan _ fun _ => rfl
  refine .of_queueWork work (fun m => ?_) ((Part.SameUnits.refl p).modChan _)
  by_cases e : m = n
  · exact e ▸ work.cfg
  · rw [p.dropFreeze_onlyChan n m e]

theorem Part.dropFreezes_work : p.ChannelWork (p.dropFreezes z) := .forEach p _ fun n q => q.dropFreeze_work n

theorem Part.dropFreezes_banks : (p.dropFreezes z).banks = p.banks :=
  Part.forEach_inv (inv := fun q => q.banks = p.banks) (fun _ _ _ h => h) rfl

theorem Part.dropFreezes_chan :
    (p.dropFreezes z).chan n = if (p.chan n).cfg.zone = z then { p.chan n with freeze := none } else p.chan n := by
  rw [Part.dropFreezes_eq, Part.forEach_chan (inv := fun _ => True) (f := fun _ c => { c with freeze := none })
    (p.channelsOf_nodup z) (fun _ _ _ _ => trivial) (fun n q _ _ => q.dropFreeze_chan_self n)
    (fun n q => q.dropFreeze_onlyChan n) trivial n]
  simp only [Part.mem_channelsOf]

end

/-! ## The release of a zone (R66) -/

/-- R66: the record of a released zone. -/
def Zone.released (x : Zone) : Zone :=
  { x with latch := false, deadline := .idle, remaining := none, overrunRunning := false, complete := true,
           indicator := false }

/-- The zone's record is written, before its channels are treated. -/
def Part.endLatch (p : Part) (z : ZoneId) : Part := p.modZone z Zone.released

section
variable (p : Part) (z : ZoneId)

theorem Part.executeRelease_eq : p.executeRelease z = ((p.endLatch z).dropFreezes z).recomputeZone z := rfl

theorem Part.executeRelease_work : (p.endLatch z).ChannelWork (p.executeRelease z) :=
  ((p.endLatch z).dropFreezes_work z).trans (Part.recomputeZone_work _ z)

theorem Part.executeRelease_banks : (p.executeRelease z).banks = p.banks :=
  (Part.Reconsiders.recomputeZone _ z).banks.trans ((p.endLatch z).dropFreezes_banks z)

theorem Part.executeRelease_zone (y : ZoneId) :
    (p.executeRelease z).zone y = if y = z then (p.zone z).released else p.zone y :=
  ((p.executeRelease_work z).units.zone y).trans (p.zone_modZone z y _)

theorem Part.executeRelease_loop (k : LoopId) : (p.executeRelease z).loop k = p.loop k := by
  cases k with
  | zone y =>
    show ((p.executeRelease z).zone y).loop = (p.zone y).loop
    rw [Part.executeRelease_zone]
    split
    next e => rw [e]; rfl
    next => rfl
  | ga => exact (p.executeRelease_work z).units.ga

/-- Channels of other zones stand. -/
theorem Part.executeRelease_chan_of_ne {n : ChannelId} (h : (p.chan n).cfg.zone ≠ z) :
    (p.executeRelease z).chan n = p.chan n := by
  have dropped : ((p.endLatch z).dropFreezes z).chan n = p.chan n := by
    rw [Part.dropFreezes_chan]; exact if_neg h
  rw [Part.executeRelease_eq, Part.recomputeZone_chan_of_ne _ z (by rwa [dropped]), dropped]

/-- R31: the zone's channels lose their freeze. -/
theorem Part.executeRelease_freeze {n : ChannelId} (h : (p.chan n).cfg.zone = z) :
    ((p.executeRelease z).chan n).freeze = none := by
  have dropped : ((p.endLatch z).dropFreezes z).chan n = { p.chan n with freeze := none } := by
    rw [Part.dropFreezes_chan]; exact if_pos h
  rw [Part.executeRelease_eq, (Part.recomputeZone_onlyGrants _ z).freeze, dropped]

/-- R36: the zone's channels hold the result of the governing order. -/
theorem Part.executeRelease_settled {n : ChannelId} (h : (p.chan n).cfg.zone = z) : (p.executeRelease z).Settled n := by
  rw [Part.executeRelease_eq]
  exact Part.recomputeZone_settled _ z n (by rw [((p.endLatch z).dropFreezes_work z).cfg]; exact h)

end

/-! ## What a release decides by (R65) -/

/-- Loops, clock and INPUT bank are as they were: what loop changes read and write. -/
structure Part.SameFire (p q : Part) : Prop where
  loop : ∀ k, q.loop k = p.loop k
  now : q.now = p.now
  input : q.bank .input = p.bank .input

section
variable {p q r : Part}

theorem Part.SameFire.refl (p : Part) : p.SameFire p := ⟨fun _ => rfl, rfl, rfl⟩

theorem Part.SameFire.trans (h : p.SameFire q) (k : q.SameFire r) : p.SameFire r :=
  ⟨fun j => (k.loop j).trans (h.loop j), k.now.trans h.now, k.input.trans h.input⟩

/-- A loop change does the same to loops, clock and INPUT bank that are the same. -/
theorem Part.SameFire.changeLoop (h : p.SameFire q) (k : LoopId) (x : LoopState) :
    (p.changeLoop k x).SameFire (q.changeLoop k x) where
  loop j := by rw [Part.loop_changeLoop, Part.loop_changeLoop, h.loop, h.loop, h.now]
  now := by rw [(q.changeLoop_same k x).now, (p.changeLoop_same k x).now, h.now]
  input := by
    by_cases same : (p.loop k).state = x
    · rw [Part.changeLoop_of_same q k (by rw [h.loop, same]), Part.changeLoop_of_same p k same, h.input]
    · cases fault : loopFaultKind x with
      | none => rw [q.changeLoop_bank_sound k fault, p.changeLoop_bank_sound k fault, h.input]
      | some kind =>
        rw [q.changeLoop_bank_fault k (by rwa [h.loop]) fault, p.changeLoop_bank_fault k same fault, h.input]

/-- The loop changes of a list are taken, in order. -/
def Part.takeReports (p : Part) (cs : List LoopReport) : Part := cs.foldl (fun q c => q.changeLoop c.loop c.state) p

theorem Part.loopChangesAt_eq (p : Part) (changes : List LoopReport) (z : ZoneId) :
    p.loopChangesAt changes z = p.takeReports (changes.filter fun c => decide (c.before = z)) := rfl

theorem Part.takeReports_append (p : Part) (cs ds : List LoopReport) :
    p.takeReports (cs ++ ds) = (p.takeReports cs).takeReports ds := List.foldl_append

theorem Part.takeReports_same (p : Part) (cs : List LoopReport) : p.SameButLoops (p.takeReports cs) :=
  foldl_keeps Part.SameButLoops.refl Part.SameButLoops.trans (fun q (c : LoopReport) => q.changeLoop_same c.loop c.state) cs p

theorem Part.SameFire.takeReports (h : p.SameFire q) (cs : List LoopReport) :
    (p.takeReports cs).SameFire (q.takeReports cs) := by
  induction cs generalizing p q with
  | nil => exact h
  | cons c cs ih => exact ih (h.changeLoop c.loop c.state)

/-- R65: the zone's latch is set and its release is refused. -/
def Part.bars (p : Part) (z : ZoneId) : Bool := (p.zone z).latch && p.releaseRefused z

theorem Part.bars_congr (h : p.SameFire q) {z : ZoneId} (latch : (q.zone z).latch = (p.zone z).latch) :
    q.bars z = p.bars z := by
  have zone : (q.zone z).loop = (p.zone z).loop := h.loop (.zone z)
  have ga : q.ga = p.ga := h.loop .ga
  rw [Part.bars, Part.bars, Part.releaseRefused, Part.releaseRefused, latch, zone, ga]

theorem Part.bars_iff (p : Part) (z : ZoneId) : p.bars z = true ↔ (p.zone z).latch = true ∧
    (((p.loop (.zone z)).cfg.mode = .level ∧ (p.loop (.zone z)).inAlarm = true) ∨
      ((p.loop .ga).cfg.mode = .level ∧ (p.loop .ga).inAlarm = true)) := by
  rw [Part.bars, Part.releaseRefused]
  simp only [Bool.and_eq_true, Bool.or_eq_true, decide_eq_true_iff]
  rfl

end

/-! ## A run of releases -/

/-- R31, R36, R66: the zones of a set are released, and no other; besides them, loops and the ZONE and INPUT banks only queues
differ. -/
structure Part.Frees (set : ZoneId → Bool) (p q : Part) : Prop where
  weather : q.weather = p.weather
  globals : q.globals = p.globals
  cmd : q.cmd = p.cmd
  notices : p.SameNotices q
  bank : ∀ b : BankId, b ≠ .zone → b ≠ .input → q.bank b = p.bank b
  cfg : ∀ n, (q.chan n).cfg = (p.chan n).cfg
  zone : ∀ z, q.zone z = { (if set z then (p.zone z).released else p.zone z) with loop := q.loop (.zone z) }
  stands : ∀ n, set (p.chan n).cfg.zone = false → q.chan n = p.chan n
  freed : ∀ n, set (p.chan n).cfg.zone = true → (q.chan n).freeze = none ∧ q.Settled n

section
variable {p q r : Part} {a b : ZoneId → Bool}

/-- A loop change releases nothing. -/
theorem Part.SameButLoops.frees (h : p.SameButLoops q) : Part.Frees (fun _ => false) p q where
  weather := h.weather
  globals := h.globals
  cmd := h.cmd
  notices := ⟨h.notices, h.noticeAcks⟩
  bank b _ hb := h.bank b hb
  cfg n := by rw [Part.chan, h.chans]; rfl
  zone := h.zone
  stands n _ := by rw [Part.chan, h.chans]; rfl
  freed _ hn := nomatch hn

theorem Part.Frees.recordZone (p : Part) (e : ErrorRecord) : Part.Frees (fun _ => false) p (p.record .zone e) where
  weather := rfl
  globals := rfl
  cmd := rfl
  notices := ⟨rfl, rfl⟩
  bank b hb _ := by rw [Part.bank_record, if_neg hb]
  cfg _ := rfl
  zone _ := rfl
  stands _ _ := rfl
  freed _ hn := nomatch hn

theorem Part.Frees.executeRelease (p : Part) (z : ZoneId) : Part.Frees (fun y => decide (y = z)) p (p.executeRelease z) where
  weather := (p.executeRelease_work z).units.weather
  globals := (p.executeRelease_work z).units.globals
  cmd := (p.executeRelease_work z).units.cmd
  notices := (p.executeRelease_work z).notices
  bank b _ _ := by rw [Part.bank, p.executeRelease_banks z]; rfl
  cfg := (p.executeRelease_work z).cfg
  zone y := by
    rw [Part.executeRelease_loop, Part.executeRelease_zone]
    by_cases e : y = z
    · subst e; simp only [if_pos, decide_true]; rfl
    · simp only [if_neg e, decide_eq_true_iff]; rfl
  stands _ hn := p.executeRelease_chan_of_ne z (of_decide_eq_false hn)
  freed _ hn := ⟨p.executeRelease_freeze z (of_decide_eq_true hn), p.executeRelease_settled z (of_decide_eq_true hn)⟩

/-- What follows and does not release a channel's zone leaves its grant the result of the governing order. -/
theorem Part.Settled.frees {n : ChannelId} (h : p.Settled n) (k : Part.Frees b p q) (hn : b (p.chan n).cfg.zone = false) :
    q.Settled n := by
  have zone := k.zone (p.chan n).cfg.zone
  rw [hn] at zone
  unfold Part.Settled
  rw [k.stands n hn, k.weather, zone]
  exact h

theorem Part.Frees.trans (h : Part.Frees a p q) (k : Part.Frees b q r) : Part.Frees (fun z => a z || b z) p r where
  weather := k.weather.trans h.weather
  globals := k.globals.trans h.globals
  cmd := k.cmd.trans h.cmd
  notices := ⟨k.notices.1.trans h.notices.1, k.notices.2.trans h.notices.2⟩
  bank c hz hi := (k.bank c hz hi).trans (h.bank c hz hi)
  cfg n := (k.cfg n).trans (h.cfg n)
  zone z := by
    rw [k.zone z, h.zone z]
    cases a z <;> cases b z <;> rfl
  stands n hn := by
    obtain ⟨ha, hb⟩ := Bool.or_eq_false_iff.1 hn
    rw [k.stands n (by rwa [h.cfg]), h.stands n ha]
  freed n hn := by
    cases hb : b (q.chan n).cfg.zone with
    | true => exact k.freed n hb
    | false =>
      have ha : a (p.chan n).cfg.zone = true := by
        rw [h.cfg] at hb
        rwa [hb, Bool.or_false] at hn
      obtain ⟨freeze, settled⟩ := h.freed n ha
      exact ⟨by rw [k.stands n hb, freeze], settled.frees k hb⟩

end

/-! ## The turn of a zone (R65, R66) -/

/-- R65: the error of a refused release. -/
def refusedRelease (z : ZoneId) : ErrorRecord := ⟨.notice, .releaseRefused, some (.zone z), none⟩

section
variable (p : Part) (z : ZoneId)

theorem Part.releaseZone_of_bars (h : p.bars z = true) : p.releaseZone z = (p.record .zone (refusedRelease z), false) := by
  obtain ⟨latch, refused⟩ := Bool.and_eq_true_iff.1 h
  rw [Part.releaseZone, if_pos latch, if_pos refused]; rfl

theorem Part.releaseZone_of_clear (h : (p.zone z).latch = false) : p.releaseZone z = (p, true) := by
  rw [Part.releaseZone, h]; rfl

theorem Part.releaseZone_of_free (latch : (p.zone z).latch = true) (h : p.bars z = false) :
    p.releaseZone z = (p.executeRelease z, true) := by
  rw [Part.bars, latch, Bool.true_and] at h
  rw [Part.releaseZone, if_pos latch, h]; rfl

/-- The three decisions of a zone at its turn. -/
theorem Part.turn_cases : p.bars z = true ∨ (p.zone z).latch = false ∨ (p.zone z).latch = true ∧ p.bars z = false := by
  cases h : (p.zone z).latch <;> cases k : p.bars z <;> simp

theorem Part.bars_of_clear (h : (p.zone z).latch = false) : p.bars z = false := by rw [Part.bars, h, Bool.false_and]

theorem Part.latch_of_bars (h : p.bars z = true) : (p.zone z).latch = true := (Bool.and_eq_true_iff.1 h).1

theorem Part.releaseZone_snd : (p.releaseZone z).2 = !p.bars z := by
  rcases p.turn_cases z with h | h | ⟨latch, h⟩
  · rw [p.releaseZone_of_bars z h, h]; rfl
  · rw [p.releaseZone_of_clear z h, p.bars_of_clear z h]; rfl
  · rw [p.releaseZone_of_free z latch h, h]; rfl

theorem Part.releaseZone_bank :
    (p.releaseZone z).1.bank .zone = (p.bank .zone).takeAll (if p.bars z then [refusedRelease z] else []) := by
  rcases p.turn_cases z with h | h | ⟨latch, h⟩
  · rw [p.releaseZone_of_bars z h, h]; exact Part.bank_record_self ..
  · rw [p.releaseZone_of_clear z h, p.bars_of_clear z h]; rfl
  · rw [p.releaseZone_of_free z latch h, h, Part.bank, p.executeRelease_banks z]; rfl

theorem Part.releaseZone_fire : p.SameFire (p.releaseZone z).1 := by
  rcases p.turn_cases z with h | h | ⟨latch, h⟩
  · rw [p.releaseZone_of_bars z h]
    exact ⟨fun k => by cases k <;> rfl, rfl, (Part.bank_record ..).trans (if_neg BankId.noConfusion)⟩
  · rw [p.releaseZone_of_clear z h]; exact .refl p
  · rw [p.releaseZone_of_free z latch h]
    exact ⟨p.executeRelease_loop z, (p.executeRelease_work z).units.now, by rw [Part.bank, p.executeRelease_banks z]; rfl⟩

/-- A latched zone whose release is not refused is released. -/
theorem Part.releaseZone_frees :
    Part.Frees (fun y => decide (y = z) && ((p.zone z).latch && !p.bars z)) p (p.releaseZone z).1 := by
  rcases p.turn_cases z with h | h | ⟨latch, h⟩
  · rw [p.releaseZone_of_bars z h, h]
    simpa using Part.Frees.recordZone p _
  · rw [p.releaseZone_of_clear z h, h]
    simpa using (Part.SameButLoops.refl p).frees
  · rw [p.releaseZone_of_free z latch h, h, latch]
    simpa using Part.Frees.executeRelease p z

end

end Sys2Proof.Machine
end

section
/-! SUPPORT. RELEASE_END: the held zones decided one at a time, in ascending order (R65, R66, R180). -/

namespace Sys2Proof.Machine

/-! ## Runs over a list, told by what has been passed -/

/-- What each step carries from the elements passed to those and its own holds, in the end, of the whole list. -/
theorem foldl_of_passed {α β : Type} {inv : List α → β → Prop} {f : β → α → β} {l : List α} {b : β} (start : inv [] b)
    (step : ∀ ys z zs c, ys ++ z :: zs = l → inv ys c → inv (ys ++ [z]) (f c z)) : inv l (l.foldl f b) := by
  have rest (zs ys : List α) (c : β) (whole : ys ++ zs = l) (h : inv ys c) : inv l (zs.foldl f c) := by
    induction zs generalizing ys c with
    | nil => rw [← whole, List.append_nil]; exact h
    | cons z zs ih => exact ih (ys ++ [z]) (f c z) (by rw [List.append_assoc]; exact whole) (step ys z zs c whole h)
  exact rest l [] b rfl start

/-- In a rising list the elements up to one of them are those before it and itself. -/
theorem filter_le_of_rising {ys zs : List ZoneId} {z : ZoneId} (rising : (ys ++ z :: zs).Pairwise (· < ·)) :
    (ys ++ z :: zs).filter (fun y => decide (y ≤ z)) = ys ++ [z] := by
  obtain ⟨-, tail, before⟩ := List.pairwise_append.1 rising
  obtain ⟨after, -⟩ := List.pairwise_cons.1 tail
  have first : ys.filter (fun y => decide (y ≤ z)) = ys :=
    List.filter_eq_self.2 fun y hy => decide_eq_true (before y hy z (.head zs)).le
  have last : zs.filter (fun y => decide (y ≤ z)) = [] :=
    List.filter_eq_nil_iff.2 fun y hy h => absurd (of_decide_eq_true h) (not_le.2 (after y hy))
  have self : (z :: zs).filter (fun y => decide (y ≤ z)) = z :: zs.filter fun y => decide (y ≤ z) :=
    List.filter_cons_of_pos (decide_eq_true le_rfl)
  rw [List.filter_append, self, first, last]

theorem allZones_rising : allZones.Pairwise (· < ·) := by decide

theorem mem_allZones (z : ZoneId) : z ∈ allZones := List.mem_finRange z

/-- R196: the zones of a set with one more. -/
theorem zoneSet_insert (a : BitVec 6) (y z : ZoneId) :
    (a ||| zoneBit y).getLsbD z.val = (a.getLsbD z.val || decide (z = y)) := by
  have bit : ∀ y z : ZoneId, (zoneBit y).getLsbD z.val = decide (z = y) := by decide
  rw [BitVec.getLsbD_or, bit]

/-! ## The turns of the held zones -/

section
variable (p : Part) (zones : BitVec 6) (changes : List LoopReport)

/-- The loop changes that are taken at the turns of the held zones of a list. -/
def reportsAt (zones : BitVec 6) (changes : List LoopReport) (ys : List ZoneId) : List LoopReport :=
  (ys.filter fun y => zones.getLsbD y.val).flatMap fun y => changes.filter fun c => decide (c.before = y)

/-- The part at a zone's turn, as far as loops go: with the loop changes taken up to then. -/
def Part.atTurn (z : ZoneId) : Part := p.takeReports (reportsAt zones changes (allZones.filter fun y => decide (y ≤ z)))

/-- R65: the release of the zone is refused at its turn. -/
def Part.barsAtTurn (z : ZoneId) : Bool := (p.atTurn zones changes z).bars z

/-- R66: the zone is released. -/
def Part.freesAtTurn (z : ZoneId) : Bool := zones.getLsbD z.val && ((p.zone z).latch && !p.barsAtTurn zones changes z)

/-- R65: one turn, as a release in progress takes it. -/
def ReleaseResult.turn (r : ReleaseResult) (z : ZoneId) : ReleaseResult :=
  if zones.getLsbD z.val then
    let d := (r.part.loopChangesAt changes z).releaseZone z
    if d.2 then ⟨d.1, r.released ||| zoneBit z, r.refused⟩ else ⟨d.1, r.released, r.refused ||| zoneBit z⟩
  else r

theorem Part.releaseZones_eq :
    p.releaseZones zones changes = allZones.foldl (fun r z => r.turn zones changes z) ⟨p, 0, 0⟩ := rfl

/-- R65, R66: a release in progress after the turns of the zones `ys`. -/
structure Part.ReleasedUpTo (ys : List ZoneId) (r : ReleaseResult) : Prop where
  fire : (p.takeReports (reportsAt zones changes ys)).SameFire r.part
  frees : Part.Frees (fun z => decide (z ∈ ys) && p.freesAtTurn zones changes z) p r.part
  released : ∀ z : ZoneId,
    r.released.getLsbD z.val = (decide (z ∈ ys) && (zones.getLsbD z.val && !p.barsAtTurn zones changes z))
  refused : ∀ z : ZoneId,
    r.refused.getLsbD z.val = (decide (z ∈ ys) && (zones.getLsbD z.val && p.barsAtTurn zones changes z))
  bank : r.part.bank .zone = (p.bank .zone).takeAll
    ((ys.filter fun z => zones.getLsbD z.val && p.barsAtTurn zones changes z).map refusedRelease)

variable {p zones changes}

theorem Part.ReleasedUpTo.nil : p.ReleasedUpTo zones changes [] ⟨p, 0, 0⟩ where
  fire := .refl p
  frees := by simpa using (Part.SameButLoops.refl p).frees
  released z := by simp
  refused z := by simp
  bank := rfl

variable {ys : List ZoneId} {z : ZoneId} {r : ReleaseResult}

/-- A condition that only held zones meet passes over one that is not. -/
theorem filter_snoc_of_free (free : zones.getLsbD z.val = false) (q : ZoneId → Bool) :
    ((ys ++ [z]).filter fun y => zones.getLsbD y.val && q y) = ys.filter fun y => zones.getLsbD y.val && q y := by
  have none : ([z].filter fun y => zones.getLsbD y.val && q y) = [] :=
    List.filter_eq_nil_iff.2 fun y hy => by rw [List.mem_singleton.1 hy, free]; exact Bool.false_ne_true
  rw [List.filter_append, none, List.append_nil]

/-- A zone that is not held has no turn. -/
theorem Part.ReleasedUpTo.skip (h : p.ReleasedUpTo zones changes ys r) (free : zones.getLsbD z.val = false) :
    p.ReleasedUpTo zones changes (ys ++ [z]) r := by
  have skips (q : ZoneId → Bool) (y : ZoneId) :
      (decide (y ∈ ys ++ [z]) && (zones.getLsbD y.val && q y)) = (decide (y ∈ ys) && (zones.getLsbD y.val && q y)) := by
    by_cases e : y = z
    · rw [e, free, Bool.false_and, Bool.and_false, Bool.and_false]
    · simp [e]
  refine ⟨?fire, ?frees, fun y => ?released, fun y => ?refused, ?bank⟩
  case fire =>
    have same := filter_snoc_of_free (ys := ys) free fun _ => true
    simp only [Bool.and_true] at same
    rw [reportsAt, same]
    exact h.fire
  case frees =>
    have same := funext (skips fun y => (p.zone y).latch && !p.barsAtTurn zones changes y)
    exact same ▸ h.frees
  case released => exact (h.released y).trans (skips (fun y => !p.barsAtTurn zones changes y) y).symm
  case refused => exact (h.refused y).trans (skips (p.barsAtTurn zones changes) y).symm
  case bank => rw [filter_snoc_of_free free]; exact h.bank

theorem ReleaseResult.turn_part (held : zones.getLsbD z.val = true) :
    (r.turn zones changes z).part = ((r.part.loopChangesAt changes z).releaseZone z).1 := by
  rw [ReleaseResult.turn, if_pos held]; dsimp only; split <;> rfl

theorem ReleaseResult.turn_released (held : zones.getLsbD z.val = true) (y : ZoneId) :
    (r.turn zones changes z).released.getLsbD y.val =
      (r.released.getLsbD y.val || (decide (y = z) && !(r.part.loopChangesAt changes z).bars z)) := by
  rw [ReleaseResult.turn, if_pos held]
  dsimp only
  rw [Part.releaseZone_snd]
  cases (r.part.loopChangesAt changes z).bars z
  · simpa using zoneSet_insert r.released z y
  · simp

theorem ReleaseResult.turn_refused (held : zones.getLsbD z.val = true) (y : ZoneId) :
    (r.turn zones changes z).refused.getLsbD y.val =
      (r.refused.getLsbD y.val || (decide (y = z) && (r.part.loopChangesAt changes z).bars z)) := by
  rw [ReleaseResult.turn, if_pos held]
  dsimp only
  rw [Part.releaseZone_snd]
  cases (r.part.loopChangesAt changes z).bars z
  · simp
  · simpa using zoneSet_insert r.refused z y

/-- The loop changes up to and at the turn of a held zone. -/
theorem reportsAt_snoc (held : zones.getLsbD z.val = true) :
    reportsAt zones changes (ys ++ [z]) =
      reportsAt zones changes ys ++ changes.filter fun c => decide (c.before = z) := by
  have single : ([z].filter fun y => zones.getLsbD y.val) = [z] :=
    List.filter_eq_self.2 fun y hy => by rw [List.mem_singleton.1 hy, held]
  rw [reportsAt, List.filter_append, single, List.flatMap_append, List.flatMap_singleton]
  rfl

/-- A held zone at its turn: its decision is that of the loops with the changes taken up to then, since the turns before
changed no loop and not its latch. -/
theorem Part.ReleasedUpTo.bars_eq (h : p.ReleasedUpTo zones changes ys r) (held : zones.getLsbD z.val = true)
    (fresh : z ∉ ys) (upTo : allZones.filter (fun y => decide (y ≤ z)) = ys ++ [z]) :
    (r.part.loopChangesAt changes z).bars z = p.barsAtTurn zones changes z ∧
      ((r.part.loopChangesAt changes z).zone z).latch = (p.zone z).latch := by
  have latch : ((r.part.loopChangesAt changes z).zone z).latch = (p.zone z).latch := by
    rw [Part.loopChangesAt_eq, (Part.takeReports_same _ _).zone, h.frees.zone, decide_eq_false fresh]
    rfl
  have reported : ((p.atTurn zones changes z).zone z).latch = (p.zone z).latch := by
    rw [Part.atTurn, (Part.takeReports_same _ _).zone]
  have fire : (p.atTurn zones changes z).SameFire (r.part.loopChangesAt changes z) := by
    rw [Part.atTurn, upTo, reportsAt_snoc held, Part.takeReports_append, Part.loopChangesAt_eq]
    exact h.fire.takeReports _
  exact ⟨Part.bars_congr fire (latch.trans reported.symm), latch⟩

/-- The turn of a held zone. -/
theorem Part.ReleasedUpTo.turn (h : p.ReleasedUpTo zones changes ys r) (held : zones.getLsbD z.val = true)
    (fresh : z ∉ ys) (upTo : allZones.filter (fun y => decide (y ≤ z)) = ys ++ [z]) :
    p.ReleasedUpTo zones changes (ys ++ [z]) (r.turn zones changes z) := by
  obtain ⟨bars, latch⟩ := h.bars_eq held fresh upTo
  have taken : r.part.SameButLoops (r.part.loopChangesAt changes z) := Part.takeReports_same _ _
  have decides (q : ZoneId → Bool) (y : ZoneId) : (decide (y ∈ ys) && q y || (decide (y = z) && q z)) =
      (decide (y ∈ ys ++ [z]) && q y) := by
    by_cases e : y = z
    · simp [e, fresh]
    · simp [e]
  refine ⟨?fire, ?frees, fun y => ?released, fun y => ?refused, ?bank⟩
  case fire =>
    rw [reportsAt_snoc held, Part.takeReports_append, ReleaseResult.turn_part held]
    exact (h.fire.takeReports _).trans (Part.releaseZone_fire _ z)
  case frees =>
    have turned := (h.frees.trans taken.frees).trans (Part.releaseZone_frees _ z)
    have freed : p.freesAtTurn zones changes z = ((p.zone z).latch && !p.barsAtTurn zones changes z) := by
      rw [Part.freesAtTurn, held, Bool.true_and]
    simp only [Bool.or_false, bars, latch, ← freed, decides] at turned
    rw [ReleaseResult.turn_part held]
    exact turned
  case released =>
    have q := decides (fun y => zones.getLsbD y.val && !p.barsAtTurn zones changes y) y
    rw [ReleaseResult.turn_released held, h.released, bars, ← q, held, Bool.true_and]
  case refused =>
    have q := decides (fun y => zones.getLsbD y.val && p.barsAtTurn zones changes y) y
    rw [ReleaseResult.turn_refused held, h.refused, bars, ← q, held, Bool.true_and]
  case bank =>
    have unread : (r.part.loopChangesAt changes z).bank .zone = r.part.bank .zone := taken.bank .zone BankId.noConfusion
    rw [ReleaseResult.turn_part held, Part.releaseZone_bank, bars, unread, h.bank, List.filter_append, List.map_append,
      Bank.takeAll_append]
    congr 1
    cases bar : p.barsAtTurn zones changes z
    · rw [List.filter_cons_of_neg (by simp [bar])]; rfl
    · rw [List.filter_cons_of_pos (by simp [bar, held])]; rfl

variable (p zones changes)

/-- R65, R66: all turns of a release. -/
theorem Part.releaseZones_releasedUpTo : p.ReleasedUpTo zones changes allZones (p.releaseZones zones changes) := by
  rw [Part.releaseZones_eq]
  refine foldl_of_passed .nil fun ys z zs r whole h => ?_
  have rising := allZones_rising
  rw [← whole] at rising
  cases held : zones.getLsbD z.val with
  | false =>
    rw [ReleaseResult.turn, held]
    exact h.skip held
  | true =>
    refine h.turn held (fun hz => ?_) (whole ▸ filter_le_of_rising rising)
    exact lt_irrefl z ((List.pairwise_append.1 rising).2.2 z hz z (.head zs))

end

/-! ## The command (R180) -/

section
variable (s : State) (changes : List LoopReport)

/-- The part in which the turns of RELEASE_END begin: in RS_IDLE. -/
def State.atRelease : Part := s.grant.part.setRelease .idle

/-- The state after RELEASE_END. -/
def State.releaseEnded : State :=
  s.forwarded (s.bus.addressOf 0x1D0) (codeOf .releaseEnd) fun p => p.takeCommand (codeOf .releaseEnd) changes

variable {s} {since : Nat} {zones : BitVec 6}

theorem Part.takeCommand_releaseEnd (p : Part) (zoned : p.cmd.release = .zoned since zones) :
    p.takeCommand (codeOf .releaseEnd) changes =
      let r := (p.setRelease .idle).releaseZones zones changes
      Verdict.conclude ⟨r.part, none, some (zoneSetWord r.released), some (zoneSetWord r.refused), none⟩
        (codeOf .releaseEnd) := by
  show (p.endRelease changes).conclude _ = _
  rw [Part.endRelease, zoned]

theorem State.atRelease_zone (z : ZoneId) : s.atRelease.zone z = s.part.zone z := s.grant_zone z
theorem State.atRelease_chan (n : ChannelId) : s.atRelease.chan n = s.part.chan n := s.grant_chan n
theorem State.atRelease_bank (b : BankId) : s.atRelease.bank b = s.grant.part.bank b := rfl
theorem State.atRelease_fire : s.grant.part.SameFire s.atRelease := ⟨fun k => by cases k <;> rfl, rfl, rfl⟩

/-- R180: RELEASE_END in RS_ZONED: the part after all turns, and the command status. -/
theorem State.releaseEnded_units (zoned : s.part.cmd.release = .zoned since zones) :
    let r := s.atRelease.releaseZones zones changes
    let t := s.releaseEnded changes
    (∀ n, t.part.chan n = r.part.chan n) ∧ (∀ z, t.part.zone z = r.part.zone z) ∧ t.part.ga = r.part.ga ∧
      (∀ b, t.part.bank b = r.part.bank b) ∧ t.part.weather = r.part.weather ∧ t.part.globals = r.part.globals ∧
      r.part.SameNotices t.part ∧ t.part.cmd.outcome = .done ∧ t.part.cmd.release = r.part.cmd.release ∧
      t.part.cmd.resultA = some (zoneSetWord r.released) ∧ t.part.cmd.resultB = some (zoneSetWord r.refused) := by
  have eq := s.grant.part.takeCommand_releaseEnd changes (by rw [State.grant_cmd, zoned])
  have records : (s.releaseEnded changes).part.zones = (s.atRelease.releaseZones zones changes).part.zones := by
    rw [State.releaseEnded, State.forwarded_zones, eq, Verdict.conclude_zones]; rfl
  refine ⟨fun n => ?_, fun z => by rw [Part.zone, records]; rfl, ?_, fun b => ?_, ?_, ?_, ⟨?_, ?_⟩, ?_⟩
  · rw [State.releaseEnded, State.forwarded_chan, eq, Verdict.conclude_chan]; rfl
  · rw [State.releaseEnded, State.forwarded_ga, eq, Verdict.conclude_ga]; rfl
  · rw [State.releaseEnded, State.forwarded_bank, eq, Verdict.conclude_bank_done _ _ rfl]; rfl
  · rw [State.releaseEnded, State.forwarded_weather, eq, Verdict.conclude_weather]; rfl
  · rw [State.releaseEnded, State.forwarded_globals, eq, Verdict.conclude_globals]; rfl
  · rw [State.releaseEnded, State.forwarded_notices, eq, Verdict.conclude_notices]; rfl
  · rw [State.releaseEnded, State.forwarded_noticeAcks, eq, Verdict.conclude_noticeAcks]; rfl
  · rw [State.releaseEnded, State.forwarded_cmd, eq, Verdict.conclude_cmd]; exact ⟨rfl, rfl, rfl, rfl⟩

end

/-- Settles O30: the turns of the held zones, one after the other, each decided by the loops as they stand at it. -/
theorem releaseEndReleasesTheHeldZones : Obligations.ReleaseEndReleasesTheHeldZones := by
  intro s changes since zs hr zoned held takenBy loopsAt bars barred released
  obtain ⟨chans, zone, ga, bank, weather, globals, notices, outcome, release, resultA, resultB⟩ :=
    s.releaseEnded_units changes zoned
  have turns := s.atRelease.releaseZones_releasedUpTo zs changes
  have takenBy_eq (z : ZoneId) : takenBy z = reportsAt zs changes (allZones.filter fun y => decide (y ≤ z)) := by
    rw [reportsAt, List.filter_filter]
  have fire (z : ZoneId) : (loopsAt z).SameFire (s.atRelease.atTurn zs changes z) := by
    rw [Part.atTurn, ← takenBy_eq]
    exact State.atRelease_fire.takeReports _
  have latch (z : ZoneId) : ((s.atRelease.atTurn zs changes z).zone z).latch = (s.part.zone z).latch := by
    rw [Part.atTurn, (Part.takeReports_same _ _).zone, State.atRelease_zone]
  have barred_iff (z : ZoneId) : barred z ↔ s.atRelease.barsAtTurn zs changes z = true := by
    rw [Part.barsAtTurn, Part.bars_iff, latch, (fire z).loop, (fire z).loop]
  have released_iff (z : ZoneId) : released z ↔ s.atRelease.freesAtTurn zs changes z = true := by
    rw [Part.freesAtTurn, State.atRelease_zone, Bool.and_eq_true, Bool.and_eq_true, Bool.not_eq_true', ← Bool.not_eq_true,
      ← barred_iff]
  have last : (loopsAt 5).SameFire (s.atRelease.releaseZones zs changes).part := by
    have whole : allZones.filter (fun y => decide (y ≤ 5)) = allZones := by decide
    have taken := fire 5
    rw [Part.atTurn, whole] at taken
    exact taken.trans turns.fire
  have record (z : ZoneId) := turns.frees.zone z
  have everyZone (z : ZoneId) : decide (z ∈ allZones) = true := decide_eq_true (mem_allZones z)
  simp only [everyZone, Bool.true_and, State.atRelease_zone, last.loop] at record
  have frees (n : ChannelId) := turns.frees.freed n
  have stands (n : ChannelId) := turns.frees.stands n
  simp only [everyZone, Bool.true_and, State.atRelease_chan] at frees stands
  refine ⟨s.releaseEnded changes, ?next, outcome, release.trans (congrArg CommandUnit.release turns.frees.cmd),
    ⟨_, _, resultA, resultB, fun z => ⟨?setA, ?setB⟩, ?refusals⟩, fun z hz => ⟨?zoneReleased, fun n hn => ?freed⟩,
    fun z hz => ⟨?zoneStands, fun n hn => ?stands⟩, ?ga, ?input, fun b hz hi => ?banks, ?weather, ?globals, ?notices,
    State.forwarded_writesOnly ..⟩
  case next => exact congrArg Host.Outcome.next (if_neg (by rw [hr]; exact Bool.false_ne_true))
  case setA =>
    rw [turns.released, everyZone, Bool.true_and, Bool.and_eq_true, Bool.not_eq_true', ← Bool.not_eq_true, ← barred_iff]
  case setB => rw [turns.refused, everyZone, Bool.true_and, Bool.and_eq_true, ← barred_iff]
  case refusals =>
    rw [bank, turns.bank]
    simp only [turns.refused, everyZone, Bool.true_and]
    rfl
  case zoneReleased => rw [zone, record, (released_iff z).1 hz]; rfl
  case freed =>
    obtain ⟨freeze, settled⟩ := frees n (hn ▸ (released_iff z).1 hz)
    have cfg := turns.frees.cfg n
    rw [State.atRelease_chan] at cfg
    unfold Part.Settled at settled
    rw [cfg, hn, ← weather, ← zone, ← chans] at settled
    exact ⟨by rw [chans, freeze], settled⟩
  case zoneStands => rw [zone, record, Bool.eq_false_of_not_eq_true fun k => hz ((released_iff z).2 k)]; rfl
  case stands =>
    rw [chans]
    exact stands n (hn ▸ Bool.eq_false_of_not_eq_true fun k => hz ((released_iff z).2 k))
  case ga => exact ga.trans (last.loop .ga)
  case input => exact (bank .input).trans last.input
  case banks => exact (bank b).trans (turns.frees.bank b hz hi)
  case weather => exact weather.trans (turns.frees.weather.trans s.grant_weather)
  case globals => exact globals.trans (turns.frees.globals.trans s.grant_globals)
  case notices =>
    obtain ⟨set, acks⟩ := turns.frees.notices
    exact ⟨notices.1.trans (set.trans s.grant_notices), notices.2.trans (acks.trans s.grant_noticeAcks)⟩

end Sys2Proof.Machine
end

section
/-! PROOF. O45, O46, O47: the events of the Weather Unit (R71 to R79, R82). -/

namespace Sys2Proof.Machine

/-! ## What an event of the Weather Unit leaves as it was -/

/-- Besides clock, weather, grants and queues nothing differs. -/
structure Part.WeatherWork (p q : Part) : Prop where
  zones : q.zones = p.zones
  ga : q.ga = p.ga
  globals : q.globals = p.globals
  cmd : q.cmd = p.cmd
  banks : q.banks = p.banks
  notices : p.SameNotices q

/-- Besides the weather nothing differs. -/
structure Part.WeatherOnly (p q : Part) : Prop where
  work : p.WeatherWork q
  chans : q.chans = p.chans
  lines : q.lines = p.lines

section
variable {p q r : Part}

theorem Part.WeatherWork.refl (p : Part) : p.WeatherWork p := ⟨rfl, rfl, rfl, rfl, rfl, rfl, rfl⟩

theorem Part.WeatherWork.trans (h : p.WeatherWork q) (k : q.WeatherWork r) : p.WeatherWork r where
  zones := k.zones.trans h.zones
  ga := k.ga.trans h.ga
  globals := k.globals.trans h.globals
  cmd := k.cmd.trans h.cmd
  banks := k.banks.trans h.banks
  notices := ⟨k.notices.1.trans h.notices.1, k.notices.2.trans h.notices.2⟩

theorem Part.WeatherWork.advanceTo (p : Part) (t : Nat) : p.WeatherWork (p.advanceTo t) := ⟨rfl, rfl, rfl, rfl, rfl, rfl, rfl⟩
theorem Part.WeatherWork.setWeather (p : Part) (w : Weather) : p.WeatherWork (p.setWeather w) :=
  ⟨rfl, rfl, rfl, rfl, rfl, rfl, rfl⟩

theorem Part.recomputeAll_work (p : Part) : p.ChannelWork p.recomputeAll := .forEach p _ fun n q => q.recompute_work n

theorem Part.WeatherWork.recomputeAll (p : Part) : p.WeatherWork p.recomputeAll :=
  have again := Part.Reconsiders.recomputeAll p
  ⟨again.units.zones, again.units.ga, again.units.globals, again.units.cmd, again.banks, p.recomputeAll_work.notices⟩

theorem Part.WeatherOnly.refl (p : Part) : p.WeatherOnly p := ⟨.refl p, rfl, rfl⟩
theorem Part.WeatherOnly.setWeather (p : Part) (w : Weather) : p.WeatherOnly (p.setWeather w) := ⟨.setWeather p w, rfl, rfl⟩

end

section
variable (s : State) (act : Part → Part)

theorem State.event_weatherWork (h : s.part.WeatherWork (act s.part)) :
    s.part.SameZones (s.event act).part ∧ (s.event act).part.globals = s.part.globals ∧
      (s.event act).part.cmd = s.part.cmd ∧ s.part.SameBanks (s.event act).part ∧ s.part.SameNotices (s.event act).part ∧
      s.EventOnly (s.event act) := by
  obtain ⟨noticeSet, acks⟩ := h.notices
  refine ⟨⟨?_, (s.event_ga act).trans h.ga⟩, (s.event_globals act).trans h.globals, (s.event_cmd act).trans h.cmd,
    fun b => ?_, ⟨(s.event_notices act).trans noticeSet, (s.event_noticeAcks act).trans acks⟩, s.event_only act⟩
  · rw [State.event_part, Part.completeQuieting_zones, h.zones]
  · rw [State.event_bank, Part.bank, h.banks]; rfl

theorem State.event_sameChans (h : ∀ n, (act s.part).chan n = s.part.chan n) : s.part.SameChans (s.event act).part :=
  fun n => (s.event_chan act n).trans (h n)

theorem State.event_weatherOnly (h : s.part.WeatherOnly (act s.part)) :
    s.part.SameChans (s.event act).part ∧ s.part.SameLines (s.event act).part ∧ s.part.SameZones (s.event act).part ∧
      (s.event act).part.globals = s.part.globals ∧ (s.event act).part.cmd = s.part.cmd ∧
      s.part.SameBanks (s.event act).part ∧ s.part.SameNotices (s.event act).part ∧ s.EventOnly (s.event act) := by
  refine ⟨s.event_sameChans act fun n => ?_, s.event_sameLines act fun l => ?_, s.event_weatherWork act h.work⟩
  · rw [Part.chan, h.chans]; rfl
  · rw [Part.line, h.lines]; rfl

/-- The end of an event keeps the results of the governing order. -/
theorem Part.Settled.event {n : ChannelId} (h : (act s.part).Settled n) : (s.event act).part.Settled n := by
  unfold Part.Settled at *
  rwa [State.event_chan, State.event_weather, State.event_zone]

end

/-! ## The anemometer (R71) -/

theorem Part.countPulse_eq (p : Part) :
    p.countPulse = p.setWeather { p.weather with pulses := min (p.weather.pulses + 1) 65535 } := by
  rw [Part.countPulse, saturate_eq_min]; rfl

/-- Settles O45: the pulse writes the weather's count alone. -/
theorem anemometerPulseIsCounted : Obligations.AnemometerPulseIsCounted := by
  intro s
  have counted := s.part.countPulse_eq
  refine ⟨s.event (·.countPulse), rfl, ?_, s.event_weatherOnly _ (counted ▸ .setWeather ..)⟩
  rw [State.event_weather, counted]; rfl

/-! ## The judgement of a window (R73 to R77) -/

/-- R76: the reflected Gray code, level by level. -/
theorem sectorOfVane_eq (vane : BitVec 3) : sectorOfVane vane = #v[0, 1, 3, 2, 7, 6, 4, 5][vane.toNat] := by
  revert vane; decide

section
variable {w : Weather} {g : GlobalConfig} {k : Nat}

/-- R73: the runs and storm after a window without storm. -/
theorem Weather.judgeStorm_sets (calm : w.storm = false) (strong : g.stormSetLimit ≤ k)
    (last : g.stormSetCount ≤ w.setRun + 1) : w.judgeStorm g k = (0, 0, true) := by
  rw [Weather.judgeStorm, calm, if_pos strong, if_pos last]; rfl

theorem Weather.judgeStorm_setRun (calm : w.storm = false) (strong : g.stormSetLimit ≤ k)
    (more : w.setRun + 1 < g.stormSetCount) : w.judgeStorm g k = (w.setRun + 1, w.clearRun, false) := by
  rw [Weather.judgeStorm, calm, if_pos strong, if_neg (Nat.not_le.2 more)]; rfl

theorem Weather.judgeStorm_calm (calm : w.storm = false) (weak : k < g.stormSetLimit) :
    w.judgeStorm g k = (0, w.clearRun, false) := by
  rw [Weather.judgeStorm, calm, if_neg (Nat.not_le.2 weak)]; rfl

/-- R74: the runs and storm after a window in storm. -/
theorem Weather.judgeStorm_clears (storm : w.storm = true) (weak : k < g.stormClearLimit)
    (last : g.stormClearCount ≤ w.clearRun + 1) : w.judgeStorm g k = (0, 0, false) := by
  rw [Weather.judgeStorm, if_pos storm, if_pos weak, if_pos last]

theorem Weather.judgeStorm_clearRun (storm : w.storm = true) (weak : k < g.stormClearLimit)
    (more : w.clearRun + 1 < g.stormClearCount) : w.judgeStorm g k = (w.setRun, w.clearRun + 1, true) := by
  rw [Weather.judgeStorm, if_pos storm, if_pos weak, if_neg (Nat.not_le.2 more)]

theorem Weather.judgeStorm_storm (storm : w.storm = true) (strong : g.stormClearLimit ≤ k) :
    w.judgeStorm g k = (w.setRun, 0, true) := by
  rw [Weather.judgeStorm, if_pos storm, if_neg (Nat.not_lt.2 strong)]

end

/-- The conditions a window end arrives at. -/
def Weather.judgement (w : Weather) (g : GlobalConfig) (sample : Fin 8) : Judged :=
  ⟨(w.judgeStorm g w.pulses).2.2, smokeWindOf g w.pulses, settledOf w sample⟩

/-- The weather at a window end before its publications: count and sample stored, the runs judged. -/
def Weather.closed (w : Weather) (g : GlobalConfig) (now : Nat) (sample : Fin 8) : Weather :=
  { w.nextWindow now sample with setRun := (w.judgeStorm g w.pulses).1, clearRun := (w.judgeStorm g w.pulses).2.1 }

/-- The weather with all three conditions published. -/
def Weather.published (w : Weather) (j : Judged) : Weather :=
  { w with storm := j.storm, smokeWind := j.smokeWind, settled := j.settled }

/-- R72: the order of the publications does not matter to the conditions. -/
theorem Weather.apply_publications (w : Weather) (j : Judged) (order : PublicationOrder) :
    (publications order).foldl (fun v c => v.apply j c) w = w.published j := by
  cases order <;> rfl

theorem Weather.apply_of_same {w : Weather} {j : Judged} (storm : j.storm = w.storm) (smokeWind : j.smokeWind = w.smokeWind)
    (settled : j.settled = w.settled) (c : Condition) : w.apply j c = w := by
  obtain ⟨jStorm, jSmokeWind, jSettled⟩ := j
  subst storm smokeWind settled
  cases c <;> rfl

/-! ## The publications (R72, R82) -/

/-- The publications of a list of conditions, in its order. -/
def Part.publishAll (p : Part) (j : Judged) (cs : List Condition) : Part := cs.foldl (fun q c => q.publish j c) p

section
variable (p : Part) (j : Judged)

theorem Part.publish_weather (c : Condition) : (p.publish j c).weather = p.weather.apply j c := by
  unfold Part.publish
  split
  next same => exact same.symm
  next => exact (Part.Reconsiders.recomputeAll _).units.weather

theorem Part.publish_now (c : Condition) : (p.publish j c).now = p.now := by
  unfold Part.publish
  split
  · rfl
  · exact (Part.Reconsiders.recomputeAll _).units.now

theorem Part.WeatherWork.publish (c : Condition) : p.WeatherWork (p.publish j c) := by
  unfold Part.publish
  split
  · exact .refl p
  · exact (Part.WeatherWork.setWeather p _).trans (.recomputeAll _)

theorem Part.publish_of_same {c : Condition} (same : p.weather.apply j c = p.weather) : p.publish j c = p := if_pos same

/-- R82: a condition that changed is published to every channel; one that did not changes nothing. -/
theorem Part.publish_eq_or_settled (c : Condition) : p.publish j c = p ∨ ∀ n, (p.publish j c).Settled n := by
  unfold Part.publish
  split
  · exact .inl rfl
  · exact .inr (Part.recomputeAll_settled _)

variable (cs : List Condition)

theorem Part.publishAll_weather : (p.publishAll j cs).weather = cs.foldl (fun w c => w.apply j c) p.weather :=
  (List.foldl_hom Part.weather fun q c => (q.publish_weather j c).symm).symm

theorem Part.publishAll_now : (p.publishAll j cs).now = p.now :=
  foldl_keeps (R := fun p q : Part => q.now = p.now) (fun _ => rfl) (fun h k => k.trans h) (fun q c => q.publish_now j c) cs p

theorem Part.WeatherWork.publishAll : p.WeatherWork (p.publishAll j cs) :=
  foldl_keeps .refl .trans (fun q c => .publish q j c) cs p

theorem Part.publishAll_of_same (same : ∀ c, p.weather.apply j c = p.weather) : p.publishAll j cs = p :=
  List.foldl_fixed' (f := fun (q : Part) c => q.publish j c) (fun c => p.publish_of_same j (same c)) cs

theorem Part.publishAll_eq_or_settled : p.publishAll j cs = p ∨ ∀ n, (p.publishAll j cs).Settled n :=
  foldl_keeps (R := fun p q : Part => q = p ∨ ∀ n, q.Settled n) (fun _ => .inl rfl)
    (fun h k => k.elim (fun e => e ▸ h) .inr) (fun q c => q.publish_eq_or_settled j c) cs p

end

/-! ## The window end (R71 to R77, R82) -/

/-- The instant of a window end (log 2). -/
def Part.windowEndAt (p : Part) : Nat := max p.now (p.weather.windowStart + p.globals.windWindow * 1000)

/-- The part at a window end before its publications. -/
def Part.closeWindow (p : Part) (sample : Fin 8) : Part :=
  (p.advanceTo (p.weather.windowStart + p.globals.windWindow * 1000)).setWeather
    (p.weather.closed p.globals p.windowEndAt sample)

section
variable (p : Part) (vane : BitVec 3) (order : PublicationOrder)

theorem Part.endWindWindow_eq : p.endWindWindow vane order =
    (p.closeWindow (sectorOfVane vane)).publishAll (p.weather.judgement p.globals (sectorOfVane vane)) (publications order) :=
  rfl

theorem Part.endWindWindow_weather : (p.endWindWindow vane order).weather =
    (p.weather.closed p.globals p.windowEndAt (sectorOfVane vane)).published
      (p.weather.judgement p.globals (sectorOfVane vane)) := by
  rw [Part.endWindWindow_eq, Part.publishAll_weather, Weather.apply_publications]; rfl

theorem Part.endWindWindow_now : (p.endWindWindow vane order).now = p.windowEndAt := by
  rw [Part.endWindWindow_eq, Part.publishAll_now]; rfl

theorem Part.WeatherWork.endWindWindow : p.WeatherWork (p.endWindWindow vane order) :=
  ((Part.WeatherWork.advanceTo p _).trans (.setWeather _ _)).trans (.publishAll _ _ _)

variable {p}

/-- A window end that changes none of the three conditions publishes nothing. -/
theorem Part.endWindWindow_chan_of_same (same : p.weather.judgement p.globals (sectorOfVane vane) =
      ⟨p.weather.storm, p.weather.smokeWind, p.weather.settled⟩) (n : ChannelId) :
    (p.endWindWindow vane order).chan n = p.chan n := by
  rw [Part.endWindWindow_eq, same, Part.publishAll_of_same _ _ _ (Weather.apply_of_same rfl rfl rfl)]
  rfl

/-- R82: a window end that changes one of them has every channel recomputed under the last change. -/
theorem Part.endWindWindow_settled (changes : p.weather.judgement p.globals (sectorOfVane vane) ≠
      ⟨p.weather.storm, p.weather.smokeWind, p.weather.settled⟩) (n : ChannelId) :
    (p.endWindWindow vane order).Settled n := by
  have weather := p.endWindWindow_weather vane order
  rw [Part.endWindWindow_eq] at weather ⊢
  refine (Part.publishAll_eq_or_settled _ _ _).elim (fun none => absurd ?_ changes) fun settled => settled n
  rw [none] at weather
  have conditions := congrArg (fun w => Judged.mk w.storm w.smokeWind w.settled) weather
  exact conditions.symm

end

/-- Settles O46: the weather is closed, judged and published; a publication has every channel recomputed. -/
theorem windowEndJudgesTheWeather : Obligations.WindowEndJudgesTheWeather := by
  intro s vane order w g sample
  have sample_eq : sectorOfVane vane = sample := sectorOfVane_eq vane
  let t := s.event (·.endWindWindow vane order)
  have now : t.part.now = s.part.windowEndAt := (s.event_now _).trans (s.part.endWindWindow_now vane order)
  have weather : t.part.weather = (w.closed g s.part.windowEndAt sample).published (w.judgement g sample) := by
    rw [← sample_eq]; exact (s.event_weather _).trans (s.part.endWindWindow_weather vane order)
  have storm : t.part.weather.storm = (w.judgeStorm g w.pulses).2.2 := congrArg Weather.storm weather
  have setRun : t.part.weather.setRun = (w.judgeStorm g w.pulses).1 := congrArg Weather.setRun weather
  have clearRun : t.part.weather.clearRun = (w.judgeStorm g w.pulses).2.1 := congrArg Weather.clearRun weather
  have smokeWind : t.part.weather.smokeWind = smokeWindOf g w.pulses := congrArg Weather.smokeWind weather
  have settled : t.part.weather.settled = settledOf w sample := congrArg Weather.settled weather
  have judged : w.judgement g (sectorOfVane vane) =
      ⟨t.part.weather.storm, t.part.weather.smokeWind, t.part.weather.settled⟩ := by
    rw [sample_eq, storm, smokeWind, settled]; rfl
  have governed (changes : w.judgement g (sectorOfVane vane) ≠ ⟨w.storm, w.smokeWind, w.settled⟩) (n : ChannelId) :
      t.part.Settled n :=
    Part.Settled.event s (·.endWindWindow vane order) (Part.endWindWindow_settled vane order changes n)
  refine ⟨t, rfl, congrArg Weather.lastCount weather, congrArg Weather.lastSample weather, congrArg Weather.pulses weather,
    now, (congrArg Weather.windowStart weather).trans now.symm, fun calm strong last => ?sets, fun calm strong more => ?setRun,
    fun calm weak => ?calm, fun stormy weak last => ?clears, fun stormy weak more => ?clearRun, fun stormy strong => ?storm,
    ?smokeWind, settled, (congrArg Weather.rainState weather :), (congrArg Weather.rainFrom weather :),
    fun sameStorm sameSmoke sameSector => s.event_sameChans (·.endWindWindow vane order)
      (Part.endWindWindow_chan_of_same vane order ?same),
    fun changes => governed fun same => ?changes,
    s.event_weatherWork _ (.endWindWindow _ vane order)⟩
  case sets => rw [storm, setRun, clearRun, Weather.judgeStorm_sets calm strong last]; exact ⟨rfl, rfl, rfl⟩
  case setRun => rw [storm, setRun, Weather.judgeStorm_setRun calm strong more]; exact ⟨rfl, rfl⟩
  case calm => rw [storm, setRun, Weather.judgeStorm_calm calm weak]; exact ⟨rfl, rfl⟩
  case clears => rw [storm, setRun, clearRun, Weather.judgeStorm_clears stormy weak last]; exact ⟨rfl, rfl, rfl⟩
  case clearRun => rw [storm, clearRun, Weather.judgeStorm_clearRun stormy weak more]; exact ⟨rfl, rfl⟩
  case storm => rw [storm, clearRun, Weather.judgeStorm_storm stormy strong]; exact ⟨rfl, rfl⟩
  case smokeWind => rw [smokeWind]; exact decide_eq_true_iff
  case same => rw [← sameStorm, ← sameSmoke, ← sameSector]; exact judged
  case changes =>
    obtain ⟨sameStorm, sameSmoke, sameSector⟩ := Judged.mk.inj (judged.symm.trans same)
    rcases changes with differs | differs | differs
    · exact differs sameStorm
    · exact differs sameSmoke
    · exact differs sameSector

/-! ## Rain (R78, R79, R82) -/

/-- R78: the debounce after a contact change. -/
def Weather.contacted (w : Weather) (active : Bool) (now : Nat) : Weather :=
  match w.rainState, active with
  | .dry, true => { w with rainState := .wetting, rainFrom := some now }
  | .wetting, false => { w with rainState := .dry, rainFrom := none }
  | .wet, false => { w with rainState := .drying, rainFrom := some now }
  | .drying, true => { w with rainState := .wet, rainFrom := none }
  | .dry, false | .wetting, true | .wet, true | .drying, false => w

/-- R79: a contact change does not change rain. -/
theorem Weather.contacted_rain (w : Weather) (active : Bool) (now : Nat) : (w.contacted active now).rain = w.rain := by
  unfold Weather.contacted Weather.rain
  cases state : w.rainState <;> cases active <;> simp only [state]

theorem Part.changeRainContact_eq (p : Part) (active : Bool) :
    p.changeRainContact active = p.setWeather (p.weather.contacted active p.now) ∨
      p.changeRainContact active = p ∧ p.weather.contacted active p.now = p.weather := by
  unfold Part.changeRainContact Weather.contacted
  dsimp only
  cases p.weather.rainState <;> cases active
  case dry.false | wetting.true | wet.true | drying.false => exact .inr ⟨rfl, rfl⟩
  case dry.true | wetting.false | wet.false | drying.true => exact .inl rfl

theorem Part.changeRainContact_weather (p : Part) (active : Bool) :
    (p.changeRainContact active).weather = p.weather.contacted active p.now := by
  rcases p.changeRainContact_eq active with written | ⟨stands, same⟩
  · rw [written]; rfl
  · rw [stands, same]

theorem Part.WeatherOnly.changeRainContact (p : Part) (active : Bool) : p.WeatherOnly (p.changeRainContact active) := by
  rcases p.changeRainContact_eq active with written | ⟨stands, -⟩
  · exact written ▸ .setWeather p _
  · exact stands.symm ▸ .refl p

/-- R78: the rain timer reaches its delay, at its own instant (log 2). -/
theorem Part.rainTimerExpiry_running {p : Part} {since : Nat} (running : p.weather.rainFrom = some since)
    (state : p.weather.rainState = .wetting ∨ p.weather.rainState = .drying) :
    p.rainTimerExpiry = ((p.advanceTo (since + rainDelay p.globals p.weather.rainState * 1000)).setWeather
      p.weather.rainEnded).recomputeAll := by
  rw [Part.rainTimerExpiry, running]
  exact (Part.expireRain_eq _).trans (if_pos state)

/-- Settles O47: the contact writes the debounce alone; the timer's end is published to every channel. -/
theorem rainDebounceFollowsTheContact : Obligations.RainDebounceFollowsTheContact := by
  constructor
  · intro s active w
    have weather : (s.event (·.changeRainContact active)).part.weather = w.contacted active s.part.now :=
      (s.event_weather _).trans (s.part.changeRainContact_weather active)
    refine ⟨s.event (·.changeRainContact active), rfl, ?wets, ?dries, ?leavesWet, ?leavesDrying, ?rain,
      s.event_weatherOnly _ (.changeRainContact _ active)⟩
    case rain => rw [weather, Weather.contacted_rain]
    all_goals
      rintro state rfl
      rw [weather]
      simp only [Weather.contacted, state]
  · intro s since running state w
    let t := s.event (·.rainTimerExpiry)
    have expired := Part.rainTimerExpiry_running running state
    have units := (Part.Reconsiders.recomputeAll ((s.part.advanceTo
      (since + rainDelay s.part.globals w.rainState * 1000)).setWeather w.rainEnded)).units
    have weather : t.part.weather = w.rainEnded := by
      rw [State.event_weather, expired]; exact units.weather
    have now : t.part.now = max s.part.now (since + rainDelay s.part.globals w.rainState * 1000) := by
      rw [State.event_now, expired]; exact units.now
    have settled (n : ChannelId) : t.part.Settled n :=
      Part.Settled.event s (·.rainTimerExpiry) (by rw [expired]; exact Part.recomputeAll_settled _ n)
    have work : s.part.WeatherWork s.part.rainTimerExpiry :=
      expired ▸ ((Part.WeatherWork.advanceTo s.part _).trans (.setWeather _ _)).trans (.recomputeAll _)
    refine ⟨t, rfl, fun wetting => ?wetting, fun drying => ?drying,
      settled, s.event_weatherWork _ work⟩
    case wetting =>
      rw [weather, now, Weather.rainEnded, wetting]
      exact ⟨rfl, rfl, rfl⟩
    case drying =>
      rw [weather, now, Weather.rainEnded, drying]
      exact ⟨rfl, rfl, rfl⟩

end Sys2Proof.Machine
end

section
/-! SUPPORT. What grant notices and failed attempts leave of a line, its bank and the notices (R97 to R107, R112). -/

namespace Sys2Proof.Machine

/-- Whether an exchange carries a test frame. -/
def ExchangeKind.isTest : ExchangeKind → Bool
  | .test _ _ => true
  | .order _ | .query _ _ => false

/-- What is in flight on a line: nothing, a transaction (`false`) or a test frame (`true`). -/
def Line.flight (x : Line) : Option Bool := x.exchange.map fun e => e.kind.isTest

theorem Line.flight_eq_none {x : Line} : x.flight = none ↔ x.exchange = none := Option.map_eq_none_iff

theorem Line.flight_of_exchange {x y : Line} (h : y.exchange = x.exchange) : y.flight = x.flight := by
  rw [Line.flight, h]; rfl

section
variable {x y : Line}

theorem Line.QueueOnly.answer (h : x.QueueOnly y) : y.answer = x.answer := by
  unfold Line.QueueOnly at h; rw [← h]
theorem Line.QueueOnly.receiving (h : x.QueueOnly y) : y.receiving = x.receiving := by
  unfold Line.QueueOnly at h; rw [← h]

end

/-- Of a line only the queue, the retake and the class of the order in flight differ (R98). -/
structure Line.Requeued (x y : Line) : Prop where
  queue : x.QueueOnly y
  flight : y.flight = x.flight

section
variable (x : Line) (n : ChannelId)

theorem Line.Requeued.refl : x.Requeued x := ⟨.refl x, rfl⟩
theorem Line.Requeued.trans {x y z : Line} (h : x.Requeued y) (k : y.Requeued z) : x.Requeued z :=
  ⟨h.queue.trans k.queue, k.flight.trans h.flight⟩

theorem Line.Requeued.of_queue {x y : Line} (queue : x.QueueOnly y) (exchange : y.exchange = x.exchange) : x.Requeued y :=
  ⟨queue, Line.flight_of_exchange exchange⟩

theorem Line.Requeued.remove : x.Requeued (x.remove n) := .of_queue (.remove x n) rfl
theorem Line.Requeued.join (o : Order) : x.Requeued (x.join o) := .of_queue (.join x o) (by simp)
theorem Line.Requeued.reenter (o : Order) : x.Requeued (x.reenter o) := .of_queue (.reenter x o) (by simp)
theorem Line.Requeued.retarget (t : Nat) (cls : OrderClass) : x.Requeued (x.retarget n t cls) :=
  .of_queue (.retarget x n t cls) (by simp)

theorem Line.Requeued.reclassInFlight (cls : OrderClass) : x.Requeued (x.reclassInFlight n cls) where
  queue := .reclassInFlight x n cls
  flight := by
    rcases x.reclassInFlight_cases n cls with h | ⟨e, o, he, hk, -, -, h⟩
    · rw [h]
    · rw [h, Line.flight, Line.flight, he, Option.map_some, Option.map_some, hk]; rfl

end

/-- Besides channel records, queues and the CHANNEL bank nothing that a line shows differs, nor do the notices. -/
structure Part.MotionWork (p q : Part) : Prop where
  line : ∀ k, (p.line k).Requeued (q.line k)
  bank : ∀ b, b ≠ .channel → q.bank b = p.bank b
  notices : p.SameNotices q

section
variable {p q r : Part}

theorem Part.MotionWork.refl (p : Part) : p.MotionWork p := ⟨fun _ => .refl _, fun _ _ => rfl, rfl, rfl⟩

theorem Part.MotionWork.trans (h : p.MotionWork q) (k : q.MotionWork r) : p.MotionWork r where
  line l := (h.line l).trans (k.line l)
  bank b hb := (k.bank b hb).trans (h.bank b hb)
  notices := ⟨k.notices.1.trans h.notices.1, k.notices.2.trans h.notices.2⟩

/-- A step that writes neither lines nor banks nor notices. -/
theorem Part.MotionWork.of_same (h : p.MotionWork q) (lines : r.lines = q.lines) (banks : r.banks = q.banks)
    (notices : q.SameNotices r) : p.MotionWork r :=
  h.trans ⟨fun l => by rw [show r.line l = q.line l by rw [Part.line, lines]; rfl]; exact .refl _,
    fun b _ => by rw [Part.bank, banks]; rfl, notices⟩

theorem Part.MotionWork.modChan (h : p.MotionWork q) (n : ChannelId) (f : Channel → Channel) : p.MotionWork (q.modChan n f) :=
  h.of_same rfl rfl ⟨rfl, rfl⟩

theorem Part.MotionWork.modLine (h : p.MotionWork q) (l : LineId) (f : Line → Line) (hf : ∀ x : Line, x.Requeued (f x)) :
    p.MotionWork (q.modLine l f) :=
  h.trans ⟨fun k => by
    rw [Part.line_modLine]
    split
    next e => rw [e]; exact hf _
    next => exact .refl _, fun _ _ => rfl, rfl, rfl⟩

theorem Part.MotionWork.recordChannel (h : p.MotionWork q) (e : ErrorRecord) : p.MotionWork (q.record .channel e) :=
  h.trans ⟨fun _ => .refl _, fun b hb => by rw [Part.bank_record, if_neg hb], rfl, rfl⟩

theorem Part.MotionWork.setMotion (h : p.MotionWork q) (n : ChannelId) (m : Motion) : p.MotionWork (q.setMotion n m) :=
  h.modChan n _
theorem Part.MotionWork.removeOrder (h : p.MotionWork q) (n : ChannelId) : p.MotionWork (q.removeOrder n) :=
  h.modLine _ _ fun x => .remove x n
theorem Part.MotionWork.joinOrder (h : p.MotionWork q) (n : ChannelId) (t : Nat) : p.MotionWork (q.joinOrder n t) :=
  h.modLine _ _ fun x => .join x _
theorem Part.MotionWork.reenter (h : p.MotionWork q) (l : LineId) (o : Order) :
    p.MotionWork (q.modLine l fun x => x.reenter o) := h.modLine l _ fun x => .reenter x o

/-! ## Grant notices (R99 to R101) -/

theorem Part.MotionWork.testIdle (h : p.MotionWork q) (n : ChannelId) : p.MotionWork (q.testIdle n) := by
  unfold Part.testIdle
  dsimp only
  split
  · split
    · exact (h.joinOrder n _).setMotion n _
    · exact h
  · exact h

theorem Part.MotionWork.supersede (h : p.MotionWork q) (n : ChannelId) (t : Nat) : p.MotionWork (q.supersede n t) := by
  have reclassed : p.MotionWork (q.reclass n) := h.modLine _ _ fun x => .reclassInFlight x n _
  rw [Part.supersede_eq]
  split
  · exact reclassed.removeOrder n
  · split
    · exact reclassed.modLine _ _ fun x => .retarget x n t _
    · exact reclassed.joinOrder n t

theorem Part.MotionWork.notice (h : p.MotionWork q) (n : ChannelId) : p.MotionWork (q.notice n) := by
  unfold Part.notice
  dsimp only
  split
  · exact h.testIdle n
  · split
    · exact ((h.removeOrder n).modChan n _).setMotion n _
    · exact h.modLine _ _ fun x => .retarget x n _ _
  · exact h.supersede n _
  · exact h.supersede n _
  · exact h

theorem Part.MotionWork.recompute (h : p.MotionWork q) (n : ChannelId) : p.MotionWork (q.recompute n) := by
  have regranted : p.MotionWork (q.regrant n) := h.of_same rfl rfl ⟨rfl, rfl⟩
  rw [Part.recompute_eq]
  split
  · exact h
  · exact regranted.notice n

theorem Part.MotionWork.recomputeZone (h : p.MotionWork q) (z : ZoneId) : p.MotionWork (q.recomputeZone z) :=
  Part.forEach_inv (inv := p.MotionWork) (fun n _ _ k => k.recompute n) h

/-! ## Failed attempts (R103, R107, R112) -/

theorem Part.MotionWork.dropWork (h : p.MotionWork q) (n : ChannelId) : p.MotionWork (q.dropWork n) :=
  (h.removeOrder n).modChan n _
theorem Part.MotionWork.enterFaulted (h : p.MotionWork q) (n : ChannelId) (f : FaultCode) :
    p.MotionWork (q.enterFaulted n f) := ((h.modChan n _).setMotion n _).recordChannel _
theorem Part.MotionWork.faultChannel (h : p.MotionWork q) (n : ChannelId) (f : FaultCode) :
    p.MotionWork (q.faultChannel n f) := (h.dropWork n).enterFaulted n f
theorem Part.MotionWork.goOffline (h : p.MotionWork q) (n : ChannelId) : p.MotionWork (q.goOffline n) :=
  (((h.dropWork n).modChan n _).setMotion n _).recordChannel _

theorem Part.MotionWork.settleAttempt (h : p.MotionWork q) (l : LineId) (o : Order) : p.MotionWork (q.settleAttempt l o) := by
  unfold Part.settleAttempt
  dsimp only
  split
  · exact h.reenter l _
  · have entered : p.MotionWork (if ((q.line l).queued o.channel).isSome then q else q.modLine l fun x => x.reenter o) := by
      split; exacts [h, h.reenter l o]
    split
    · exact entered.setMotion _ _
    · split
      · exact Part.MotionWork.setMotion (entered.modChan _ _) _ _
      · exact entered.setMotion _ _

theorem Part.MotionWork.orderFailed (h : p.MotionWork q) (l : LineId) (o : Order) (f : Failure) :
    p.MotionWork (q.orderFailed l o f) := by
  unfold Part.orderFailed
  dsimp only
  split
  · split
    · exact h.settleAttempt l o
    · split
      · exact h.faultChannel _ _
      · exact h.settleAttempt l _
  · split
    · exact h.enterFaulted _ _
    · exact h.settleAttempt l _

theorem Part.MotionWork.queryMissed (h : p.MotionWork q) (n : ChannelId) : p.MotionWork (q.queryMissed n) := by
  have missed := h.modChan n fun c => { c with miss := saturate missCeiling ((q.chan n).miss + 1) }
  unfold Part.queryMissed
  dsimp only
  split
  iterate 3 exact h
  · exact h.modChan n _
  · split
    · exact (h.modChan n _).modChan n _
    · exact h.modChan n _
  all_goals
    split
    · exact (h.modChan n _).goOffline n
    · exact h.modChan n _

end

/-! ## The end of an exchange, and a failed transaction (R123) -/

section
variable (p : Part) (l : LineId) (free : Nat)

theorem Part.endExchange_sameNotices : p.SameNotices (p.endExchange l free) := by
  unfold Part.endExchange
  split
  · dsimp only
    split
    · split <;> exact ⟨rfl, rfl⟩
    all_goals exact ⟨rfl, rfl⟩
  · exact ⟨rfl, rfl⟩

end

/-- R123: a transaction in flight on a line has ended as a failure, which the line's bank has taken. -/
structure Part.FailedOn (l : LineId) (p q : Part) : Prop where
  exchange : (q.line l).exchange = none
  answer : (q.line l).answer = (p.line l).answer
  bank : (q.bank (.line l)).record.isSome = true
  notices : p.SameNotices q

/-- The error is recorded at the end of the exchange; what the Motion Unit makes of the result changes none of it. -/
theorem Part.FailedOn.of_work {p r : Part} {l : LineId} {free : Nat} {e : Exchange} {error : ErrorRecord}
    (he : (p.line l).exchange = some e) (work : ((p.endExchange l free).record (.line l) error).MotionWork r) :
    Part.FailedOn l p r := by
  have ended : ((p.endExchange l free).record (.line l) error).line l = (p.line l).endExchange free :=
    p.endExchange_line l free he
  obtain ⟨queue, flight⟩ := work.line l
  rw [ended] at queue flight
  refine ⟨Line.flight_eq_none.1 flight, queue.answer, ?_, ?_⟩
  · rw [work.bank _ BankId.noConfusion, Part.bank_record_self]
    exact Bank.take_count_isSome _ _
  · obtain ⟨set, acks⟩ := p.endExchange_sameNotices l free
    exact ⟨work.notices.1.trans set, work.notices.2.trans acks⟩

/-- R107, R112, R123: an ORDER, HALT or QUERY in flight fails. -/
theorem Part.failExchange_failedOn {p : Part} {l : LineId} (h : (p.line l).flight = some false) (f : Failure) (free : Nat) :
    Part.FailedOn l p (p.failExchange l f free) := by
  obtain ⟨e, he, kind⟩ := Option.map_eq_some_iff.1 h
  unfold Part.failExchange
  rw [he]
  dsimp only
  split
  · exact .of_work he ((Part.MotionWork.refl _).orderFailed l _ f)
  · exact .of_work he ((Part.MotionWork.refl _).queryMissed _)
  next hk => rw [hk] at kind; exact nomatch kind

end Sys2Proof.Machine
end

section
/-! SUPPORT. A KEY frame at the Zone Unit: the overrides of the named zones and the grants of their channels (R84 to R90). -/

namespace Sys2Proof.Machine

/-! ## The bytes of a KEY frame (R85, R196, R198) -/

/-- R87: a known command and a zone named. -/
abbrev keyValid (zones command : Byte) : Prop :=
  zones.extractLsb' 0 6 ≠ 0 ∧ (command = 1 ∨ command = 2 ∨ command = 3)

theorem zoneSetOfByte_getLsbD (zones : Byte) (z : ZoneId) : (zoneSetOfByte zones).getLsbD z.val = zones.getLsbD z.val := by
  simp [zoneSetOfByte]

theorem zoneSetOfByte_ne_zero (zones : Byte) : zoneSetOfByte zones ≠ 0 ↔ ∃ z : ZoneId, zones.getLsbD z.val = true := by
  constructor
  · intro h
    by_contra none
    refine h (BitVec.eq_of_getLsbD_eq fun i hi => ?_)
    have bit : zones.getLsbD i = false := Bool.eq_false_of_not_eq_true fun k => none ⟨⟨i, hi⟩, k⟩
    rw [zoneSetOfByte_getLsbD zones ⟨i, hi⟩, bit]; simp
  · rintro ⟨z, hz⟩ empty
    rw [← zoneSetOfByte_getLsbD, empty] at hz
    simp at hz

/-- The named commands are the known ones. -/
theorem keyCommandOfByte_isSome (command : Byte) :
    (keyCommandOfByte command).isSome = true ↔ command = 1 ∨ command = 2 ∨ command = 3 := by
  unfold keyCommandOfByte
  split
  next h => simp [BitVec.eq_of_toNat_eq (y := 1#8) h]
  next h => simp [BitVec.eq_of_toNat_eq (y := 2#8) h]
  next h => simp [BitVec.eq_of_toNat_eq (y := 3#8) h]
  next h1 h2 h3 =>
    simp only [Option.isSome_none, Bool.false_eq_true, false_iff]
    rintro (rfl | rfl | rfl)
    exacts [h1 rfl, h2 rfl, h3 rfl]

/-- R88: the override that a command of a KEY frame makes of a named zone's, with its line and station. -/
def keyOverride (command : Byte) (l : LineId) (station : BitVec 4) : Option KeyOverride :=
  if command = 1 then some ⟨.opens, l, station⟩ else if command = 2 then some ⟨.closes, l, station⟩ else none

theorem overrideOf_keyCommandOfByte {command : Byte} {cmd : KeyCommand} (h : keyCommandOfByte command = some cmd) (l : LineId)
    (station : BitVec 4) : overrideOf cmd l station = keyOverride command l station := by
  unfold keyCommandOfByte at h
  split at h
  next hc => rw [← Option.some.inj h, BitVec.eq_of_toNat_eq (x := command) (y := 1#8) hc]; rfl
  next hc => rw [← Option.some.inj h, BitVec.eq_of_toNat_eq (x := command) (y := 2#8) hc]; rfl
  next hc => rw [← Option.some.inj h, BitVec.eq_of_toNat_eq (x := command) (y := 3#8) hc]; rfl
  next => exact nomatch h

/-! ## The overrides of a set of zones (R88) -/

/-- General alarm, weather, globals, Command Unit and notices are as they were. -/
structure Part.SameSurroundings (p q : Part) : Prop where
  ga : q.ga = p.ga
  weather : q.weather = p.weather
  globals : q.globals = p.globals
  cmd : q.cmd = p.cmd
  notices : p.SameNotices q

/-- R88: the override of each zone of a set is the given one, and the channels of these zones hold the result of the governing
order; of the other channels and zones nothing differs, nor does a bank. -/
structure Part.Overridden (set : ZoneId → Bool) (value : Option KeyOverride) (p q : Part) : Prop where
  surroundings : p.SameSurroundings q
  line : ∀ k, (p.line k).Requeued (q.line k)
  banks : q.banks = p.banks
  cfg : ∀ n, (q.chan n).cfg = (p.chan n).cfg
  zone : ∀ z, q.zone z = if set z then { p.zone z with override := value } else p.zone z
  stands : ∀ n, set (p.chan n).cfg.zone = false → q.chan n = p.chan n
  settled : ∀ n, set (p.chan n).cfg.zone = true → q.Settled n

section
variable {p q r : Part} {a b : ZoneId → Bool} {value : Option KeyOverride}

theorem Part.SameSurroundings.refl (p : Part) : p.SameSurroundings p := ⟨rfl, rfl, rfl, rfl, rfl, rfl⟩

theorem Part.SameSurroundings.trans (h : p.SameSurroundings q) (k : q.SameSurroundings r) : p.SameSurroundings r where
  ga := k.ga.trans h.ga
  weather := k.weather.trans h.weather
  globals := k.globals.trans h.globals
  cmd := k.cmd.trans h.cmd
  notices := ⟨k.notices.1.trans h.notices.1, k.notices.2.trans h.notices.2⟩

theorem Part.KeepsGrants.surroundings (h : p.KeepsGrants q) (notices : p.SameNotices q) : p.SameSurroundings q :=
  ⟨h.ga, h.weather, h.globals, h.cmd, notices⟩

theorem Part.Overridden.refl (p : Part) : Part.Overridden (fun _ => false) value p p where
  surroundings := .refl p
  line _ := .refl _
  banks := rfl
  cfg _ := rfl
  zone _ := rfl
  stands _ _ := rfl
  settled _ hn := nomatch hn

theorem Part.Overridden.bank (h : Part.Overridden a value p q) (b : BankId) : q.bank b = p.bank b := by
  rw [Part.bank, h.banks]; rfl

/-- A later override of another zone leaves a grant the result of the governing order. -/
theorem Part.Settled.overridden {n : ChannelId} (h : p.Settled n) (k : Part.Overridden b value p q)
    (hn : b (p.chan n).cfg.zone = false) : q.Settled n := by
  have zone := k.zone (p.chan n).cfg.zone
  rw [hn] at zone
  unfold Part.Settled
  rw [k.stands n hn, k.surroundings.weather, zone]
  exact h

theorem Part.Overridden.trans (h : Part.Overridden a value p q) (k : Part.Overridden b value q r) :
    Part.Overridden (fun z => a z || b z) value p r where
  surroundings := h.surroundings.trans k.surroundings
  line l := (h.line l).trans (k.line l)
  banks := k.banks.trans h.banks
  cfg n := (k.cfg n).trans (h.cfg n)
  zone z := by
    rw [k.zone z, h.zone z]
    cases a z <;> cases b z <;> rfl
  stands n hn := by
    obtain ⟨ha, hb⟩ := Bool.or_eq_false_iff.1 hn
    rw [k.stands n (by rwa [h.cfg]), h.stands n ha]
  settled n hn := by
    cases hb : b (q.chan n).cfg.zone with
    | true => exact k.settled n hb
    | false =>
      rw [h.cfg] at hb
      rw [hb, Bool.or_false] at hn
      exact (h.settled n hn).overridden k (by rwa [h.cfg])

/-- One named zone. -/
def Part.overrideZone (p : Part) (value : Option KeyOverride) (z : ZoneId) : Part :=
  (p.modZone z fun x => { x with override := value }).recomputeZone z

theorem Part.Overridden.overrideZone (p : Part) (value : Option KeyOverride) (z : ZoneId) :
    Part.Overridden (fun y => decide (y = z)) value p (p.overrideZone value z) := by
  have grants := Part.Reconsiders.recomputeZone (p.modZone z fun x => { x with override := value }) z
  have written : p.MotionWork (p.modZone z fun x => { x with override := value }) :=
    (Part.MotionWork.refl p).of_same rfl rfl ⟨rfl, rfl⟩
  have work := written.recomputeZone z
  exact {
    surroundings := ⟨grants.units.ga, grants.units.weather, grants.units.globals, grants.units.cmd, work.notices⟩
    line := work.line
    banks := grants.banks
    cfg := (Part.recomputeZone_onlyGrants _ z).cfg
    zone := fun y => by
      rw [Part.overrideZone, grants.units.zone, Part.zone_modZone]
      by_cases e : y = z
      · subst e; simp
      · simp [e]
    stands := fun n hn => Part.recomputeZone_chan_of_ne _ z (of_decide_eq_false hn)
    settled := fun n hn => Part.recomputeZone_settled _ z n (of_decide_eq_true hn) }

theorem Part.takeKey_eq (p : Part) (zones : BitVec 6) (cmd : KeyCommand) (l : LineId) (station : BitVec 4) :
    p.takeKey zones cmd l station =
      allZones.foldl (fun q z => if zones.getLsbD z.val then q.overrideZone (overrideOf cmd l station) z else q) p := rfl

/-- R88: a KEY command, zone by zone. -/
theorem Part.Overridden.takeKey (p : Part) (zones : BitVec 6) (cmd : KeyCommand) (l : LineId) (station : BitVec 4) :
    Part.Overridden (fun z => zones.getLsbD z.val) (overrideOf cmd l station) p (p.takeKey zones cmd l station) := by
  have turns (zs : List ZoneId) (p : Part) :
      Part.Overridden (fun z => decide (z ∈ zs) && zones.getLsbD z.val) (overrideOf cmd l station) p
        (zs.foldl (fun q z => if zones.getLsbD z.val then q.overrideZone (overrideOf cmd l station) z else q) p) := by
    induction zs generalizing p with
    | nil => exact .refl p
    | cons z zs ih =>
      have turn : Part.Overridden (fun y => decide (y = z) && zones.getLsbD z.val) (overrideOf cmd l station) p
          (if zones.getLsbD z.val then p.overrideZone (overrideOf cmd l station) z else p) := by
        cases zones.getLsbD z.val
        · simpa using Part.Overridden.refl p
        · simpa using Part.Overridden.overrideZone p _ z
      have both := turn.trans (ih _)
      have set (y : ZoneId) : (decide (y = z) && zones.getLsbD z.val || (decide (y ∈ zs) && zones.getLsbD y.val)) =
          (decide (y ∈ z :: zs) && zones.getLsbD y.val) := by
        by_cases e : y = z
        · subst e; cases zones.getLsbD y.val <;> simp
        · simp [e]
      exact funext set ▸ both
  have all := turns allZones p
  simp only [mem_allZones, decide_true, Bool.true_and] at all
  rw [Part.takeKey_eq]
  exact all

end

/-! ## The answer (R86, R87) -/

/-- The end of a KEY frame and its answer, before the frame is taken or refused. -/
def Part.answering (p : Part) (l : LineId) (a : Answer) : Part :=
  (p.lineBusyUntilGap l).modLine l fun x => { x with answer := some a }

/-- R87: the error of a malformed KEY frame. -/
def malformedKey (l : LineId) : ErrorRecord := ⟨.notice, .keyRefused, some (.line l), some .malformed⟩

section
variable (p : Part) (l : LineId) (addr : BitVec 4) {zones command : Byte}

theorem Part.answering_line (a : Answer) (k : LineId) :
    (p.answering l a).line k = if k = l then { (p.line l).heard p.now with answer := some a } else p.line k := by
  simp only [Part.answering, Part.lineBusyUntilGap, Part.line_modLine]
  split <;> rfl

theorem Part.answering_line_self (a : Answer) :
    (p.answering l a).line l = { (p.line l).heard p.now with answer := some a } :=
  (p.answering_line l a l).trans (if_pos rfl)

@[simp] theorem Part.answering_chan (a : Answer) (n : ChannelId) : (p.answering l a).chan n = p.chan n := rfl
@[simp] theorem Part.answering_zone (a : Answer) (z : ZoneId) : (p.answering l a).zone z = p.zone z := rfl
@[simp] theorem Part.answering_bank (a : Answer) (b : BankId) : (p.answering l a).bank b = p.bank b := rfl
@[simp] theorem Part.answering_zones (a : Answer) : (p.answering l a).zones = p.zones := rfl

/-- R88: a valid frame is taken. -/
theorem Part.answerKey_valid (h : keyValid zones command) :
    Part.Overridden (fun z => zones.getLsbD z.val) (keyOverride command l addr)
      (p.answering l ⟨addr, true⟩) (p.answerKey l addr zones command) := by
  obtain ⟨named, known⟩ := h
  obtain ⟨cmd, hc⟩ := Option.isSome_iff_exists.1 ((keyCommandOfByte_isSome command).2 known)
  have taken := Part.Overridden.takeKey (p.answering l ⟨addr, true⟩) (zoneSetOfByte zones) cmd l addr
  simp only [zoneSetOfByte_getLsbD, overrideOf_keyCommandOfByte hc] at taken
  unfold Part.answerKey
  rw [hc]
  dsimp only
  rw [if_neg (show ¬ zoneSetOfByte zones = 0 from named)]
  exact taken

/-- R87: any other is refused. -/
theorem Part.answerKey_malformed (h : ¬ keyValid zones command) :
    p.answerKey l addr zones command = (p.answering l ⟨addr, false⟩).record (.line l) (malformedKey l) := by
  unfold Part.answerKey
  dsimp only
  split
  next cmd hc =>
    have known := (keyCommandOfByte_isSome command).1 (Option.isSome_of_eq_some hc)
    have unnamed : zoneSetOfByte zones = 0 := not_not.1 fun named => h ⟨named, known⟩
    rw [if_pos unnamed]
    rfl
  next => rfl

theorem Part.answering_surroundings (a : Answer) : p.SameSurroundings (p.answering l a) := ⟨rfl, rfl, rfl, rfl, rfl, rfl⟩

theorem Part.answerKey_surroundings : p.SameSurroundings (p.answerKey l addr zones command) := by
  by_cases h : keyValid zones command
  · exact (p.answering_surroundings l _).trans (p.answerKey_valid l addr h).surroundings
  · rw [p.answerKey_malformed l addr h]
    exact (p.answering_surroundings l ⟨addr, false⟩).trans ⟨rfl, rfl, rfl, rfl, rfl, rfl⟩

/-- R123, R125, R128: the line after a KEY frame, whose answer waits. -/
theorem Part.answerKey_line :
    ({ (p.line l).heard p.now with answer := some ⟨addr, decide (keyValid zones command)⟩ } : Line).Requeued
      ((p.answerKey l addr zones command).line l) := by
  by_cases valid : keyValid zones command
  · rw [decide_eq_true valid, ← Part.answering_line_self]
    exact (p.answerKey_valid l addr valid).line l
  · rw [p.answerKey_malformed l addr valid, decide_eq_false valid, Part.record_line, Part.answering_line_self]
    exact .refl _

end

/-! ## A KEY frame by what is in flight (R86, R123, R145) -/

section
variable {p : Part} {l : LineId} {addr : BitVec 4} {zones command : Byte} {first : Bool}

theorem Part.hearKey_out (station : isStation addr = true) (out : (p.line l).state = .disabled ∨ (p.line l).state = .failed) :
    p.hearKey l addr zones command first = p := by
  rcases out with h | h <;> simp only [Part.hearKey, station, if_true, h]

variable (station : isStation addr = true) (on : (p.line l).state ≠ .disabled) (inService : (p.line l).state ≠ .failed)
include station on inService

theorem Part.hearKey_free (he : (p.line l).exchange = none) :
    p.hearKey l addr zones command first = p.answerKey l addr zones command := by
  unfold Part.hearKey
  rw [if_pos station]
  dsimp only
  split
  next h => exact absurd h on
  next h => exact absurd h inService
  all_goals rw [he]

theorem Part.hearKey_sending {e : Exchange} (he : (p.line l).exchange = some e) (hs : e.sentAt = none) :
    p.hearKey l addr zones command first = p := by
  unfold Part.hearKey
  rw [if_pos station]
  dsimp only
  split
  next h => exact absurd h on
  next h => exact absurd h inService
  all_goals rw [he]; dsimp only; rw [hs]

theorem Part.hearKey_test {e : Exchange} {sent : Nat} {bytes : Pattern} {discarded : Bool}
    (he : (p.line l).exchange = some e) (hs : e.sentAt = some sent) (hk : e.kind = .test bytes discarded) :
    p.hearKey l addr zones command first =
      (p.countTest l bytes discarded [] (p.now + gapTime)).answerKey l addr zones command := by
  unfold Part.hearKey
  rw [if_pos station]
  dsimp only
  split
  next h => exact absurd h on
  next h => exact absurd h inService
  all_goals rw [he]; dsimp only; rw [hs, hk]

theorem Part.hearKey_transaction {e : Exchange} {sent : Nat} (he : (p.line l).exchange = some e) (hs : e.sentAt = some sent)
    (hk : e.kind.isTest = false) :
    p.hearKey l addr zones command first =
      if first then (p.failExchange l .unexpectedFrame (p.now + gapTime)).answerKey l addr zones command
      else (p.answerKey l addr zones command).failExchange l .unexpectedFrame (p.now + gapTime) := by
  obtain ⟨kind, node, sentAt⟩ := e
  unfold Part.hearKey
  rw [if_pos station]
  dsimp only
  split
  next h => exact absurd h on
  next h => exact absurd h inService
  all_goals
    rw [he]; dsimp only; rw [show sentAt = some sent from hs]
    cases kind with
    | test => exact nomatch hk
    | order o => rfl
    | query n poll => rfl

end

end Sys2Proof.Machine
end

section
/-! PROOF. O54: KEY frames (R86 to R88, R123, R125, R137). -/

namespace Sys2Proof.Machine

theorem isStation_of {addr : BitVec 4} (h : addr = 14 ∨ addr = 15) : isStation addr = true := by
  rcases h with rfl | rfl <;> rfl

theorem keyValid_iff (zones command : Byte) :
    keyValid zones command ↔
      (∃ z : ZoneId, zones.getLsbD z.val = true) ∧ (command = 1 ∨ command = 2 ∨ command = 3) :=
  and_congr (zoneSetOfByte_ne_zero zones) .rfl

/-! ## What a KEY frame leaves as it was -/

section
variable {p : Part} {l : LineId} {addr : BitVec 4} {zones command : Byte} {first : Bool}

theorem Part.frameSeen_surroundings (p : Part) (l : LineId) : p.SameSurroundings (p.frameSeen l) :=
  ((Part.KeepsGrants.refl p).frameSeen l).surroundings (by unfold Part.frameSeen; split <;> exact ⟨rfl, rfl⟩)

theorem Part.countTest_surroundings (p : Part) (l : LineId) (bytes : Pattern) (discarded : Bool) (back : List (Option Byte))
    (free : Nat) : p.SameSurroundings (p.countTest l bytes discarded back free) := by
  refine ((Part.KeepsGrants.refl p).countTest l bytes discarded back free).surroundings ?_
  obtain ⟨set, acks⟩ := p.endExchange_sameNotices l free
  unfold Part.countTest Part.countFrame
  split <;> exact ⟨set, acks⟩

theorem Part.failExchange_surroundings (h : (p.line l).flight = some false) (f : Failure) (free : Nat) :
    p.SameSurroundings (p.failExchange l f free) :=
  ((Part.KeepsGrants.refl p).failExchange l f free).surroundings (Part.failExchange_failedOn h f free).notices

/-- The exchange in flight goes on through the answer of a KEY frame. -/
theorem Part.answerKey_flight : ((p.answerKey l addr zones command).line l).flight = (p.line l).flight :=
  (p.answerKey_line l addr).flight

theorem Part.hearKey_surroundings (station : isStation addr = true) :
    p.SameSurroundings (p.hearKey l addr zones command first) := by
  by_cases out : (p.line l).state = .disabled ∨ (p.line l).state = .failed
  · rw [Part.hearKey_out station out]; exact .refl p
  obtain ⟨on, inService⟩ := not_or.1 out
  cases he : (p.line l).exchange with
  | none => rw [Part.hearKey_free station on inService he]; exact p.answerKey_surroundings l addr
  | some e =>
    cases hs : e.sentAt with
    | none => rw [Part.hearKey_sending station on inService he hs]; exact .refl p
    | some sent =>
      cases hk : e.kind.isTest with
      | false =>
        have flight : (p.line l).flight = some false := by rw [Line.flight, he, Option.map_some, hk]
        rw [Part.hearKey_transaction station on inService he hs hk]
        split
        · exact (Part.failExchange_surroundings flight _ _).trans (Part.answerKey_surroundings _ l addr)
        · exact (p.answerKey_surroundings l addr).trans
            (Part.failExchange_surroundings (Part.answerKey_flight.trans flight) _ _)
      | true =>
        obtain ⟨bytes, discarded, kind⟩ : ∃ bytes discarded, e.kind = .test bytes discarded := by
          cases k : e.kind with
          | test bytes discarded => exact ⟨bytes, discarded, rfl⟩
          | order o => rw [k] at hk; exact nomatch hk
          | query n poll => rw [k] at hk; exact nomatch hk
        rw [Part.hearKey_test station on inService he hs kind]
        exact (p.countTest_surroundings l bytes discarded [] _).trans (Part.answerKey_surroundings _ l addr)

end

/-! ## A KEY frame that ends a transaction (R88, R123) -/

/-- The transaction has ended, the frame is answered and taken, and the failure is on record. -/
structure Part.KeyTakenFor (l : LineId) (addr : BitVec 4) (zones : Byte) (value : Option KeyOverride) (p q : Part) : Prop where
  exchange : (q.line l).exchange = none
  answer : (q.line l).answer = some ⟨addr, true⟩
  bank : (q.bank (.line l)).record.isSome = true
  zone : ∀ z : ZoneId, q.zone z = if zones.getLsbD z.val then { p.zone z with override := value } else p.zone z

section
variable {p : Part} {l : LineId} {addr : BitVec 4} {zones command : Byte} (flight : (p.line l).flight = some false)
  (valid : keyValid zones command) (f : Failure) (free : Nat)
include flight valid

theorem Part.KeyTakenFor.resultFirst :
    Part.KeyTakenFor l addr zones (keyOverride command l addr) p
      ((p.failExchange l f free).answerKey l addr zones command) := by
  have failed := Part.failExchange_failedOn flight f free
  have taken := (p.failExchange l f free).answerKey_valid l addr valid
  have line := (p.failExchange l f free).answerKey_line l addr (zones := zones) (command := command)
  refine ⟨?_, ?_, ?_, fun z => ?_⟩
  · rw [← Line.flight_eq_none, Part.answerKey_flight, Line.flight_eq_none]
    exact failed.exchange
  · rw [line.queue.answer, decide_eq_true valid]
  · rw [taken.bank, Part.answering_bank]
    exact failed.bank
  · have zone : (p.failExchange l f free).zone z = p.zone z := by
      rw [Part.zone, ((Part.KeepsGrants.refl p).failExchange l f free).zones]; rfl
    rw [taken.zone, Part.answering_zone, zone]

theorem Part.KeyTakenFor.resultLast :
    Part.KeyTakenFor l addr zones (keyOverride command l addr) p
      ((p.answerKey l addr zones command).failExchange l f free) := by
  have taken := p.answerKey_valid l addr valid
  have line := p.answerKey_line l addr (zones := zones) (command := command)
  have failed := Part.failExchange_failedOn (line.flight.trans flight) f free
  refine ⟨failed.exchange, ?_, failed.bank, fun z => ?_⟩
  · rw [failed.answer, line.queue.answer, decide_eq_true valid]
  · rw [Part.zone, ((Part.KeepsGrants.refl _).failExchange l f free).zones]
    exact taken.zone z

end

/-! ## The statement -/

section
variable (s : State) (act : Part → Part) (l : LineId)

/-- Quieting complete leaves the answer, a frame being received and the test record of a line. -/
theorem State.event_line_heard :
    ((s.event act).part.line l).answer = ((act s.part).line l).answer ∧
      ((s.event act).part.line l).receiving = ((act s.part).line l).receiving ∧
      ((s.event act).part.line l).test = ((act s.part).line l).test := by
  obtain ⟨-, -, -, -, -, answer, -, receiving, -, test⟩ := Part.completeQuieting_line_fields (act s.part) l
  rw [State.event_part]
  exact ⟨answer, receiving, test⟩

theorem State.event_surroundings (h : s.part.SameSurroundings (act s.part)) :
    (s.event act).part.ga = s.part.ga ∧ (s.event act).part.weather = s.part.weather ∧
      (s.event act).part.globals = s.part.globals ∧ (s.event act).part.cmd = s.part.cmd ∧
      s.part.SameNotices (s.event act).part ∧ s.EventOnly (s.event act) :=
  ⟨(s.event_ga act).trans h.ga, (s.event_weather act).trans h.weather, (s.event_globals act).trans h.globals,
    (s.event_cmd act).trans h.cmd,
    ⟨(s.event_notices act).trans h.notices.1, (s.event_noticeAcks act).trans h.notices.2⟩, s.event_only act⟩

end

/-- A DISABLED line hears no frame. -/
theorem Part.frameSeen_of_disabled {p : Part} {l : LineId} (h : (p.line l).state = .disabled) : p.frameSeen l = p :=
  if_neg (by simp [Line.listens, h])

theorem Part.frameSeen_exchange (p : Part) (l : LineId) : ((p.frameSeen l).line l).exchange = (p.line l).exchange := by
  obtain ⟨-, -, -, exchange, -⟩ := p.frameSeen_line_fields l
  exact exchange

theorem Part.frameSeen_state (p : Part) (l : LineId) : ((p.frameSeen l).line l).state = (p.line l).state :=
  (p.frameSeen_line_fields l).1

/-- The part after the row of a KEY frame, before quieting complete. -/
def Part.keySeen (p : Part) (l : LineId) (addr : BitVec 4) (zones command : Byte) (first : Bool) : Part :=
  (p.frameSeen l).hearKey l addr zones command first

/-- The state after the row of a KEY frame. -/
def State.keyed (s : State) (l : LineId) (addr : BitVec 4) (zones command : Byte) (first : Bool) : State :=
  s.event fun p => p.keySeen l addr zones command first

section
variable {s : State} {l : LineId} {addr : BitVec 4} {zones command : Byte} {first : Bool}
  (station : isStation addr = true)
include station

theorem State.keyed_surroundings :
    let t := s.keyed l addr zones command first
    t.part.ga = s.part.ga ∧ t.part.weather = s.part.weather ∧ t.part.globals = s.part.globals ∧
      t.part.cmd = s.part.cmd ∧ s.part.SameNotices t.part ∧ s.EventOnly t :=
  s.event_surroundings _ ((s.part.frameSeen_surroundings l).trans (Part.hearKey_surroundings station))

/-! A line out of service: only the end of the frame is seen. -/

section
variable (out : (s.part.line l).state = .disabled ∨ (s.part.line l).state = .failed)
include out

theorem Part.keySeen_out : s.part.keySeen l addr zones command first = s.part.frameSeen l :=
  Part.hearKey_out station (by rwa [Part.frameSeen_state])

theorem State.keyed_out_line : (s.keyed l addr zones command first).part.line l = (s.part.frameSeen l).line l := by
  have resting : ((s.part.keySeen l addr zones command first).line l).state ≠ .quieting := by
    rw [Part.keySeen_out station out, Part.frameSeen_state]
    rcases out with h | h <;> rw [h] <;> exact LineState.noConfusion
  exact (s.event_line (fun p => p.keySeen l addr zones command first) l resting).trans
    (congrArg (fun p => Part.line p l) (Part.keySeen_out station out))

theorem State.keyed_out :
    let t := s.keyed l addr zones command first
    t.part.zones = s.part.zones ∧ s.part.SameChans t.part ∧ s.part.SameBanks t.part := by
  refine ⟨?_, fun n => ?_, fun b => ?_⟩
  · rw [State.keyed, State.event_part, Part.completeQuieting_zones, Part.keySeen_out station out]
    exact ((Part.KeepsGrants.refl _).frameSeen l).zones
  · rw [State.keyed, State.event_chan, Part.keySeen_out station out, Part.frameSeen_chan]
  · rw [State.keyed, State.event_bank, Part.keySeen_out station out, Part.frameSeen_bank]

end

/-! A line in service with nothing in flight: the frame is answered. -/

variable (on : (s.part.line l).state ≠ .disabled) (inService : (s.part.line l).state ≠ .failed)
include on inService

section
variable (free : (s.part.line l).exchange = none)
include free

theorem Part.keySeen_free :
    s.part.keySeen l addr zones command first = (s.part.frameSeen l).answerKey l addr zones command :=
  Part.hearKey_free station (by rwa [Part.frameSeen_state]) (by rwa [Part.frameSeen_state])
    (by rwa [Part.frameSeen_exchange])

theorem State.keyed_free_line :
    let y := (s.keyed l addr zones command first).part.line l
    y.freeAt = max (s.part.line l).freeAt (s.part.now + 2) ∧ y.receiving = false ∧
      y.answer = some ⟨addr, decide (keyValid zones command)⟩ := by
  obtain ⟨-, -, -, -, -, -, -, -, -, -, seen, -⟩ := s.part.frameSeen_line_fields l
  obtain ⟨-, -, -, freeAt⟩ := s.event_line_fields (fun p => p.keySeen l addr zones command first) l
  obtain ⟨answer, receiving, -⟩ := s.event_line_heard (fun p => p.keySeen l addr zones command first) l
  have queue := ((s.part.frameSeen l).answerKey_line l addr (zones := zones) (command := command)).queue
  rw [Part.keySeen_free station on inService free] at freeAt answer receiving
  refine ⟨freeAt.trans (queue.freeAt.trans ?_), receiving.trans queue.receiving, answer.trans queue.answer⟩
  show max ((s.part.frameSeen l).line l).freeAt ((s.part.frameSeen l).now + 2) = _
  rw [seen, Part.frameSeen_now]

theorem State.keyed_valid (valid : keyValid zones command) :
    let t := s.keyed l addr zones command first
    (∀ z : ZoneId, t.part.zone z =
      if zones.getLsbD z.val then { s.part.zone z with override := keyOverride command l addr } else s.part.zone z) ∧
    (∀ n, zones.getLsbD (s.part.chan n).cfg.zone.val = true →
      (t.part.chan n).cfg = (s.part.chan n).cfg ∧ t.part.Settled n) ∧
    (∀ n, zones.getLsbD (s.part.chan n).cfg.zone.val = false → t.part.chan n = s.part.chan n) ∧ s.part.SameBanks t.part := by
  have taken := (s.part.frameSeen l).answerKey_valid l addr valid
  rw [← Part.keySeen_free (first := first) station on inService free] at taken
  have chan (n : ChannelId) : ((s.part.frameSeen l).answering l ⟨addr, true⟩).chan n = s.part.chan n := by simp
  refine ⟨fun z => ?_, fun n hn => ⟨?_, ?_⟩, fun n hn => ?_, fun b => ?_⟩
  · rw [State.keyed, State.event_zone, taken.zone, Part.answering_zone, Part.frameSeen_zone]
  · rw [State.keyed, State.event_chan, taken.cfg, chan]
  · exact Part.Settled.event s _ (taken.settled n (by rwa [chan]))
  · rw [State.keyed, State.event_chan, taken.stands n (by rwa [chan]), chan]
  · rw [State.keyed, State.event_bank, taken.bank, Part.answering_bank, Part.frameSeen_bank]

theorem State.keyed_malformed (malformed : ¬ keyValid zones command) :
    let t := s.keyed l addr zones command first
    t.part.zones = s.part.zones ∧ s.part.SameChans t.part ∧
      t.part.bank (.line l) = ((s.part.bank (.line l)).take (malformedKey l)).count ∧ s.part.SameBanksBut t.part (.line l) := by
  have refused := (Part.keySeen_free (first := first) station on inService free).trans
    (Part.answerKey_malformed _ l addr malformed)
  refine ⟨?_, fun n => ?_, ?_, fun b hb => ?_⟩
  · rw [State.keyed, State.event_part, Part.completeQuieting_zones, refused, Part.record_zones, Part.answering_zones]
    exact ((Part.KeepsGrants.refl _).frameSeen l).zones
  · rw [State.keyed, State.event_chan, refused, Part.record_chan, Part.answering_chan, Part.frameSeen_chan]
  · rw [State.keyed, State.event_bank, refused, Part.bank_record_self, Part.answering_bank, Part.frameSeen_bank]
  · rw [State.keyed, State.event_bank, refused, Part.bank_record, if_neg hb, Part.answering_bank, Part.frameSeen_bank]

end

/-- A line in service with a transaction sent: the frame ends it and is taken. -/
theorem State.keyed_transaction {e : Exchange} {sent : Nat} (he : (s.part.line l).exchange = some e) (hs : e.sentAt = some sent)
    (transaction : e.kind.isTest = false) (valid : keyValid zones command) :
    Part.KeyTakenFor l addr zones (keyOverride command l addr) s.part
      (s.keyed l addr zones command first).part := by
  have seen := (s.part.frameSeen_exchange l).trans he
  have flight : ((s.part.frameSeen l).line l).flight = some false := by rw [Line.flight, seen, Option.map_some, transaction]
  have both : s.part.keySeen l addr zones command first = _ :=
    Part.hearKey_transaction station (by rwa [Part.frameSeen_state]) (by rwa [Part.frameSeen_state]) seen hs transaction
  have taken : Part.KeyTakenFor l addr zones (keyOverride command l addr)
      (s.part.frameSeen l) (s.part.keySeen l addr zones command first) := by
    rw [both]
    cases first with
    | true => exact .resultFirst flight valid _ _
    | false => exact .resultLast flight valid _ _
  obtain ⟨-, -, exchange, -⟩ := s.event_line_fields (fun p => p.keySeen l addr zones command first) l
  obtain ⟨answer, -⟩ := s.event_line_heard (fun p => p.keySeen l addr zones command first) l
  refine ⟨exchange.trans taken.exchange, answer.trans taken.answer, ?_, fun z => ?_⟩
  · rw [State.keyed, State.event_bank]; exact taken.bank
  · rw [State.keyed, State.event_zone, taken.zone, Part.frameSeen_zone]

end

/-- Settles O54: the frame is answered and taken zone by zone, or refused; on a line out of service only its end is seen. -/
theorem keyFrameSetsTheOverrides : Obligations.KeyFrameSetsTheOverrides := by
  intro s l addr zones command first isKey x value named valid
  have station := isStation_of isKey
  have valid_iff : keyValid zones command ↔ valid := keyValid_iff zones command
  have surroundings := State.keyed_surroundings (s := s) (l := l) (zones := zones) (command := command) (first := first) station
  refine ⟨s.keyed l addr zones command first, rfl, fun on inService free => ?answered,
    fun e sent on inService he hs noTest ok => ?ends, fun out => ?notTaken, fun off => ?ignored,
    fun since failed free recovery => ?recovery, surroundings⟩
  case answered =>
    obtain ⟨freeAt, receiving, answer⟩ :=
      State.keyed_free_line (zones := zones) (command := command) (first := first) station on inService free
    refine ⟨freeAt, receiving, fun ok => ?_, fun bad => ?_⟩
    · have ok := valid_iff.2 ok
      obtain ⟨zone, settled, stands, banks⟩ := State.keyed_valid (first := first) station on inService free ok
      refine ⟨by rw [answer, decide_eq_true ok], fun z hz => ⟨(zone z).trans (if_pos hz), fun n hn => ?_⟩,
        fun z hz => ⟨(zone z).trans (if_neg hz), fun n hn => ?_⟩, banks⟩
      · subst hn
        obtain ⟨cfg, grant⟩ := settled n hz
        unfold Part.Settled at grant
        rwa [cfg] at grant
      · subst hn
        exact stands n (Bool.eq_false_of_not_eq_true hz)
    · have bad : ¬ keyValid zones command := fun h => bad (valid_iff.1 h)
      obtain ⟨zones_eq, chans, bank, others⟩ := State.keyed_malformed (first := first) station on inService free bad
      exact ⟨by rw [answer, decide_eq_false bad], ⟨zones_eq, surroundings.1⟩, chans, bank, others⟩
  case ends =>
    have transaction : e.kind.isTest = false := by
      cases k : e.kind with
      | test bytes discarded => exact absurd k (noTest bytes discarded)
      | order o => rfl
      | query n poll => rfl
    obtain ⟨exchange, answer, bank, zone⟩ :=
      State.keyed_transaction (first := first) station on inService he hs transaction (valid_iff.2 ok)
    exact ⟨exchange, answer, bank, fun z hz => (zone z).trans (if_pos hz), fun z hz => (zone z).trans (if_neg hz)⟩
  case notTaken =>
    obtain ⟨zones_eq, chans, banks⟩ := State.keyed_out (zones := zones) (command := command) (first := first) station out
    refine ⟨⟨zones_eq, surroundings.1⟩, chans, banks, ?_⟩
    rw [State.keyed_out_line station out, Part.frameSeen_line]
    split <;> rfl
  case ignored => rw [State.keyed_out_line station (.inl off), Part.frameSeen_of_disabled off]
  case recovery =>
    have on : x.state ≠ .disabled := fun h => nomatch failed.symm.trans h
    have silent (e : Exchange) (he : x.exchange = some e) : e.sentAt ≠ none := nomatch free.symm.trans he
    have watch : ((s.keyed l addr zones command first).part.line l).watch = x.watch.restart s.part.now :=
      s.event_watch_of_frame on silent ((Part.SameWatch.refl _).hearKey l addr zones command first)
    rw [watch, recovery]
    rfl

end Sys2Proof.Machine
end

section
/-! SUPPORT. What a line test sends and counts: the pseudo-random sequence and the mismatches of a frame (R142 to R146). -/

namespace Sys2Proof.Machine

/-! ## The sequence (R142) -/

/-- R142: a sequence of bits that begins with the seven of a state, in which each bit is the exclusive OR of the bits 6 and 7
places before it. -/
def Spells (state : BitVec 7) (a : Nat → Bool) : Prop :=
  (∀ j : Fin 7, a j.val = state.getLsbD (6 - j.val)) ∧ ∀ j : Nat, a (j + 7) = (a (j + 1) ^^ a j)

section
variable {s : BitVec 7} {a : Nat → Bool}

/-- A step shifts the state by one bit and takes the new one in. -/
theorem seqStep_getLsbD (s : BitVec 7) (i : Nat) :
    (seqStep s).getLsbD i = if i = 0 then s.getLsbD 6 != s.getLsbD 5 else decide (i < 7) && s.getLsbD (i - 1) := by
  unfold seqStep
  cases i with
  | zero => simp
  | succ i => simp

theorem Spells.bit (h : Spells s a) {i : Nat} (hi : i < 7) : s.getLsbD i = a (6 - i) := by
  have bit := h.1 ⟨6 - i, by omega⟩
  rw [bit]
  congr 1
  simp only
  omega

theorem Spells.next (h : Spells s a) : a 7 = (s.getLsbD 6 != s.getLsbD 5) := by
  rw [h.bit (by omega), h.bit (by omega), h.2 0]
  exact Bool.xor_comm _ _

theorem Spells.step (h : Spells s a) : Spells (seqStep s) fun j => a (j + 1) := by
  refine ⟨fun j => ?_, fun j => h.2 (j + 1)⟩
  obtain ⟨j, hj⟩ := j
  rw [seqStep_getLsbD]
  by_cases last : j = 6
  · subst last
    exact h.next
  · rw [if_neg (by simp only; omega), h.bit (by omega)]
    simp only
    rw [decide_eq_true (by omega), Bool.true_and]
    congr 1
    omega

theorem Spells.advance (h : Spells s a) (k : Nat) : Spells (seqAdvance k s) fun j => a (k + j) := by
  induction k generalizing s a with
  | zero => simpa [seqAdvance] using h
  | succ k ih =>
    have rest := ih h.step
    simp only [Nat.add_right_comm k _ 1] at rest
    exact rest

/-- The seven bits of the state and the next one make the byte. -/
theorem Spells.seqByte (h : Spells s a) (k : Fin 8) : (seqByte s).getLsbD (7 - k.val) = a k.val := by
  obtain ⟨k, hk⟩ := k
  unfold Machine.seqByte
  rw [BitVec.getLsbD_append]
  by_cases last : k = 7
  · subst last
    simp [h.next]
  · simp only
    rw [if_neg (by omega), h.bit (by omega)]
    congr 1
    omega

theorem Spells.seqBytes (h : Spells s a) (i k : Fin 8) : ((seqBytes s)[i.val]).getLsbD (7 - k.val) = a (8 * i.val + k.val) := by
  rw [Machine.seqBytes, Vector.getElem_ofFn]
  exact (h.advance (8 * i.val)).seqByte k

end

theorem patternBytes_getElem (w : Vector Word 4) (i : Fin 4) :
    (patternBytes w)[2 * i.val] = upperByte w[i.val] ∧ (patternBytes w)[2 * i.val + 1] = lowerByte w[i.val] :=
  match i with
  | 0 | 1 | 2 | 3 => ⟨rfl, rfl⟩

/-! ## The mismatches of a frame (R144 to R146) -/

/-- The places of a frame that came back with another byte or did not come back, in byte order. -/
def mismatchedPlaces (bytes : Pattern) (came : List Byte) : List (Fin 8) :=
  (List.finRange 8).filter fun i => decide (came[i.val]? ≠ some bytes[i.val])

/-- Each mismatched place gives the byte sent with the byte that came, or 0xFF. -/
theorem mismatches_ofFn (n : Nat) (f : Fin n → Byte) (came : List Byte) :
    mismatches (List.ofFn f) (came.map some) =
      ((List.finRange n).filter fun i => decide (came[i.val]? ≠ some (f i))).map
        fun i => (f i, came[i.val]?.getD 0xFF) := by
  induction n generalizing came with
  | zero => rfl
  | succ n ih =>
    rw [List.ofFn_succ, List.finRange_succ]
    cases came with
    | nil => simpa [mismatches, List.filter_map, Function.comp_def] using ih (fun i => f i.succ) []
    | cons r rs =>
      have rest := ih (fun i => f i.succ) rs
      by_cases same : r = f 0
      · simpa [mismatches, List.filter_map, Function.comp_def, same] using rest
      · simpa [mismatches, List.filter_map, Function.comp_def, same] using rest

theorem mismatches_eq (bytes : Pattern) (came : List Byte) :
    mismatches bytes.toList (came.map some) =
      (mismatchedPlaces bytes came).map fun i => (bytes[i.val], came[i.val]?.getD 0xFF) := by
  have list : bytes.toList = List.ofFn fun i : Fin 8 => bytes[i.val] :=
    List.ext_getElem (by simp) fun i _ _ => by rw [Vector.getElem_toList, List.getElem_ofFn]
  rw [list, mismatches_ofFn]
  rfl

/-- A rising list ends with the greatest of its members. -/
theorem getLast?_of_rising {α : Type} [LinearOrder α] {l : List α} (rising : l.Pairwise (· < ·)) {i : α} (hi : i ∈ l)
    (greatest : ∀ j ∈ l, ¬ i < j) : l.getLast? = some i := by
  obtain ⟨before, after, rfl⟩ := List.mem_iff_append.1 hi
  have none : after = [] := by
    refine List.eq_nil_iff_forall_not_mem.2 fun j hj => ?_
    have later := (List.pairwise_append.1 rising).2.1
    exact greatest j (by simp [hj]) ((List.pairwise_cons.1 later).1 j hj)
  rw [none, List.getLast?_concat]

theorem mismatchedPlaces_getLast? {bytes : Pattern} {came : List Byte} {i : Fin 8} (hi : came[i.val]? ≠ some bytes[i.val])
    (last : ∀ j : Fin 8, i < j → ¬ came[j.val]? ≠ some bytes[j.val]) : (mismatchedPlaces bytes came).getLast? = some i := by
  have mem (j : Fin 8) : j ∈ mismatchedPlaces bytes came ↔ came[j.val]? ≠ some bytes[j.val] := by
    rw [mismatchedPlaces, List.mem_filter, and_iff_right (List.mem_finRange j), decide_eq_true_iff]
  exact getLast?_of_rising ((List.pairwise_lt_finRange 8).filter _) ((mem i).2 hi) fun j hj hlt => last j hlt ((mem j).1 hj)

/-! ## A counted frame (R143, R146) -/

/-- R143, R146: one more frame, its mismatches counted, the last of them kept, and the sequence 64 bits on. -/
structure LineTest.Counted (x y : LineTest) (bytes : Pattern) (came : List Byte) : Prop where
  frames : y.frames = min (x.frames + 1) 65535
  errors : y.errors = min (x.errors + (mismatchedPlaces bytes came).length) 255
  clean : (∀ i : Fin 8, ¬ came[i.val]? ≠ some bytes[i.val]) → y.pair = x.pair
  last : ∀ i : Fin 8, came[i.val]? ≠ some bytes[i.val] → (∀ j : Fin 8, i < j → ¬ came[j.val]? ≠ some bytes[j.val]) →
    y.pair = some (bytes[i.val], came[i.val]?.getD 0xFF)
  seq : ∀ a : Nat → Bool, Spells x.seq a → ∀ j : Fin 7, y.seq.getLsbD (6 - j.val) = a (64 + j.val)
  kept : y.kind = x.kind ∧ y.target = x.target ∧ y.result = x.result ∧ y.pattern = x.pattern

theorem LineTest.countFrame_counted (x : LineTest) (bytes : Pattern) (came : List Byte) :
    x.Counted (x.countFrame (mismatches bytes.toList (came.map some))) bytes came := by
  rw [mismatches_eq]
  refine ⟨saturate_eq_min _ _, ?_, fun clean => ?_, fun i hi later => ?_, fun a h j => ?_, rfl, rfl, rfl, rfl⟩
  · rw [LineTest.countFrame, List.length_map]
    exact saturate_eq_min _ _
  · have none : mismatchedPlaces bytes came = [] := List.filter_eq_nil_iff.2 fun i _ => by simpa using clean i
    rw [LineTest.countFrame, none]
    rfl
  · rw [LineTest.countFrame, List.getLast?_map, mismatchedPlaces_getLast? hi later]
    rfl
  · exact ((h.advance 64).1 j).symm

end Sys2Proof.Machine
end

section
/-! SUPPORT. The exchange of a test frame: its start, its end and its count, and the frames heard in it (R124, R143 to R145). -/

namespace Sys2Proof.Machine

/-! ## The start (R142, R143) -/

/-- R142, R143: the line once a test frame has started. -/
def Line.startedTest (x : Line) (node : BitVec 4) : Line :=
  { x with exchange := some ⟨.test x.test.nextBytes false, node, none⟩, wire := (Frame.test node x.test.nextBytes).bytes }

section
variable {p : Part} {l : LineId} {node : BitVec 4}

/-- With a target and nothing in the way the frame starts when the line is free. -/
theorem Part.startTestFrame_eq (target : (p.line l).test.target = some node) (state : (p.line l).state = .test)
    (may : (p.line l).mayStart = true) :
    p.startTestFrame l = (p.advanceTo (p.line l).freeAt).modLine l fun x => x.startedTest node := by
  unfold Part.startTestFrame
  dsimp only
  rw [target]
  exact if_pos ⟨state, may⟩

theorem Part.startTestFrame_line (target : (p.line l).test.target = some node) (state : (p.line l).state = .test)
    (may : (p.line l).mayStart = true) : (p.startTestFrame l).line l = (p.line l).startedTest node := by
  rw [Part.startTestFrame_eq target state may, Part.line_modLine_self]
  rfl

end

theorem LineTest.nextBytes_pattern {x : LineTest} (h : x.kind = some .pattern) : x.nextBytes = patternBytes x.pattern := by
  rw [LineTest.nextBytes, h]
theorem LineTest.nextBytes_sequence {x : LineTest} (h : x.kind = some .sequence) : x.nextBytes = seqBytes x.seq := by
  rw [LineTest.nextBytes, h]

/-! ## The end and the count (R143) -/

/-- The exchange of a test frame has ended with the line free at an instant, and the frame is counted unless it belongs to an
earlier test. -/
structure Line.TestEnded (x y : Line) (bytes : Pattern) (discarded : Bool) (came : List Byte) (free : Nat) : Prop where
  exchange : y.exchange = none
  freeAt : y.freeAt = free
  earlier : discarded = true → y.test = x.test
  counted : discarded = false → x.test.Counted y.test bytes came

/-- Channels, banks and clock stand, and so do the exchange and the test record of a line. -/
structure Part.SameTest (l : LineId) (p q : Part) : Prop where
  chan : p.SameChans q
  bank : p.SameBanks q
  exchange : (q.line l).exchange = (p.line l).exchange
  test : (q.line l).test = (p.line l).test

section
variable {p q : Part} {l : LineId} {e : Exchange} {bytes : Pattern} {discarded : Bool}

theorem Part.SameTest.modLine (p : Part) (l : LineId) (f : Line → Line) (exchange : (f (p.line l)).exchange = (p.line l).exchange)
    (test : (f (p.line l)).test = (p.line l).test) : Part.SameTest l p (p.modLine l f) :=
  ⟨fun _ => rfl, fun _ => rfl, by rw [Part.line_modLine_self, exchange], by rw [Part.line_modLine_self, test]⟩

theorem Part.SameTest.frameSeen (p : Part) (l : LineId) : Part.SameTest l p (p.frameSeen l) := by
  obtain ⟨-, -, -, exchange, -, -, -, -, -, -, -, -, -, test⟩ := p.frameSeen_line_fields l
  exact ⟨p.frameSeen_chan l, p.frameSeen_bank l, exchange, test⟩

theorem Part.SameTest.advanceTo (p : Part) (l : LineId) (t : Nat) : Part.SameTest l p (p.advanceTo t) :=
  ⟨fun _ => rfl, fun _ => rfl, rfl, rfl⟩

/-- The end of a test frame's exchange, which no channel takes part in. -/
theorem Part.endExchange_of_test (he : (p.line l).exchange = some e) (hk : e.kind = .test bytes discarded) (free : Nat) :
    p.endExchange l free = p.modLine l fun x => x.endExchange free := by
  simp only [Part.endExchange, he, hk]

variable (he : (p.line l).exchange = some e) (hk : e.kind = .test bytes discarded) (same : Part.SameTest l p q)
  (came : List Byte) (free : Nat)
include he hk same

theorem Part.countTest_ended :
    (p.line l).TestEnded ((q.countTest l bytes discarded (came.map some) free).line l) bytes discarded came free := by
  have ended := Part.endExchange_of_test (same.exchange.trans he) hk free
  rw [Part.countTest, ended]
  cases discarded with
  | true =>
    rw [Part.countFrame, if_pos rfl, Part.line_modLine_self]
    exact ⟨rfl, rfl, fun _ => same.test, nofun⟩
  | false =>
    rw [Part.countFrame, if_neg Bool.false_ne_true, Part.line_modTest, if_pos rfl, Part.line_modLine_self]
    refine ⟨rfl, rfl, nofun, fun _ => ?_⟩
    rw [← same.test]
    exact LineTest.countFrame_counted _ bytes came

theorem Part.countTest_frame :
    p.SameChans (q.countTest l bytes discarded (came.map some) free) ∧
      p.SameBanks (q.countTest l bytes discarded (came.map some) free) := by
  have ended := Part.endExchange_of_test (same.exchange.trans he) hk free
  rw [Part.countTest, ended, Part.countFrame]
  split
  · exact ⟨same.chan, same.bank⟩
  · exact ⟨same.chan, same.bank⟩

end

/-! ## Frames heard in the exchange (R124, R145) -/

/-- Node motion 3 names no motion (R198). -/
theorem nodeMotionOfByte_eq_none (motion : Byte) : nodeMotionOfByte motion = none ↔ motion.extractLsb' 0 2 = 3 := by
  unfold nodeMotionOfByte
  generalize motion.extractLsb' 0 2 = code
  revert code
  decide

/-- A TEST frame of another address than the awaited one is a frame like any other. -/
theorem Part.hearEcho_of_other {p : Part} {l : LineId} {e : Exchange} (he : (p.line l).exchange = some e) {addr : BitVec 4}
    (other : addr ≠ e.node) (received : List Byte) (good : Bool) :
    p.hearEcho l addr received good = p.hearOther l (if received.length = 8 ∧ good = true then .valid else .damaged) := by
  have unawaited : (p.line l).awaiting addr = none := by simp [Line.awaiting, he, Ne.symm other]
  rw [Part.hearEcho, unawaited]

section
variable {p : Part} {l : LineId} {e : Exchange} {bytes : Pattern} {discarded : Bool}
  (he : (p.line l).exchange = some e) (hk : e.kind = .test bytes discarded)
include he hk

/-- No reply is awaited but the echo. -/
theorem Part.awaiting_of_test {addr : BitVec 4} {k : ExchangeKind} (h : (p.line l).awaiting addr = some k) :
    k = .test bytes discarded := by
  obtain ⟨e', he', hk', -⟩ := Line.exchange_of_awaiting h
  obtain rfl := Option.some.inj (he.symm.trans he')
  exact hk'.symm.trans hk

theorem Part.hearAccept_of_test (addr : BitVec 4) : p.hearAccept l addr = p.hearOther l .valid := by
  unfold Part.hearAccept
  split
  next o h => exact nomatch Part.awaiting_of_test he hk h
  next => rfl

theorem Part.hearBusy_of_test (addr : BitVec 4) : p.hearBusy l addr = p.hearOther l .valid := by
  unfold Part.hearBusy
  split
  next o h => exact nomatch Part.awaiting_of_test he hk h
  next => rfl

theorem Part.hearRefuse_of_test (addr : BitVec 4) (reason : Byte) : p.hearRefuse l addr reason = p.hearOther l .valid := by
  unfold Part.hearRefuse
  split
  next o h => exact nomatch Part.awaiting_of_test he hk h
  next => rfl

/-- A STATUS whose node motion is 3 is damaged (R198). -/
theorem Part.hearStatus_of_test (addr : BitVec 4) (position : Word) (motion faults : Byte) :
    p.hearStatus l addr position motion faults =
      p.hearOther l (if motion.extractLsb' 0 2 = 3 then .damaged else .valid) := by
  unfold Part.hearStatus
  split
  next h => rw [if_pos ((nodeMotionOfByte_eq_none motion).1 h)]
  next m h =>
    have motion_ne : ¬ motion.extractLsb' 0 2 = 3 := fun k => nomatch h.symm.trans ((nodeMotionOfByte_eq_none motion).2 k)
    rw [if_neg motion_ne]
    split
    next n poll h => exact nomatch Part.awaiting_of_test he hk h
    next o h => exact nomatch Part.awaiting_of_test he hk h
    all_goals rfl

variable {sent : Nat} (hs : e.sentAt = some sent)
include hs

/-- The echo of the node addressed. -/
theorem Part.hearEcho_of_node (received : List Byte) (good : Bool) :
    p.hearEcho l e.node received good = p.countTest l bytes discarded (received.map some) (p.now + 2) := by
  have awaited : (p.line l).awaiting e.node = some (.test bytes discarded) := by
    simp [Line.awaiting, he, hs, hk]
  rw [Part.hearEcho, awaited]
  rfl

/-- Another frame is a missing echo and is recorded. -/
theorem Part.hearOther_of_test (on : (p.line l).state ≠ .disabled) (h : Heard) :
    p.hearOther l h = (p.countTest l bytes discarded [] (p.now + 2)).recordHeard l h := by
  simp only [Part.hearOther, if_neg on, he, hs, hk]
  rfl

end

end Sys2Proof.Machine
end

section
/-! PROOF. O58: test frames and their counts (R124, R142 to R146). -/

namespace Sys2Proof.Machine

/-! ## The end of the event -/

section
variable {s : State} {act : Part → Part} {q : Part} {l : LineId} {e : Exchange} {bytes : Pattern} {discarded : Bool}
  {came : List Byte} {free : Nat}

/-- Quieting complete leaves what a counted test frame has left of its line. -/
theorem Line.TestEnded.event {x : Line} (h : x.TestEnded ((act s.part).line l) bytes discarded came free) :
    x.TestEnded ((s.event act).part.line l) bytes discarded came free := by
  obtain ⟨-, -, exchange, freeAt⟩ := s.event_line_fields act l
  obtain ⟨-, -, test⟩ := s.event_line_heard act l
  exact ⟨exchange.trans h.exchange, freeAt.trans h.freeAt, fun d => test.trans (h.earlier d),
    fun d => by rw [test]; exact h.counted d⟩

variable (he : (s.part.line l).exchange = some e) (hk : e.kind = .test bytes discarded) (same : Part.SameTest l s.part q)
include he hk same

/-- An event that ends the exchange and counts its frame does nothing else. -/
theorem State.event_counts (eq : act s.part = q.countTest l bytes discarded (came.map some) free) :
    (s.part.line l).TestEnded ((s.event act).part.line l) bytes discarded came free ∧
      s.part.SameChans (s.event act).part ∧ s.part.SameBanks (s.event act).part := by
  obtain ⟨chans, banks⟩ := Part.countTest_frame he hk same came free
  refine ⟨.event ?_, fun n => ?_, fun b => ?_⟩
  · rw [eq]; exact Part.countTest_ended he hk same came free
  · rw [State.event_chan, eq, chans]
  · rw [State.event_bank, eq, banks]

/-- A frame that is no echo is recorded besides. -/
theorem State.event_countsAndRecords {h : Heard}
    (eq : act s.part = (q.countTest l bytes discarded [] free).recordHeard l h) :
    (s.part.line l).TestEnded ((s.event act).part.line l) bytes discarded [] free ∧
      s.part.SameChans (s.event act).part ∧ s.part.SameBanksBut (s.event act).part (.line l) ∧
      (s.event act).part.bank (.line l) =
        ((s.part.bank (.line l)).take ⟨.notice, failureKind (heardFailure h), some (.line l), none⟩).count := by
  obtain ⟨chans, banks⟩ := Part.countTest_frame he hk same [] free
  have recorded (b : BankId) : ((q.countTest l bytes discarded [] free).recordHeard l h).bank b =
      if b = .line l then
        ((s.part.bank (.line l)).take ⟨.notice, failureKind (heardFailure h), some (.line l), none⟩).count
      else s.part.bank b := by
    rw [Part.recordHeard, Part.bank_record]
    exact congrArg₂ (fun x y => if b = .line l then (Bank.take x _).count else y) (banks (.line l)) (banks b)
  refine ⟨.event ?_, fun n => ?_, fun b hb => ?_, ?_⟩
  · rw [eq]; exact Part.countTest_ended he hk same [] free
  · rw [State.event_chan, eq]; exact chans n
  · rw [State.event_bank, eq, recorded, if_neg hb]
  · rw [State.event_bank, eq, recorded, if_pos rfl]

end

/-- What the receiver finds is taken, on a line that listens. -/
theorem Part.hearReception_eq {p : Part} {l : LineId} {e : Exchange} {sent : Nat} (he : (p.line l).exchange = some e)
    (hs : e.sentAt = some sent) (on : (p.line l).state ≠ .disabled) (h : Reception) :
    p.hearReception l h =
      (p.modLine l fun x => x.receive h p.now).takeFound l ((p.line l).receiver.hear h).found := by
  have listens : (p.line l).listens = true := Line.listens_of on fun e' he' => by
    obtain rfl := Option.some.inj (he.symm.trans he')
    rw [hs]; exact Option.some_ne_none sent
  exact if_pos listens

/-! ## A KEY frame in the exchange (R86, R145) -/

theorem Part.countTest_now {p : Part} {l : LineId} {e : Exchange} {bytes : Pattern} {discarded : Bool}
    (he : (p.line l).exchange = some e) (hk : e.kind = .test bytes discarded) (back : List (Option Byte)) (free : Nat) :
    (p.countTest l bytes discarded back free).now = p.now := by
  rw [Part.countTest, Part.endExchange_of_test he hk, Part.countFrame]
  split <;> rfl

/-- The answer changes nothing of a counted frame, and the line is free 2 ms after either. -/
theorem Line.TestEnded.answerKey {x : Line} {p : Part} {l : LineId} {bytes : Pattern} {discarded : Bool} {came : List Byte}
    (h : x.TestEnded (p.line l) bytes discarded came (p.now + 2)) (addr : BitVec 4) (zones command : Byte) :
    x.TestEnded ((p.answerKey l addr zones command).line l) bytes discarded came (p.now + 2) := by
  obtain ⟨queue, -⟩ := p.answerKey_line l addr (zones := zones) (command := command)
  refine ⟨?_, ?_, fun d => queue.test.trans (h.earlier d), fun d => queue.test ▸ h.counted d⟩
  · rw [← Line.flight_eq_none, Part.answerKey_flight, Line.flight_eq_none]
    exact h.exchange
  · rw [queue.freeAt]
    show max (p.line l).freeAt (p.now + 2) = _
    rw [h.freeAt, Nat.max_self]

section
variable {s : State} {l : LineId} {e : Exchange} {bytes : Pattern} {discarded : Bool} {sent : Nat}
  (he : (s.part.line l).exchange = some e) (hk : e.kind = .test bytes discarded) (hs : e.sentAt = some sent)
  (on : (s.part.line l).state ≠ .disabled)
include he hk hs on

theorem State.keyed_test {addr : BitVec 4} {zones command : Byte} {first : Bool} (station : isStation addr = true)
    (inService : (s.part.line l).state ≠ .failed) :
    let y := (s.keyed l addr zones command first).part.line l
    (s.part.line l).TestEnded y bytes discarded [] (s.part.now + 2) ∧
      y.answer = some ⟨addr, decide (keyValid zones command)⟩ := by
  have seen := (s.part.frameSeen_exchange l).trans he
  have eq : s.part.keySeen l addr zones command first = _ :=
    Part.hearKey_test station (by rwa [Part.frameSeen_state]) (by rwa [Part.frameSeen_state]) seen hs hk
  have now := Part.countTest_now seen hk [] ((s.part.frameSeen l).now + gapTime)
  have ended := Part.countTest_ended he hk (.frameSeen s.part l) [] ((s.part.frameSeen l).now + gapTime)
  obtain ⟨answer, -⟩ := s.event_line_heard (fun p => p.keySeen l addr zones command first) l
  have queue := (((s.part.frameSeen l).countTest l bytes discarded []
    ((s.part.frameSeen l).now + gapTime)).answerKey_line l addr (zones := zones) (command := command)).queue
  rw [← eq] at queue
  refine ⟨.event ?_, answer.trans queue.answer⟩
  have free : s.part.now + 2 =
      ((s.part.frameSeen l).countTest l bytes discarded [] ((s.part.frameSeen l).now + gapTime)).now + 2 := by
    rw [now, Part.frameSeen_now]
  rw [eq, free]
  refine .answerKey ?_ addr zones command
  rw [now]
  exact ended

/-! ## The frames recorded (R124, R145) -/

/-- A row whose frame is taken as another than an echo. -/
theorem State.event_otherFrame {act : Part → Part} {q : Part} {h : Heard} (same : Part.SameTest l s.part q)
    (state : (q.line l).state = (s.part.line l).state) (now : q.now = s.part.now) (eq : act s.part = q.hearOther l h) :
    (s.part.line l).TestEnded ((s.event act).part.line l) bytes discarded [] (s.part.now + 2) ∧
      s.part.SameChans (s.event act).part ∧ s.part.SameBanksBut (s.event act).part (.line l) ∧
      (s.event act).part.bank (.line l) =
        ((s.part.bank (.line l)).take ⟨.notice, failureKind (heardFailure h), some (.line l), none⟩).count := by
  refine State.event_countsAndRecords he hk same (eq.trans ?_)
  rw [← now]
  exact Part.hearOther_of_test (same.exchange.trans he) hk hs (by rwa [state]) h

end

/-! ## The statement -/

/-- The rows whose frame is no echo of the node addressed, with the kind of the error recorded. -/
inductive OtherFrame (x : Line) (l : LineId) (node : BitVec 4) : Instr → ErrorKind → Prop where
  | damaged {heard : Reception} (found : (x.receiver.hear heard).found = .damaged) :
    OtherFrame x l node (.damagedFrame l heard) .checkError
  | damagedEcho {heard : Reception} {addr : BitVec 4} {back : List Byte}
    (found : (x.receiver.hear heard).found = .damagedEcho addr back) (other : addr ≠ node) :
    OtherFrame x l node (.damagedFrame l heard) .checkError
  | accept (addr : BitVec 4) : OtherFrame x l node (.accept l addr) .unexpectedFrame
  | busy (addr : BitVec 4) : OtherFrame x l node (.busy l addr) .unexpectedFrame
  | refuse (addr : BitVec 4) (reason : Byte) : OtherFrame x l node (.refuse l addr reason) .unexpectedFrame
  | status (addr : BitVec 4) (position : Word) (motion faults : Byte) :
    OtherFrame x l node (.status l addr position motion faults)
      (if motion.extractLsb' 0 2 = 3 then .checkError else .unexpectedFrame)
  | echo {addr : BitVec 4} (other : addr ≠ node) (came : List Byte) (good : Bool) :
    OtherFrame x l node (.testEcho l addr came good)
      (if came.length = 8 ∧ good = true then .unexpectedFrame else .checkError)

/-- Each of them is a missing echo, counted as such, and recorded for what it is. -/
theorem exec_otherFrame {s : State} {l : LineId} {e : Exchange} {bytes : Pattern} {discarded : Bool} {sent : Nat}
    (he : (s.part.line l).exchange = some e) (hk : e.kind = .test bytes discarded) (hs : e.sentAt = some sent)
    (on : (s.part.line l).state ≠ .disabled) {c : Instr} {kind : ErrorKind}
    (other : OtherFrame (s.part.line l) l e.node c kind) :
    ∃ t, exec c s = .next t ∧ (s.part.line l).TestEnded (t.part.line l) bytes discarded [] (s.part.now + 2) ∧
      s.part.SameChans t.part ∧ s.part.SameBanksBut t.part (.line l) ∧
      t.part.bank (.line l) = ((s.part.bank (.line l)).take ⟨.notice, kind, some (.line l), none⟩).count := by
  have seen := (s.part.frameSeen_exchange l).trans he
  have frame (act : Part → Part) (h : Heard) (eq : act s.part = (s.part.frameSeen l).hearOther l h) :=
    State.event_otherFrame he hk hs on (.frameSeen s.part l) (s.part.frameSeen_state l) (s.part.frameSeen_now l) eq
  have received {heard : Reception} (eq : s.part.hearReception l heard =
      (s.part.modLine l fun x => x.receive heard s.part.now).hearOther l .damaged) :=
    State.event_otherFrame (act := fun p => p.hearReception l heard) he hk hs on
      (.modLine s.part l (fun x => x.receive heard s.part.now) rfl rfl) (by rw [Part.line_modLine_self]; rfl) rfl eq
  cases other with
  | damaged found =>
    refine ⟨_, rfl, received ?_⟩
    rw [Part.hearReception_eq he hs on, found]
    rfl
  | @damagedEcho heard addr back found other =>
    have flight : ((s.part.modLine l fun x => x.receive heard s.part.now).line l).exchange = some e := by
      rw [Part.line_modLine_self]; exact he
    refine ⟨_, rfl, received ?_⟩
    rw [Part.hearReception_eq he hs on, found]
    refine (Part.hearEcho_of_other flight other back false).trans ?_
    rw [if_neg fun h => Bool.false_ne_true h.2]
  | accept addr => exact ⟨_, rfl, frame (fun p => (p.frameSeen l).hearAccept l addr) .valid
      (Part.hearAccept_of_test seen hk addr)⟩
  | busy addr => exact ⟨_, rfl, frame (fun p => (p.frameSeen l).hearBusy l addr) .valid
      (Part.hearBusy_of_test seen hk addr)⟩
  | refuse addr reason => exact ⟨_, rfl, frame (fun p => (p.frameSeen l).hearRefuse l addr reason) .valid
      (Part.hearRefuse_of_test seen hk addr reason)⟩
  | status addr position motion faults =>
    have taken := frame (fun p => (p.frameSeen l).hearStatus l addr position motion faults) _
      (Part.hearStatus_of_test seen hk addr position motion faults)
    refine ⟨_, rfl, ?_⟩
    split_ifs at taken ⊢ <;> exact taken
  | @echo addr other came good =>
    have taken := frame (fun p => (p.frameSeen l).hearEcho l addr came good) _
      (Part.hearEcho_of_other seen other came good)
    refine ⟨_, rfl, ?_⟩
    split_ifs at taken ⊢ <;> exact taken

/-- Settles O58: the frame started carries the next bytes; whatever ends its exchange counts it once, by what came back. -/
theorem testFramesAreCountedWithTheirMismatches : Obligations.TestFramesAreCountedWithTheirMismatches := by
  intro s l x sequenceFrom
  refine ⟨fun node state target free answer window receiving => ?starts, fun bytes discarded node sentAt he => ?_⟩
  case starts =>
    have may : x.mayStart = true := by simp [Line.mayStart, free, answer, window, receiving]
    have eq := Part.startTestFrame_eq target state may
    have line := Part.startTestFrame_line target state may
    refine ⟨_, rfl, ?_, ⟨x.test.nextBytes, ?_, fun pattern i => ?_, fun sequence a h i k => ?_⟩, fun n => ?_, fun b => ?_⟩
    · rw [State.event_now, eq]; rfl
    · rw [State.event_line _ _ _ (by rw [line]; exact fun h => nomatch state.symm.trans h), line]; rfl
    · simp only [LineTest.nextBytes_pattern pattern]
      exact patternBytes_getElem x.test.pattern i
    · simp only [LineTest.nextBytes_sequence sequence]
      exact Spells.seqBytes h i k
    · rw [State.event_chan, eq]; rfl
    · rw [State.event_bank, eq]; rfl
  intro counted only noted
  have counted_of {t : State} {came : List Byte} {free : Nat} (h : x.TestEnded (t.part.line l) bytes discarded came free) :
      counted t came free :=
    ⟨h.exchange, h.freeAt, h.earlier, fun d =>
      have c := h.counted d
      ⟨c.frames, c.errors, c.clean, c.last, c.seq, c.kept⟩⟩
  refine ⟨fun readBack isLocal unsent => ?localEcho, fun received good sent hs => ?echo,
    fun heard received sent hs on found => ?damagedEcho, fun sent hs => ?missing,
    fun c kind sent a p m f r came good heard hs on other => ?others,
    fun sent a zones command first hs on inService isKey => ?key⟩
  case localEcho =>
    subst isLocal unsent
    have eq : s.part.checkLocalEcho l readBack = (s.part.modLine l fun x => x.carried s.part.now).countTest l bytes discarded
        (readBack.toList.map some) (s.part.now + 2) := by
      unfold Part.checkLocalEcho
      rw [show (s.part.line l).exchange = _ from he]
      rfl
    obtain ⟨ended, frame⟩ := State.event_counts (act := fun p => p.checkLocalEcho l readBack) he rfl
      (.modLine s.part l (fun x => x.carried s.part.now) rfl rfl) eq
    exact ⟨_, rfl, counted_of ended, frame⟩
  case echo =>
    have eq := Part.hearEcho_of_node ((s.part.frameSeen_exchange l).trans he) rfl hs received good
    rw [Part.frameSeen_now] at eq
    obtain ⟨ended, frame⟩ := State.event_counts (act := fun p => (p.frameSeen l).hearEcho l node received good) he rfl
      (.frameSeen s.part l) eq
    exact ⟨_, rfl, counted_of ended, frame⟩
  case damagedEcho =>
    have flight : ((s.part.modLine l fun x => x.receive heard s.part.now).line l).exchange =
        some ⟨.test bytes discarded, node, sentAt⟩ := by
      rw [Part.line_modLine_self]; exact he
    have eq : s.part.hearReception l heard = (s.part.modLine l fun x => x.receive heard s.part.now).countTest l bytes discarded
        (received.map some) (s.part.now + 2) := by
      rw [Part.hearReception_eq he hs on, found]
      exact Part.hearEcho_of_node flight rfl hs received false
    obtain ⟨ended, frame⟩ := State.event_counts (act := fun p => p.hearReception l heard) he rfl
      (.modLine s.part l (fun x => x.receive heard s.part.now) rfl rfl) eq
    exact ⟨_, rfl, counted_of ended, frame⟩
  case missing =>
    have eq : s.part.missEcho l = (s.part.advanceTo (sent + 10)).countTest l bytes discarded [] (max s.part.now (sent + 10)) := by
      unfold Part.missEcho
      rw [show (s.part.line l).exchange = _ from he, hs]
      rfl
    obtain ⟨ended, frame⟩ := State.event_counts (act := fun p => p.missEcho l) (came := []) he rfl
      (.advanceTo s.part l (sent + 10)) eq
    exact ⟨_, rfl, counted_of ended, frame⟩
  case others =>
    have row : OtherFrame x l node c kind := by
      rcases other with ⟨rfl, rfl, found | ⟨b, back, found, other⟩⟩ | ⟨rfl | rfl | rfl, rfl⟩ | ⟨rfl, rfl⟩ | ⟨rfl, other, rfl⟩
      exacts [.damaged found, .damagedEcho found other, .accept a, .busy a, .refuse a r, .status a p m f,
        .echo other came good]
    obtain ⟨t, next, ended, chans, banks, bank⟩ := exec_otherFrame he rfl hs on row
    exact ⟨t, next, counted_of ended, chans, banks, bank⟩
  case key =>
    obtain ⟨ended, answer⟩ := State.keyed_test (zones := zones) (command := command) (first := first) he rfl hs on
      (isStation_of isKey) inService
    exact ⟨_, rfl, counted_of ended, answer⟩

end Sys2Proof.Machine
end

section
/-! SUPPORT. What an event leaves of a line in use and of the lines it does not reach (R134). -/

namespace Sys2Proof.Machine

section
variable (s : State) (act : Part → Part) {l : LineId}

/-- A line with an exchange in flight is not at rest: quieting complete leaves it as the act did. -/
theorem State.event_line_busy {e : Exchange} (h : ((act s.part).line l).exchange = some e) :
    (s.event act).part.line l = (act s.part).line l := by
  rw [State.event_part]
  exact Part.completeQuieting_line_busy _ l (Part.atRest_of_exchange h)

/-- The lines that an act on one line does not reach. -/
theorem State.event_otherLines (h : ∀ k, k ≠ l → (act s.part).line k = s.part.line k) (k : LineId) (hk : k ≠ l)
    (hq : (s.part.line k).state ≠ .quieting) : (s.event act).part.line k = s.part.line k := by
  rw [State.event_line _ _ _ (by rwa [h k hk]), h k hk]

end

theorem Part.modLine_otherLines (p : Part) {l k : LineId} (f : Line → Line) (hk : k ≠ l) : (p.modLine l f).line k = p.line k := by
  rw [Part.line_modLine, if_neg hk]

end Sys2Proof.Machine
end

section
/-! PROOF. O50: the send of an exchange's frame (R102, R122). -/

namespace Sys2Proof.Machine

/-- The line once the frame of its exchange has been sent. -/
def Line.sentFrame (x : Line) (e : Exchange) (now : Nat) : Line := { x.carried now with exchange := some (e.sent now) }

/-- A frame carried ends a wait of the receiver and does not end a discard. -/
theorem Line.carried_receiver (x : Line) (now : Nat) :
    (x.carried now).receiver = if x.receiver = .discarding then .discarding else .looking := by
  unfold Line.carried
  cases x.receiver <;> rfl

/-- Of the line only the exchange, the watch and the receiver differ. -/
theorem Line.sentFrame_eq (x : Line) (e : Exchange) (now : Nat) :
    x.sentFrame e now = { x with
      exchange := some (e.sent now), watch := x.watch.restart now,
      receiver := if x.receiver = .discarding then .discarding else .looking } := by
  rw [← x.carried_receiver now]
  rfl

section
variable {p : Part} {l : LineId} {e : Exchange} (he : (p.line l).exchange = some e) (hs : e.sentAt = none)
include he

theorem Part.sendFrame_localEcho (h : e.localEcho = true) : p.sendFrame l = p := by
  simp [Part.sendFrame, he, h]

include hs

/-- The first send of an ORDER. -/
theorem Part.sendFrame_first {o : Order} (hk : e.kind = .order o) (move : o.isHalt = false) (unsent : o.sent = false) :
    p.sendFrame l = (p.modLine l fun x => x.sentFrame e p.now).firstSend o.channel := by
  simp only [Part.sendFrame, he, hs, hk, Exchange.localEcho, move, unsent]
  rfl

/-- Any other send that the reply window follows. -/
theorem Part.sendFrame_later (h : e.localEcho = false) (later : ∀ o, e.kind = .order o → o.isHalt = true ∨ o.sent = true) :
    p.sendFrame l = p.modLine l fun x => x.sentFrame e p.now := by
  cases hk : e.kind with
  | order o =>
    have notFirst : ¬ (o.isHalt = false ∧ o.sent = false) := fun first => by simpa [first] using later o hk
    simp only [Part.sendFrame, he, hs, h, hk, if_neg notFirst]
    rfl
  | query n poll => simp only [Part.sendFrame, he, hs, h, hk]; rfl
  | test bytes discarded => simp only [Part.sendFrame, he, hs, h, hk]; rfl

/-- The lines after a send. -/
theorem Part.sendFrame_line (k : LineId) :
    (p.sendFrame l).line k = if k = l ∧ e.localEcho = false then (p.line l).sentFrame e p.now else p.line k := by
  have sent : (p.modLine l fun x => x.sentFrame e p.now).line k = if k = l then (p.line l).sentFrame e p.now else p.line k :=
    p.line_modLine l k _
  cases h : e.localEcho with
  | true => rw [Part.sendFrame_localEcho he h, if_neg fun k => Bool.noConfusion k.2]
  | false =>
    simp only [and_true]
    rw [← sent]
    by_cases first : ∃ o, e.kind = .order o ∧ o.isHalt = false ∧ o.sent = false
    · obtain ⟨o, hk, move, unsent⟩ := first
      rw [Part.sendFrame_first he hs hk move unsent]
      rfl
    · rw [Part.sendFrame_later he hs h fun o hk => by by_contra no; exact first ⟨o, hk, by simpa using no⟩]

/-- The exchange stays in flight. -/
theorem Part.sendFrame_exchange : ∃ f, ((p.sendFrame l).line l).exchange = some f := by
  rw [Part.sendFrame_line he hs]
  split
  · exact ⟨_, rfl⟩
  · exact ⟨e, he⟩

end

/-- A send writes lines and at most one channel. -/
theorem Part.sendFrame_rest (p : Part) (l : LineId) :
    (p.sendFrame l).now = p.now ∧ p.SameBanks (p.sendFrame l) ∧ p.SameNotices (p.sendFrame l) := by
  unfold Part.sendFrame
  split
  · split
    · dsimp only
      split
      · split <;> exact ⟨rfl, fun _ => rfl, rfl, rfl⟩
      all_goals exact ⟨rfl, fun _ => rfl, rfl, rfl⟩
    · exact ⟨rfl, fun _ => rfl, rfl, rfl⟩
  · exact ⟨rfl, fun _ => rfl, rfl, rfl⟩

/-- Settles O50, by what is in flight. -/
theorem sendStartsTheTravelTimerOnce : Obligations.SendStartsTheTravelTimerOnce := by
  intro s l e he hs heard watch
  obtain ⟨now, banks, notices⟩ := s.part.sendFrame_rest l
  obtain ⟨f, inFlight⟩ := Part.sendFrame_exchange he hs
  have line : (s.event fun p => p.sendFrame l).part.line l = _ :=
    (s.event_line_busy _ inFlight).trans (Part.sendFrame_line he hs l)
  refine ⟨_, rfl, fun o hk => ?order, fun n poll hk => ?query, fun bytes d hk => ?test, fun k hk hq => ?lines,
    (s.event_now _).trans now, fun b => (s.event_bank _ b).trans (banks b), (s.event_notices _).trans notices.1,
    (s.event_noticeAcks _).trans notices.2⟩
  case order =>
    have counted : e.localEcho = false := by rw [Exchange.localEcho, hk]
    rw [if_pos ⟨rfl, counted⟩, Line.sentFrame_eq] at line
    have later (h : o.isHalt = true ∨ o.sent = true) : s.part.sendFrame l = _ :=
      Part.sendFrame_later he hs counted fun o' hk' => by
        obtain rfl := ExchangeKind.order.inj (hk.symm.trans hk')
        exact h
    refine ⟨line.trans ?_, fun move unsent => ?_, fun h => ?_, fun n hn => ?_⟩
    · rw [Exchange.sent, hk]
    · rw [State.event_chan, Part.sendFrame_first he hs hk move unsent, Part.firstSend, Part.chan_modChan_self]
      rfl
    · rw [State.event_chan, later h]
      rfl
    · rw [State.event_chan]
      by_cases h : o.isHalt = true ∨ o.sent = true
      · rw [later h]; rfl
      · rw [not_or, Bool.not_eq_true, Bool.not_eq_true] at h
        rw [Part.sendFrame_first he hs hk h.1 h.2, Part.firstSend, Part.chan_modChan, if_neg hn]
        rfl
  case query =>
    have counted : e.localEcho = false := by rw [Exchange.localEcho, hk]
    rw [if_pos ⟨rfl, counted⟩, Line.sentFrame_eq] at line
    refine ⟨line.trans ?_, fun m => ?_⟩
    · rw [Exchange.sent, hk]
    · rw [State.event_chan, Part.sendFrame_later he hs counted fun o hk' => nomatch hk.symm.trans hk']
      rfl
  case test =>
    have echo : e.localEcho = decide (e.node = 0) := by rw [Exchange.localEcho, hk]
    by_cases h : e.node = 0
    · have counted : e.localEcho = true := by rw [echo, decide_eq_true h]
      rw [if_neg fun k => Bool.noConfusion (counted.symm.trans k.2)] at line
      refine ⟨by rw [line, if_pos h], fun m => ?_⟩
      rw [State.event_chan, Part.sendFrame_localEcho he counted]
    · have counted : e.localEcho = false := by rw [echo, decide_eq_false h]
      rw [if_pos ⟨rfl, counted⟩, Line.sentFrame_eq] at line
      refine ⟨?_, fun m => ?_⟩
      · rw [line, if_neg h, Exchange.sent, hk]
      · rw [State.event_chan, Part.sendFrame_later he hs counted fun o hk' => nomatch hk.symm.trans hk']
        rfl
  case lines =>
    exact s.event_otherLines _ (fun k hk => by rw [Part.sendFrame_line he hs, if_neg fun h => hk h.1]) k hk hq

end Sys2Proof.Machine
end

section
/-! SUPPORT. The choice of the scheduler, and the exchange it starts (R129 to R132). -/

namespace Sys2Proof.Machine

/-! ## The first of a group or of a round (R130 to R132) -/

theorem firstReady_eq_some {os : List Order} {o : Order} (h : FirstReady os o) : firstReady os = some o := by
  obtain ⟨before, after, rfl, ready, waiting⟩ := h
  refine List.find?_eq_some_iff_append.2 ⟨by simp [ready], before, after, rfl, fun q hq => ?_⟩
  simpa [Option.isSome_iff_ne_none] using waiting q hq

theorem firstReady_eq_none {os : List Order} (h : ∀ o ∈ os, o.backoff ≠ none) : firstReady os = none :=
  List.find?_eq_none.2 fun o ho => by simpa [Option.isNone_iff_eq_none] using h o ho

/-- The least member of a rising list that meets a condition is the first to meet it. -/
theorem find?_eq_some_of_least {α : Type} [LinearOrder α] {ns : List α} (rising : ns.Pairwise (· < ·)) {good : α → Bool} {n : α}
    (hn : n ∈ ns) (hg : good n = true) (least : ∀ m ∈ ns, good m = true → n ≤ m) : ns.find? good = some n := by
  obtain ⟨before, after, rfl⟩ := List.mem_iff_append.1 hn
  refine List.find?_eq_some_iff_append.2 ⟨hg, before, after, rfl, fun m hm => ?_⟩
  have below : m < n := (List.pairwise_append.1 rising).2.2 m hm n (by simp)
  by_contra ready
  exact absurd (least m (by simp [hm]) (by simpa using ready)) (not_le.2 below)

section
variable {ns : List ChannelId} (rising : ns.Pairwise (· < ·)) {pos : Option ChannelId} {due : ChannelId → Prop}
  (mem : ∀ n, n ∈ ns ↔ due n) {n : ChannelId}
include rising mem

/-- The round-robin: the next after the position, or, where none follows it, the lowest. -/
theorem firstAfter_eq_some (h : NextDue pos due n) : firstAfter pos ns = some n := by
  obtain ⟨hn, next⟩ := h
  have lowest (low : ∀ m, due m → n ≤ m) : ns.head? = some n := by
    have first := find?_eq_some_of_least rising (good := fun _ => true) ((mem n).2 hn) rfl fun m hm _ => low m ((mem m).1 hm)
    cases ns with
    | nil => exact nomatch first
    | cons k ks => exact first
  cases pos with
  | none => exact lowest next
  | some k =>
    unfold firstAfter
    dsimp only
    by_cases later : k.val < n.val
    · have found := find?_eq_some_of_least rising (good := fun m => decide (k.val < m.val)) ((mem n).2 hn)
        (decide_eq_true later) fun m hm above => by
          have turn := next m ((mem m).1 hm)
          rw [turnAfter, turnAfter] at turn
          rwa [if_pos later, if_pos (of_decide_eq_true above)] at turn
      rw [found]
    · have wraps (m : ChannelId) (hm : due m) : ¬ k.val < m.val ∧ n ≤ m := by
        have turn := next m hm
        simp only [turnAfter, if_neg later] at turn
        have bound := m.isLt
        split at turn
        · omega
        next no => exact ⟨no, Fin.le_def.2 (by omega)⟩
      have none : ns.find? (fun m => decide (k.val < m.val)) = none :=
        List.find?_eq_none.2 fun m hm => by simpa using (wraps m ((mem m).1 hm)).1
      rw [none]
      exact lowest fun m hm => (wraps m hm).2

omit rising in
theorem firstAfter_eq_none (h : ∀ n, ¬ due n) : firstAfter pos ns = none := by
  have empty : ns = [] := List.eq_nil_iff_forall_not_mem.2 fun n hn => h n ((mem n).1 hn)
  subst empty
  cases pos <;> rfl

end

theorem allChannels_rising (good : ChannelId → Bool) : (allChannels.filter good).Pairwise (· < ·) :=
  (List.pairwise_lt_finRange 48).filter _

section
variable {p : Part} {l : LineId}

/-- R131: a due poll of the line. -/
abbrev Part.Polled (p : Part) (l : LineId) (n : ChannelId) : Prop :=
  (p.chan n).boundTo l = true ∧ (p.chan n).motion = .moving ∧ (p.chan n).pollDue = true

/-- R132: a due supervision of the line. -/
abbrev Part.Awaited (p : Part) (l : LineId) (n : ChannelId) : Prop :=
  (p.chan n).boundTo l = true ∧ supervised (p.chan n).motion = true ∧ (p.chan n).supDue = true

theorem Part.mem_duePolls (n : ChannelId) :
    n ∈ (p.boundChannels l).filter (fun n => decide ((p.chan n).motion = .moving) && (p.chan n).pollDue) ↔ p.Polled l n := by
  rw [List.mem_filter, Part.mem_boundChannels, Bool.and_eq_true, decide_eq_true_iff]

theorem Part.mem_dueSupervisions (n : ChannelId) :
    n ∈ (p.boundChannels l).filter (fun n => supervised (p.chan n).motion && (p.chan n).supDue) ↔ p.Awaited l n := by
  rw [List.mem_filter, Part.mem_boundChannels, Bool.and_eq_true]

theorem Part.duePoll_eq_some {n : ChannelId} (h : NextDue (p.line l).pollPos (p.Polled l) n) : p.duePoll l = some n :=
  firstAfter_eq_some ((allChannels_rising _).filter _) Part.mem_duePolls h
theorem Part.duePoll_eq_none (h : ∀ n, ¬ p.Polled l n) : p.duePoll l = none := firstAfter_eq_none Part.mem_duePolls h
theorem Part.dueSupervision_eq_some {n : ChannelId} (h : NextDue (p.line l).supPos (p.Awaited l) n) :
    p.dueSupervision l = some n := firstAfter_eq_some ((allChannels_rising _).filter _) Part.mem_dueSupervisions h
theorem Part.dueSupervision_eq_none (h : ∀ n, ¬ p.Awaited l n) : p.dueSupervision l = none :=
  firstAfter_eq_none Part.mem_dueSupervisions h

/-! ## The retake (R127) -/

theorem Part.retakeChoice_order {n : ChannelId} {o : Order} (h : (p.line l).retake = some (.move n) ∨ (p.line l).retake = some (.halt n))
    (ho : (p.line l).queued n = some o) : p.retakeChoice l = some (.order o) := by
  rcases h with h | h <;> rw [Part.retakeChoice, h] <;> simp [ho]

theorem Part.retakeChoice_poll {n : ChannelId} (h : (p.line l).retake = some (.poll n)) (hm : (p.chan n).motion = .moving) :
    p.retakeChoice l = some (.poll n) := by
  rw [Part.retakeChoice, h]; exact if_pos hm

theorem Part.retakeChoice_supervise {n : ChannelId} (h : (p.line l).retake = some (.supervise n))
    (hm : supervised (p.chan n).motion = true) : p.retakeChoice l = some (.supervise n) := by
  rw [Part.retakeChoice, h]; exact if_pos hm

/-- A retake whose work has gone is none. -/
theorem Part.retakeChoice_eq_none
    (order : ∀ n, (p.line l).retake = some (.move n) ∨ (p.line l).retake = some (.halt n) → (p.line l).queued n = none)
    (poll : ∀ n, (p.line l).retake = some (.poll n) → (p.chan n).motion ≠ .moving)
    (supervise : ∀ n, (p.line l).retake = some (.supervise n) → supervised (p.chan n).motion = false) :
    p.retakeChoice l = none := by
  unfold Part.retakeChoice
  split
  next n h => rw [order n (.inl h)]; rfl
  next n h => rw [order n (.inr h)]; rfl
  next n h => exact if_neg (poll n h)
  next n h => exact if_neg (by rw [supervise n h]; exact Bool.false_ne_true)
  next => rfl

/-- The retake that QUIETING still takes (R127, R130). -/
def Part.quietingRetake (p : Part) (l : LineId) : Option Choice :=
  match (p.line l).retake with
  | some r => if r.inQuieting then p.retakeChoice l else none
  | none => none

theorem Part.quietingRetake_of {r : Retake} (h : (p.line l).retake = some r) (hr : r.inQuieting = true) :
    p.quietingRetake l = p.retakeChoice l := by
  rw [Part.quietingRetake, h]; exact if_pos hr

theorem Part.quietingRetake_eq_none (halt : ∀ n, (p.line l).retake = some (.halt n) → (p.line l).queued n = none)
    (poll : ∀ n, (p.line l).retake = some (.poll n) → (p.chan n).motion ≠ .moving) : p.quietingRetake l = none := by
  unfold Part.quietingRetake
  cases h : (p.line l).retake with
  | none => rfl
  | some r =>
    have gone (order : ∀ n, r = .move n ∨ r = .halt n → (p.line l).queued n = none) (supervise : ∀ n, r ≠ .supervise n) :
        p.retakeChoice l = none :=
      Part.retakeChoice_eq_none (fun n hn => order n (hn.imp (fun e => Option.some.inj (h.symm.trans e)) fun e =>
        Option.some.inj (h.symm.trans e))) poll fun n hn => absurd (Option.some.inj (h.symm.trans hn)) (supervise n)
    cases r with
    | move n => rfl
    | supervise n => rfl
    | halt n =>
      refine (if_pos rfl).trans (gone (fun m hm => ?_) fun _ => Retake.noConfusion)
      rcases hm with hm | hm
      · exact Retake.noConfusion hm
      · exact halt m (hm ▸ h)
    | poll n =>
      exact (if_pos rfl).trans (gone (fun m hm => hm.elim Retake.noConfusion Retake.noConfusion) fun _ => Retake.noConfusion)

/-! ## The choice by the line's state (R130) -/

theorem Part.choose_run (h : (p.line l).state = .run) :
    p.choose l = (p.retakeChoice l).or (((firstReady (p.line l).urgent).map Choice.order).or
      (((p.duePoll l).map Choice.poll).or (((firstReady (p.line l).routine).map Choice.order).or
        ((p.dueSupervision l).map Choice.supervise)))) := by
  simp only [Part.choose, h]

theorem Part.choose_quieting (h : (p.line l).state = .quieting) :
    p.choose l = (p.quietingRetake l).or (((firstReady ((p.line l).urgent.filter (fun o => o.isHalt))).map Choice.order).or
      ((p.duePoll l).map Choice.poll)) := by
  simp only [Part.choose, h]
  rfl

theorem Part.choose_of_still (h : (p.line l).state = .quiet ∨ (p.line l).state = .test ∨ (p.line l).state = .disabled ∨
    (p.line l).state = .failed) : p.choose l = none := by
  rcases h with h | h | h | h <;> simp only [Part.choose, h]

end

/-! ## The exchange started (R102, R129) -/

/-- What the choice carries on the line. -/
def Choice.kind : Choice → ExchangeKind
  | .order o => .order o
  | .poll n => .query n true
  | .supervise n => .query n false

/-- The channel a choice is for. -/
def Choice.channel : Choice → ChannelId
  | .order o => o.channel
  | .poll n | .supervise n => n

/-- An order leaves the queue; a poll or a supervision moves its position. -/
def Choice.taken (c : Choice) (x : Line) : Line :=
  match c with
  | .order o => x.take o.channel
  | .poll n => { x with pollPos := some n }
  | .supervise n => { x with supPos := some n }

/-- The channel's record once its transaction has started. -/
def Choice.begun (c : Choice) (now : Nat) (d : Channel) : Channel :=
  match c with
  | .order o => if o.isHalt then d else d.enter now .ordering
  | .poll _ => { d with pollDue := false, pollFrom := none }
  | .supervise _ => { d with supDue := false }

/-- The line with the exchange of a choice in flight. -/
def Line.carrying (x : Line) (node : BitVec 4) (k : ExchangeKind) : Line :=
  { x with exchange := some ⟨k, node, none⟩, retake := none, wire := (exchangeFrame node k).bytes }

section
variable (p : Part) (l : LineId) (c : Choice)

theorem Part.startChoice_line_self :
    (p.startChoice l c).line l = (c.taken (p.line l)).carrying (p.chan c.channel).cfg.node c.kind := by
  cases c with
  | order o =>
    unfold Part.startChoice
    dsimp only
    split <;> simp only [Part.setMotion_line, Part.startExchange, Part.line_modLine_self] <;> rfl
  | poll n =>
    simp only [Part.startChoice, Part.startExchange, Part.line_modLine_self, Part.modChan_line]
    rfl
  | supervise n =>
    simp only [Part.startChoice, Part.startExchange, Part.line_modLine_self, Part.modChan_line]
    rfl

theorem Part.startChoice_line_of_ne {k : LineId} (hk : k ≠ l) : (p.startChoice l c).line k = p.line k := by
  cases c with
  | order o =>
    unfold Part.startChoice
    dsimp only
    split <;> simp only [Part.setMotion_line, Part.startExchange, Part.line_modLine, if_neg hk]
  | poll n => simp only [Part.startChoice, Part.startExchange, Part.line_modLine, Part.modChan_line, if_neg hk]
  | supervise n => simp only [Part.startChoice, Part.startExchange, Part.line_modLine, Part.modChan_line, if_neg hk]

theorem Part.startChoice_chan (m : ChannelId) :
    (p.startChoice l c).chan m = if m = c.channel then c.begun p.now (p.chan m) else p.chan m := by
  cases c with
  | order o =>
    unfold Part.startChoice
    dsimp only [Choice.channel, Choice.begun]
    split
    · rw [ite_self]; rfl
    · rw [Part.setMotion, Part.chan_modChan]
      split
      next h => rw [h]; rfl
      next => rfl
  | poll n =>
    simp only [Part.startChoice, Part.startExchange, Part.modLine_chan, Part.chan_modChan]
    by_cases h : m = n
    · subst h; rfl
    · exact (if_neg h).trans (if_neg h).symm
  | supervise n =>
    simp only [Part.startChoice, Part.startExchange, Part.modLine_chan, Part.chan_modChan]
    by_cases h : m = n
    · subst h; rfl
    · exact (if_neg h).trans (if_neg h).symm

/-- A start writes neither clock, banks nor notices. -/
theorem Part.startChoice_rest :
    (p.startChoice l c).now = p.now ∧ (p.startChoice l c).banks = p.banks ∧ p.SameNotices (p.startChoice l c) := by
  cases c with
  | order o =>
    unfold Part.startChoice
    dsimp only
    split <;> exact ⟨by simp [Part.startExchange, Part.setMotion], by simp [Part.startExchange, Part.setMotion],
      by simp [Part.startExchange, Part.setMotion], by simp [Part.startExchange, Part.setMotion]⟩
  | poll n => simp [Part.SameNotices, Part.startChoice, Part.startExchange]
  | supervise n => simp [Part.SameNotices, Part.startChoice, Part.startExchange]

end

end Sys2Proof.Machine
end

section
/-! PROOF. O49: the start of a transaction (R97, R102, R127, R129 to R132). -/

namespace Sys2Proof.Machine

/-- R129: nothing of the line's state holds a start back. -/
theorem Line.mayStart_iff (x : Line) :
    x.mayStart = true ↔ x.exchange = none ∧ x.answer = none ∧ x.window = .none ∧ x.receiving = false := by
  simp [Line.mayStart, and_assoc]

theorem Channel.enter_ordering (c : Channel) (now : Nat) :
    c.enter now .ordering =
      { c with motion := .ordering, supFrom := none, supDue := false, pollFrom := none, pollDue := false } := rfl

/-- The transaction of a choice has started on a line, once the line was free. -/
structure State.Starts (s t : State) (l : LineId) (c : Choice) : Prop where
  line : t.part.line l = (c.taken (s.part.line l)).carrying (s.part.chan c.channel).cfg.node c.kind
  now : t.part.now = max s.part.now (s.part.line l).freeAt
  chan : ∃ now, t.part.chan c.channel = c.begun now (s.part.chan c.channel)
  others : ∀ m : ChannelId, m ≠ c.channel → t.part.chan m = s.part.chan m

section
variable {p : Part} {l : LineId}

theorem Part.startTransaction_of_choice {c : Choice} (may : (p.line l).mayStart = true) (h : p.choose l = some c) :
    p.startTransaction l = (p.advanceTo (p.line l).freeAt).startChoice l c := by
  rw [Part.startTransaction, if_pos may, h]

theorem Part.startTransaction_of_none (h : (p.line l).mayStart = false ∨ p.choose l = none) : p.startTransaction l = p := by
  unfold Part.startTransaction
  rcases h with h | h
  · rw [if_neg (by simp [h])]
  · rw [h, ite_self]

theorem Part.startTransaction_cases (p : Part) (l : LineId) :
    p.startTransaction l = p ∨ ∃ c, p.startTransaction l = (p.advanceTo (p.line l).freeAt).startChoice l c := by
  cases may : (p.line l).mayStart with
  | false => exact .inl (Part.startTransaction_of_none (.inl may))
  | true =>
    cases h : p.choose l with
    | none => exact .inl (Part.startTransaction_of_none (.inr h))
    | some c => exact .inr ⟨c, Part.startTransaction_of_choice may h⟩

theorem Part.startTransaction_rest (p : Part) (l : LineId) :
    (∀ k, k ≠ l → (p.startTransaction l).line k = p.line k) ∧ p.SameBanks (p.startTransaction l) ∧
      p.SameNotices (p.startTransaction l) := by
  rcases p.startTransaction_cases l with h | ⟨c, h⟩ <;> rw [h]
  · exact ⟨fun _ _ => rfl, fun _ => rfl, rfl, rfl⟩
  · obtain ⟨-, banks, notices⟩ := (p.advanceTo (p.line l).freeAt).startChoice_rest l c
    exact ⟨fun k hk => Part.startChoice_line_of_ne _ l c hk, fun b => by rw [Part.bank, banks]; rfl, notices⟩

theorem State.starts {s : State} {c : Choice} (may : (s.part.line l).mayStart = true) (h : s.part.choose l = some c) :
    s.Starts (s.event fun p => p.startTransaction l) l c := by
  have eq := Part.startTransaction_of_choice may h
  have line := Part.startChoice_line_self (s.part.advanceTo (s.part.line l).freeAt) l c
  have chan := Part.startChoice_chan (s.part.advanceTo (s.part.line l).freeAt) l c
  obtain ⟨now, -⟩ := (s.part.advanceTo (s.part.line l).freeAt).startChoice_rest l c
  rw [← eq] at line chan now
  have busy := s.event_line_busy (fun p => p.startTransaction l) (congrArg Line.exchange line)
  exact ⟨busy.trans line, (s.event_now _).trans now, ⟨_, (s.event_chan _ _).trans ((chan _).trans (if_pos rfl))⟩,
    fun m hm => (s.event_chan _ m).trans ((chan m).trans (if_neg hm))⟩

end

/-- Settles O49: the order of the scheduler's choices, clause by clause. -/
theorem transactionStartTakesTheFirstWork : Obligations.TransactionStartTakesTheFirstWork := by
  intro s l x bound polled awaited opens
  obtain ⟨lines, banks, notices⟩ := s.part.startTransaction_rest l
  refine ⟨_, rfl, ?_, fun k hk hq => s.event_otherLines _ lines k hk hq, fun b => (s.event_bank _ b).trans (banks b),
    (s.event_notices _).trans notices.1, (s.event_noticeAcks _).trans notices.2⟩
  intro started takes polls supervises nothing
  have still (h : x.mayStart = false ∨ s.part.choose l = none) : nothing := by
    have eq := Part.startTransaction_of_none h
    refine ⟨fun n => ?_, s.event_sameLines _ fun k => by rw [eq], ?_⟩
    · rw [State.event_chan, eq]
    · rw [State.event_now, eq]
  have takes_of {o : Order} (free : opens) (h : s.part.choose l = some (.order o)) : takes o := by
    obtain ⟨line, now, ⟨_, chan⟩, others⟩ := State.starts (x.mayStart_iff.2 free) h
    refine ⟨⟨line.trans ?_, now, others⟩, chan.trans ?_⟩
    · rfl
    · simp only [Choice.begun, Channel.enter_ordering]
      rfl
  have polls_of {n : ChannelId} (free : opens) (h : s.part.choose l = some (.poll n)) : polls n := by
    obtain ⟨line, now, ⟨_, chan⟩, others⟩ := State.starts (x.mayStart_iff.2 free) h
    exact ⟨⟨line, now, others⟩, chan⟩
  have supervises_of {n : ChannelId} (free : opens) (h : s.part.choose l = some (.supervise n)) : supervises n := by
    obtain ⟨line, now, ⟨_, chan⟩, others⟩ := State.starts (x.mayStart_iff.2 free) h
    exact ⟨⟨line, now, others⟩, chan⟩
  refine ⟨fun held => still (.inl (Bool.eq_false_of_not_eq_true fun may => held (x.mayStart_iff.1 may))),
    fun out => still (.inr (Part.choose_of_still out)), fun free run => ?run, fun free quieting => ?quieting⟩
  case run =>
    have choice := Part.choose_run (p := s.part) run
    refine ⟨fun n o hr ho => takes_of free ?_, fun n hr hm => polls_of free ?_, fun n hr hm => supervises_of free ?_,
      fun order poll supervise => ?_⟩
    · rw [choice, Part.retakeChoice_order hr ho, Option.some_or]
    · rw [choice, Part.retakeChoice_poll hr hm, Option.some_or]
    · rw [choice, Part.retakeChoice_supervise hr hm, Option.some_or]
    rw [Part.retakeChoice_eq_none order poll supervise, Option.none_or] at choice
    refine ⟨fun o ho => takes_of free ?_, fun waiting => ?_⟩
    · rw [choice, firstReady_eq_some ho, Option.map_some, Option.some_or]
    rw [firstReady_eq_none waiting, Option.map_none, Option.none_or] at choice
    refine ⟨fun n hn => polls_of free ?_, fun unpolled => ?_⟩
    · rw [choice, Part.duePoll_eq_some hn, Option.map_some, Option.some_or]
    rw [Part.duePoll_eq_none unpolled, Option.map_none, Option.none_or] at choice
    refine ⟨fun o ho => takes_of free ?_, fun waiting => ?_⟩
    · rw [choice, firstReady_eq_some ho, Option.map_some, Option.some_or]
    rw [firstReady_eq_none waiting, Option.map_none, Option.none_or] at choice
    refine ⟨fun n hn => supervises_of free ?_, fun unawaited => still (.inr ?_)⟩
    · rw [choice, Part.dueSupervision_eq_some hn, Option.map_some]
    · rw [choice, Part.dueSupervision_eq_none unawaited, Option.map_none]
  case quieting =>
    have choice := Part.choose_quieting (p := s.part) quieting
    refine ⟨fun n o hr ho => takes_of free ?_, fun n hr hm => polls_of free ?_, fun halt poll => ?_⟩
    · rw [choice, Part.quietingRetake_of hr rfl, Part.retakeChoice_order (.inr hr) ho, Option.some_or]
    · rw [choice, Part.quietingRetake_of hr rfl, Part.retakeChoice_poll hr hm, Option.some_or]
    rw [Part.quietingRetake_eq_none halt poll, Option.none_or] at choice
    refine ⟨fun o ho => takes_of free ?_, fun waiting => ?_⟩
    · rw [choice, firstReady_eq_some ho, Option.map_some, Option.some_or]
    have waiting : ∀ o ∈ x.urgent.filter (fun q => q.isHalt), o.backoff ≠ none := fun o ho =>
      waiting o (List.mem_filter.1 ho).1 (List.mem_filter.1 ho).2
    rw [firstReady_eq_none waiting, Option.map_none, Option.none_or] at choice
    refine ⟨fun n hn => polls_of free ?_, fun unpolled => still (.inr ?_)⟩
    · rw [choice, Part.duePoll_eq_some hn, Option.map_some]
    · rw [choice, Part.duePoll_eq_none unpolled, Option.map_none]

end Sys2Proof.Machine
end

section
/-! SUPPORT. The frames that answer nothing, and what the end of an exchange leaves besides its result (R120, R123, R124). -/

namespace Sys2Proof.Machine

/-! ## A frame heard, or a wait run, before its effect -/

/-- Of the part only the clock and, of one line, the watch and the receiver differ. -/
structure Part.Listened (l : LineId) (p q : Part) : Prop where
  chan : p.SameChans q
  bank : p.SameBanks q
  notices : p.SameNotices q
  globals : q.globals = p.globals
  other : ∀ k, k ≠ l → q.line k = p.line k
  own : { q.line l with watch := (p.line l).watch, receiver := (p.line l).receiver } = p.line l

section
variable (p : Part) (l : LineId)

theorem Part.Listened.frameSeen : Part.Listened l p (p.frameSeen l) where
  chan := p.frameSeen_chan l
  bank := p.frameSeen_bank l
  notices := (p.frameSeen_surroundings l).notices
  globals := p.frameSeen_globals l
  other _ hk := p.frameSeen_line_of_ne l hk
  own := by rw [Part.frameSeen_line]; split <;> rfl

theorem Part.Listened.receive (h : Reception) (now : Nat) : Part.Listened l p (p.modLine l fun x => x.receive h now) where
  chan _ := rfl
  bank _ := rfl
  notices := ⟨rfl, rfl⟩
  globals := rfl
  other _ hk := p.modLine_otherLines _ hk
  own := by rw [Part.line_modLine_self]; rfl

theorem Part.Listened.advanceTo (t : Nat) : Part.Listened l p (p.advanceTo t) :=
  ⟨fun _ => rfl, fun _ => rfl, ⟨rfl, rfl⟩, rfl, fun _ _ => rfl, rfl⟩

end

section
variable {l : LineId} {p q : Part} (h : Part.Listened l p q)
include h

theorem Part.Listened.exchange : (q.line l).exchange = (p.line l).exchange := by rw [← h.own]
theorem Part.Listened.state : (q.line l).state = (p.line l).state := by rw [← h.own]
theorem Part.Listened.freeAt : (q.line l).freeAt = (p.line l).freeAt := by rw [← h.own]

theorem Part.Listened.queue (k : LineId) : (p.line k).SameQueue (q.line k) := by
  by_cases e : k = l
  · subst e; rw [← h.own]; exact ⟨rfl, rfl⟩
  · rw [h.other k e]; exact .refl _

theorem Part.Listened.awaiting (addr : BitVec 4) : (q.line l).awaiting addr = (p.line l).awaiting addr := by
  rw [Line.awaiting, h.exchange]; rfl

end

/-! ## Frames that are no expected reply (R123, R124) -/

/-- The rows whose frame answers no transaction or test that awaits a reply on the line, with what they are taken for. -/
inductive HeardAs (x : Line) (l : LineId) : Instr → Heard → Prop where
  | accept {addr : BitVec 4} (none : ∀ o, x.awaiting addr ≠ some (.order o)) : HeardAs x l (.accept l addr) .valid
  | busy {addr : BitVec 4} (none : ∀ o, x.awaiting addr ≠ some (.order o)) : HeardAs x l (.busy l addr) .valid
  | refuse {addr : BitVec 4} (reason : Byte) (none : ∀ o, x.awaiting addr ≠ some (.order o)) :
    HeardAs x l (.refuse l addr reason) .valid
  | status {addr : BitVec 4} (position : Word) {motion : Byte} (faults : Byte) (whole : motion.extractLsb' 0 2 ≠ 3)
    (query : ∀ n poll, x.awaiting addr ≠ some (.query n poll))
    (halt : ∀ o, x.awaiting addr = some (.order o) → o.isHalt = false) :
    HeardAs x l (.status l addr position motion faults) .valid
  | badStatus (addr : BitVec 4) (position : Word) {motion : Byte} (faults : Byte) (bad : motion.extractLsb' 0 2 = 3) :
    HeardAs x l (.status l addr position motion faults) .damaged
  | echo {addr : BitVec 4} (came : List Byte) (good : Bool) (none : ∀ bytes d, x.awaiting addr ≠ some (.test bytes d)) :
    HeardAs x l (.testEcho l addr came good) (if came.length = 8 ∧ good = true then .valid else .damaged)
  | key {addr : BitVec 4} (zones command : Byte) (first : Bool) (other : isStation addr = false) :
    HeardAs x l (.key l addr zones command first) .valid
  | damaged {heard : Reception} (found : (x.receiver.hear heard).found = .damaged) :
    HeardAs x l (.damagedFrame l heard) .damaged
  | damagedEcho {heard : Reception} {addr : BitVec 4} {came : List Byte}
    (found : (x.receiver.hear heard).found = .damagedEcho addr came)
    (none : ∀ bytes d, x.awaiting addr ≠ some (.test bytes d)) : HeardAs x l (.damagedFrame l heard) .damaged

section
variable {p : Part} {l : LineId} {addr : BitVec 4}

theorem Part.hearAccept_of_none (none : ∀ o, (p.line l).awaiting addr ≠ some (.order o)) :
    p.hearAccept l addr = p.hearOther l .valid := by
  unfold Part.hearAccept
  split
  next o h => exact absurd h (none o)
  next => rfl

theorem Part.hearBusy_of_none (none : ∀ o, (p.line l).awaiting addr ≠ some (.order o)) :
    p.hearBusy l addr = p.hearOther l .valid := by
  unfold Part.hearBusy
  split
  next o h => exact absurd h (none o)
  next => rfl

theorem Part.hearRefuse_of_none (reason : Byte) (none : ∀ o, (p.line l).awaiting addr ≠ some (.order o)) :
    p.hearRefuse l addr reason = p.hearOther l .valid := by
  unfold Part.hearRefuse
  split
  next o h => exact absurd h (none o)
  next => rfl

theorem Part.hearStatus_of_none (position : Word) {motion : Byte} (faults : Byte) (whole : motion.extractLsb' 0 2 ≠ 3)
    (query : ∀ n poll, (p.line l).awaiting addr ≠ some (.query n poll))
    (halt : ∀ o, (p.line l).awaiting addr = some (.order o) → o.isHalt = false) :
    p.hearStatus l addr position motion faults = p.hearOther l .valid := by
  unfold Part.hearStatus
  split
  next h => exact absurd ((nodeMotionOfByte_eq_none motion).1 h) whole
  next m h =>
    split
    next n poll h => exact absurd h (query n poll)
    next o h =>
      have move := halt o h
      unfold Order.isHalt at move
      split
      next v hw => rw [hw] at move; exact Bool.noConfusion move
      next => rfl
    all_goals rfl

theorem Part.hearStatus_of_bad (addr : BitVec 4) (position : Word) {motion : Byte} (faults : Byte)
    (bad : motion.extractLsb' 0 2 = 3) : p.hearStatus l addr position motion faults = p.hearOther l .damaged := by
  rw [Part.hearStatus, (nodeMotionOfByte_eq_none motion).2 bad]

theorem Part.hearEcho_of_none (came : List Byte) (good : Bool)
    (none : ∀ bytes d, (p.line l).awaiting addr ≠ some (.test bytes d)) :
    p.hearEcho l addr came good = p.hearOther l (if came.length = 8 ∧ good = true then .valid else .damaged) := by
  unfold Part.hearEcho
  split
  next bytes d h => exact absurd h (none bytes d)
  next => rfl

theorem Part.hearKey_of_other (zones command : Byte) (first : Bool) (other : isStation addr = false) :
    p.hearKey l addr zones command first = p.hearOther l .valid := by
  rw [Part.hearKey, other]
  rfl

end

/-- Each of them is heard, and taken for what it is. -/
theorem exec_heardAs {s : State} {l : LineId} (on : (s.part.line l).state ≠ .disabled)
    (sent : ∀ e, (s.part.line l).exchange = some e → e.sentAt ≠ none) {c : Instr} {k : Heard}
    (row : HeardAs (s.part.line l) l c k) :
    ∃ act q, exec c s = .next (s.event act) ∧ Part.Listened l s.part q ∧ q.now = s.part.now ∧
      act s.part = q.hearOther l k := by
  have seen := Part.Listened.frameSeen s.part l
  have frame {act : Part → Part} (next : exec c s = .next (s.event act)) (eq : act s.part = (s.part.frameSeen l).hearOther l k) :
      ∃ act q, exec c s = .next (s.event act) ∧ Part.Listened l s.part q ∧ q.now = s.part.now ∧ act s.part = q.hearOther l k :=
    ⟨act, _, next, seen, s.part.frameSeen_now l, eq⟩
  have received (heard : Reception) : s.part.hearReception l heard =
      (s.part.modLine l fun x => x.receive heard s.part.now).takeFound l ((s.part.line l).receiver.hear heard).found :=
    if_pos (Line.listens_of on sent)
  cases row with
  | accept none => exact frame rfl (Part.hearAccept_of_none (by simpa only [seen.awaiting] using none))
  | busy none => exact frame rfl (Part.hearBusy_of_none (by simpa only [seen.awaiting] using none))
  | refuse reason none => exact frame rfl (Part.hearRefuse_of_none reason (by simpa only [seen.awaiting] using none))
  | status position faults whole query halt =>
    exact frame rfl (Part.hearStatus_of_none position faults whole (by simpa only [seen.awaiting] using query)
      (by simpa only [seen.awaiting] using halt))
  | badStatus addr position faults bad => exact frame rfl (Part.hearStatus_of_bad addr position faults bad)
  | echo came good none =>
    exact frame rfl (Part.hearEcho_of_none came good (by simpa only [seen.awaiting] using none))
  | key zones command first other => exact frame rfl (Part.hearKey_of_other zones command first other)
  | @damaged heard found =>
    refine ⟨_, _, rfl, .receive s.part l heard s.part.now, rfl, (received heard).trans ?_⟩
    rw [found]
    rfl
  | @damagedEcho heard addr came found none =>
    have listened := Part.Listened.receive s.part l heard s.part.now
    refine ⟨_, _, rfl, listened, rfl, (received heard).trans ?_⟩
    rw [found]
    refine (Part.hearEcho_of_none came false (by simpa only [listened.awaiting] using none)).trans ?_
    rw [if_neg fun h => Bool.false_ne_true h.2]

/-- With nothing in flight such a frame is recorded against the line, which is free after its gap (R124). -/
theorem Part.hearOther_free {p : Part} {l : LineId} (on : (p.line l).state ≠ .disabled) (free : (p.line l).exchange = none)
    (k : Heard) : p.hearOther l k = (p.lineBusyUntilGap l).recordHeard l k := by
  simp only [Part.hearOther, if_neg on, free]

/-- In a reply window it ends the transaction as a failure (R123). -/
theorem Part.hearOther_transaction {p : Part} {l : LineId} {e : Exchange} {sent : Nat} (on : (p.line l).state ≠ .disabled)
    (he : (p.line l).exchange = some e) (hs : e.sentAt = some sent) (transaction : ∀ bytes d, e.kind ≠ .test bytes d) (k : Heard) :
    p.hearOther l k = p.failExchange l (heardFailure k) (p.now + 2) := by
  simp only [Part.hearOther, if_neg on, he, hs]
  cases hk : e.kind with
  | order o => rfl
  | query n poll => rfl
  | test bytes d => exact absurd hk (transaction bytes d)

/-- The event of a frame that finds nothing in flight. -/
theorem exec_heardFree {s : State} {l : LineId} (on : (s.part.line l).state ≠ .disabled)
    (free : (s.part.line l).exchange = none) {c : Instr} {k : Heard} (row : HeardAs (s.part.line l) l c k) :
    ∃ t, exec c s = .next t ∧
      t.part.bank (.line l) =
        ((s.part.bank (.line l)).take ⟨.notice, failureKind (heardFailure k), some (.line l), none⟩).count ∧
      (t.part.line l).freeAt = max (s.part.line l).freeAt (s.part.now + 2) ∧ (t.part.line l).receiving = false ∧
      s.part.SameBanksBut t.part (.line l) ∧ s.part.SameChans t.part := by
  obtain ⟨act, q, next, listened, now, eq⟩ := exec_heardAs on (fun e he => nomatch free.symm.trans he) row
  have heard := eq.trans (Part.hearOther_free (by rwa [listened.state]) (by rwa [listened.exchange]) k)
  have line : (act s.part).line l = (q.line l).heard q.now := by
    rw [heard, Part.recordHeard, Part.record_line, Part.lineBusyUntilGap, Part.line_modLine_self]
  obtain ⟨-, -, -, freeAt⟩ := s.event_line_fields act l
  obtain ⟨-, receiving, -⟩ := s.event_line_heard act l
  refine ⟨_, next, ?_, ?_, ?_, fun b hb => ?_, fun n => ?_⟩
  · rw [State.event_bank, heard, Part.recordHeard, Part.bank_record_self]
    exact congrArg (fun b => (Bank.take b _).count) (listened.bank _)
  · rw [freeAt, line, ← listened.freeAt, ← now]; rfl
  · rw [receiving, line]; rfl
  · rw [State.event_bank, heard, Part.recordHeard, Part.bank_record, if_neg hb]
    exact listened.bank b
  · rw [State.event_chan, heard]; exact listened.chan n

/-! ## An exchange that has ended -/

/-- An exchange on a line has ended, with the line free at an instant and errors taken by its bank; channels keep their lines,
and the queues, the notices and the other banks stand. -/
structure Part.Vacated (l : LineId) (free : Nat) (errors : List ErrorRecord) (p q : Part) : Prop where
  bank : ∀ b, q.bank b = if b = .line l then (p.bank (.line l)).takeAll errors else p.bank b
  notices : p.SameNotices q
  globals : q.globals = p.globals
  lineOf : ∀ n, q.lineOf n = p.lineOf n
  queue : ∀ k, (p.line k).SameQueue (q.line k)
  exchange : (q.line l).exchange = none
  freeAt : (q.line l).freeAt = free

/-- R131, R132: the record of a channel whose QUERY has ended. -/
def Channel.queried (c : Channel) (poll : Bool) (now : Nat) : Channel :=
  if poll then (c.restartSupervision now).restartPoll now else c.restartSupervision now

section
variable {p q : Part} {l : LineId} {e : Exchange}

theorem Part.endExchange_rest (p : Part) (l : LineId) (free : Nat) :
    (p.endExchange l free).banks = p.banks ∧ (p.endExchange l free).now = p.now ∧ (p.endExchange l free).globals = p.globals ∧
      ∀ k, k ≠ l → (p.endExchange l free).line k = p.line k := by
  have others (k : LineId) (hk : k ≠ l) : (p.modLine l fun x => x.endExchange free).line k = p.line k :=
    p.modLine_otherLines _ hk
  unfold Part.endExchange
  split
  · dsimp only
    split
    · split <;> exact ⟨rfl, rfl, rfl, others⟩
    all_goals exact ⟨rfl, rfl, rfl, others⟩
  · exact ⟨rfl, rfl, rfl, fun _ _ => rfl⟩

theorem Part.endExchange_chan_of_query {n : ChannelId} {poll : Bool} (he : (p.line l).exchange = some e)
    (hk : e.kind = .query n poll) (free : Nat) (m : ChannelId) :
    (p.endExchange l free).chan m = if m = n then (p.chan m).queried poll p.now else p.chan m := by
  simp only [Part.endExchange, he, hk]
  by_cases h : m = n
  · subst h
    cases poll <;> simp [Channel.queried]
  · cases poll <;> simp [Part.chan_modChan, h]

theorem Part.Listened.vacated (h : Part.Listened l p q) (he : (p.line l).exchange = some e) (free : Nat) :
    Part.Vacated l free [] p (q.endExchange l free) := by
  have line := q.endExchange_line l free (h.exchange.trans he)
  obtain ⟨banks, -, globals, other⟩ := q.endExchange_rest l free
  have notices := q.endExchange_sameNotices l free
  refine ⟨fun b => ?_, ⟨notices.1.trans h.notices.1, notices.2.trans h.notices.2⟩, globals.trans h.globals, fun n => ?_,
    fun k => ?_, by rw [line]; rfl, by rw [line]; rfl⟩
  · rw [Part.bank, banks]
    refine (h.bank b).trans ?_
    split
    next e => rw [e]; rfl
    next => rfl
  · rw [Part.endExchange_lineOf, Part.lineOf, h.chan]; rfl
  · refine (h.queue k).trans ?_
    by_cases e : k = l
    · subst e; rw [line]; exact ⟨rfl, rfl⟩
    · rw [other k e]; exact .refl _

variable {r : Part} {free : Nat} {errors : List ErrorRecord} (h : Part.Vacated l free errors p q)
include h

theorem Part.Vacated.record (error : ErrorRecord) :
    Part.Vacated l free (errors ++ [error]) p (q.record (.line l) error) := by
  refine ⟨fun b => ?_, h.notices, h.globals, h.lineOf, h.queue, h.exchange, h.freeAt⟩
  rw [Part.bank_record]
  split
  next e =>
    rw [h.bank, if_pos rfl, Bank.takeAll_append]
    rfl
  next e => rw [h.bank, if_neg e]

theorem Part.Vacated.modChan {n : ChannelId} {f : Channel → Channel} (hf : ∀ c, (f c).cfg = c.cfg) :
    Part.Vacated l free errors p (q.modChan n f) := by
  refine ⟨h.bank, h.notices, h.globals, fun m => (h.lineOf m).symm ▸ ?_, h.queue, h.exchange, h.freeAt⟩
  rw [Part.lineOf, Part.chan_modChan]
  split
  next e => rw [hf, e]; rfl
  next => rfl

theorem Part.Vacated.queued (k : LineId) (n : ChannelId) : (q.line k).queued n = (p.line k).queued n := by
  rw [Line.queued, (h.queue k).urgent, (h.queue k).routine]; rfl

theorem Part.Vacated.queuedOf (n : ChannelId) : q.queuedOf n = p.queuedOf n := by
  rw [Part.queuedOf, h.lineOf, h.queued]; rfl

theorem Part.Vacated.bank_channel : q.bank .channel = p.bank .channel := (h.bank .channel).trans (if_neg BankId.noConfusion)

end

/-- What is left of the line and its bank at the end of the event, whatever the Motion Unit makes of the result: it writes channel
records, queues and the CHANNEL bank. -/
theorem State.event_vacated {s : State} {act : Part → Part} {l : LineId} {free : Nat} {errors : List ErrorRecord} {q : Part}
    (h : Part.Vacated l free errors s.part q) (requeued : (q.line l).Requeued ((act s.part).line l))
    (bank : ∀ b, b ≠ .channel → (act s.part).bank b = q.bank b) :
    ((s.event act).part.line l).exchange = none ∧ ((s.event act).part.line l).freeAt = free ∧
      (s.event act).part.bank (.line l) = (s.part.bank (.line l)).takeAll errors ∧
      (errors = [] → s.part.SameBanksBut (s.event act).part .channel) := by
  obtain ⟨-, -, exchange, freeAt⟩ := s.event_line_fields act l
  obtain ⟨queue, flight⟩ := requeued
  refine ⟨exchange.trans ?_, freeAt.trans (queue.freeAt.trans h.freeAt), ?_, fun none b hb => ?_⟩
  · rw [← Line.flight_eq_none, flight, Line.flight_eq_none]
    exact h.exchange
  · rw [State.event_bank, bank _ BankId.noConfusion, h.bank, if_pos rfl]
  · rw [State.event_bank, bank b hb, h.bank, none]
    split
    next e => rw [e]; rfl
    next => rfl

end Sys2Proof.Machine
end

section
/-! SUPPORT. An attempt of an order that has ended: its re-entry, the record of its channel, an entry into FAULTED (R103, R106,
R107, R114). -/

namespace Sys2Proof.Machine

theorem Order.work_of_move {o : Order} (h : o.isHalt = false) : ∃ t, o.work = .move t := by
  unfold Order.isHalt at h
  split at h
  · exact nomatch h
  next t hw => exact ⟨t, hw⟩

theorem Order.work_of_halt {o : Order} (h : o.isHalt = true) : ∃ v, o.work = .halt v := by
  unfold Order.isHalt at h
  split at h
  next v hw => exact ⟨v, hw⟩
  · exact nomatch h

section
variable (x : Line) (o : Order)

theorem Line.reenter_urgent : (x.reenter o).urgent = if o.cls = .urgent then o :: x.urgent else x.urgent := by
  unfold Line.reenter
  split
  next h => rw [if_pos h]
  next h => rw [if_neg (by rw [h]; exact OrderClass.noConfusion)]

theorem Line.reenter_routine : (x.reenter o).routine = if o.cls = .routine then o :: x.routine else x.routine := by
  unfold Line.reenter
  split
  next h => rw [if_neg (by rw [h]; exact OrderClass.noConfusion)]
  next h => rw [if_pos h]

/-- R103: the queue after an attempt of an order without success. -/
def Line.resumed : Line :=
  if o.isHalt then x.reenter { o with cls := .urgent } else if x.queued o.channel = none then x.reenter o else x

theorem Line.resumed_halt (h : o.isHalt = true) :
    (x.resumed o).urgent = { o with cls := .urgent } :: x.urgent ∧ (x.resumed o).routine = x.routine := by
  rw [Line.resumed, if_pos h]
  exact ⟨rfl, rfl⟩

theorem Line.resumed_newer (h : o.isHalt = false) (newer : x.queued o.channel ≠ none) : x.resumed o = x := by
  rw [Line.resumed, if_neg (by rw [h]; exact Bool.false_ne_true), if_neg newer]

theorem Line.resumed_last (h : o.isHalt = false) (last : x.queued o.channel = none) : x.resumed o = x.reenter o := by
  rw [Line.resumed, if_neg (by rw [h]; exact Bool.false_ne_true), if_pos last]

end

/-- R103: the record of a channel whose ORDER has ended without success: MOVING on its accepted order, or else QUEUED, the travel
timer stopping where it is said to. -/
def Channel.resumed (c : Channel) (now : Nat) (stops : Bool) : Channel :=
  if c.accepted = none then ({ c with travel := if stops then none else c.travel } : Channel).enter now .queued
  else c.enter now .moving

section
variable (c : Channel) (now : Nat) (stops : Bool)

theorem Channel.resumed_motion : (c.resumed now stops).motion = if c.accepted = none then .queued else .moving := by
  unfold Channel.resumed; split <;> rfl

theorem Channel.resumed_travel :
    (c.resumed now stops).travel = if c.accepted = none ∧ stops = true then none else c.travel := by
  unfold Channel.resumed
  by_cases h : c.accepted = none
  · rw [if_pos h]; cases stops <;> simp [h, Channel.enter]
  · rw [if_neg h, if_neg fun k => h k.1]; rfl

theorem Channel.resumed_shortMark : (c.resumed now stops).shortMark = c.shortMark := by
  unfold Channel.resumed; split <;> rfl

theorem Channel.resumed_sameWork : c.SameWork (c.resumed now stops) := by
  unfold Channel.resumed; split <;> exact ⟨rfl, rfl, rfl, rfl, rfl, rfl, rfl⟩

end

/-! ## An attempt settled (R103) -/

section
variable (p : Part) (l : LineId) (o : Order)

theorem Part.settleAttempt_halt (h : o.isHalt = true) :
    p.settleAttempt l o = p.modLine l fun x => x.reenter { o with cls := .urgent } := by
  obtain ⟨v, hw⟩ := Order.work_of_halt h
  rw [Part.settleAttempt, hw]

/-- Unless a newer order waits the ORDER re-enters; then the channel's record is written. -/
theorem Part.settleAttempt_move (h : o.isHalt = false) :
    ∃ q : Part, (q = if (p.line l).queued o.channel = none then p.modLine l fun x => x.reenter o else p) ∧
      p.settleAttempt l o =
        if (p.chan o.channel).accepted ≠ none then q.setMotion o.channel .moving
        else (if (p.line l).queued o.channel ≠ none ∨ o.sent = false then q.stopTravel o.channel else q).setMotion o.channel .queued := by
  obtain ⟨t, hw⟩ := Order.work_of_move h
  refine ⟨_, rfl, ?_⟩
  rw [Part.settleAttempt, hw]
  dsimp only
  cases hq : (p.line l).queued o.channel <;> cases ha : (p.chan o.channel).accepted <;> cases hs : o.sent <;> rfl

theorem Part.settleAttempt_line (k : LineId) :
    (p.settleAttempt l o).line k = if k = l then (p.line l).resumed o else p.line k := by
  have entered (y : Order) : (p.modLine l fun x => x.reenter y).line k = if k = l then (p.line l).reenter y else p.line k :=
    p.line_modLine l k _
  cases h : o.isHalt with
  | true => rw [Part.settleAttempt_halt p l o h, entered, Line.resumed, if_pos h]
  | false =>
    obtain ⟨q, hq, eq⟩ := p.settleAttempt_move l o h
    have same : (p.settleAttempt l o).line k = q.line k := by
      rw [eq]
      split
      · rfl
      · split <;> rfl
    rw [same, hq]
    by_cases last : (p.line l).queued o.channel = none
    · rw [if_pos last, Line.resumed_last _ o h last, entered]
    · rw [if_neg last, Line.resumed_newer _ o h last]
      split
      next e => rw [e]
      next => rfl

theorem Part.settleAttempt_chan_self (h : o.isHalt = false) :
    ((p.settleAttempt l o).chan o.channel) = (p.chan o.channel).resumed p.now
      (decide ((p.line l).queued o.channel ≠ none ∨ o.sent = false)) := by
  obtain ⟨q, hq, eq⟩ := p.settleAttempt_move l o h
  have chan : q.chan o.channel = p.chan o.channel := by rw [hq]; split <;> rfl
  have now : q.now = p.now := by rw [hq]; split <;> rfl
  rw [eq, Channel.resumed]
  by_cases ha : (p.chan o.channel).accepted = none
  · rw [if_neg (not_not.2 ha), if_pos ha]
    by_cases stops : (p.line l).queued o.channel ≠ none ∨ o.sent = false
    · rw [if_pos stops, Part.setMotion_chan_self, Part.stopTravel, Part.chan_modChan_self, chan, if_pos (decide_eq_true stops)]
      exact congrArg (fun now => Channel.enter _ now _) now
    · rw [if_neg stops, Part.setMotion_chan_self, chan, now, if_neg (by simpa using stops)]
  · rw [if_pos ha, if_neg ha, Part.setMotion_chan_self, chan, now]

theorem Part.settleAttempt_chan_halt (h : o.isHalt = true) (n : ChannelId) : (p.settleAttempt l o).chan n = p.chan n := by
  rw [Part.settleAttempt_halt p l o h]; rfl

theorem Part.settleAttempt_onlyChan : p.OnlyChan o.channel (p.settleAttempt l o) :=
  Part.OnlyChan.settleAttempt l o (.refl p)

theorem Part.settleAttempt_rest :
    (p.settleAttempt l o).banks = p.banks ∧ (p.settleAttempt l o).now = p.now ∧ p.SameNotices (p.settleAttempt l o) := by
  cases h : o.isHalt with
  | true => rw [Part.settleAttempt_halt p l o h]; exact ⟨rfl, rfl, rfl, rfl⟩
  | false =>
    obtain ⟨q, hq, eq⟩ := p.settleAttempt_move l o h
    have same : q.banks = p.banks ∧ q.now = p.now ∧ p.SameNotices q := by
      rw [hq]; split <;> exact ⟨rfl, rfl, rfl, rfl⟩
    rw [eq]
    split
    · exact same
    · split <;> exact same

theorem Part.settleAttempt_now : (p.settleAttempt l o).now = p.now := by
  obtain ⟨-, now, -⟩ := p.settleAttempt_rest l o
  exact now

/-! ## An entry into FAULTED without the loss of work (R106, R114) -/

variable (n : ChannelId) (f : FaultCode)

theorem Part.enterFaulted_chan_self :
    (p.enterFaulted n f).chan n = ({ p.chan n with fault := some f } : Channel).enter p.now .faulted := by
  show ((p.modChan n fun c => { c with fault := some f }).setMotion n .faulted).chan n = _
  rw [Part.setMotion_chan_self, Part.chan_modChan_self]
  rfl

theorem Part.enterFaulted_bank (b : BankId) :
    (p.enterFaulted n f).bank b =
      if b = .channel then ((p.bank .channel).take (faultedRecord n (p.chan n) f)).count else p.bank b := by
  have severity : channelSeverity (((p.modChan n fun c => { c with fault := some f }).setMotion n .faulted).chan n) =
      ruledSeverity (p.chan n) := by
    rw [Part.setMotion_chan_self, Part.chan_modChan_self]
    rfl
  rw [Part.enterFaulted, Part.recordFaulted, Part.bank_record, severity]
  rfl

theorem Part.enterFaulted_line (k : LineId) : (p.enterFaulted n f).line k = p.line k := rfl

theorem Part.enterFaulted_onlyChan : p.OnlyChan n (p.enterFaulted n f) := (Part.OnlyChan.refl p).enterFaulted f

end

/-! ## A failed attempt (R107, R114) -/

/-- R107: the fault of an ORDER whose last attempt failed. -/
def Failure.code (f : Failure) (retries : Nat) : FaultCode :=
  match f with
  | .checkError => .checkError retries
  | .replyTimeout | .unexpectedFrame => .noResponse retries

section
variable (p : Part) (l : LineId) (o : Order) (f : Failure)

theorem Part.orderFailed_newer (h : o.isHalt = false) (newer : (p.line l).queued o.channel ≠ none) :
    p.orderFailed l o f = p.settleAttempt l o := by
  obtain ⟨t, hw⟩ := Order.work_of_move h
  simp only [Part.orderFailed, hw]
  exact if_pos (Option.isSome_iff_ne_none.2 newer)

theorem Part.orderFailed_retry (h : o.isHalt = false → (p.line l).queued o.channel = none) (more : 1 < o.retriesLeft) :
    p.orderFailed l o f = p.settleAttempt l { o with retriesLeft := o.retriesLeft - 1 } := by
  cases hh : o.isHalt with
  | false =>
    obtain ⟨t, hw⟩ := Order.work_of_move hh
    simp only [Part.orderFailed, hw]
    rw [h hh, if_neg (by simp), if_neg (by omega)]
  | true =>
    obtain ⟨v, hw⟩ := Order.work_of_halt hh
    simp only [Part.orderFailed, hw]
    rw [if_neg (by omega)]

theorem Part.orderFailed_last (h : o.isHalt = false) (none : (p.line l).queued o.channel = none) (last : o.retriesLeft ≤ 1) :
    p.orderFailed l o f = p.faultChannel o.channel (f.code o.retriesAtQueueing) := by
  obtain ⟨t, hw⟩ := Order.work_of_move h
  simp only [Part.orderFailed, hw]
  rw [none, if_neg (by simp), if_pos last]
  cases f <;> rfl

theorem Part.orderFailed_lastHalt (h : o.isHalt = true) (last : o.retriesLeft ≤ 1) :
    p.orderFailed l o f = p.enterFaulted o.channel (.haltUnconfirmed o.retriesAtQueueing) := by
  obtain ⟨v, hw⟩ := Order.work_of_halt h
  simp only [Part.orderFailed, hw]
  exact if_pos last

theorem Part.orderFailed_now : (p.orderFailed l o f).now = p.now := by
  unfold Part.orderFailed
  dsimp only
  split
  · split
    · exact p.settleAttempt_now l o
    · split
      · rfl
      · exact p.settleAttempt_now l _
  · split
    · rfl
    · exact p.settleAttempt_now l _

/-- What no end of an attempt changes of a channel's record. -/
structure Channel.SamePlace (c d : Channel) : Prop where
  position : d.position = c.position
  report : d.report = c.report
  miss : d.miss = c.miss

theorem Channel.SameWork.place {c d : Channel} (h : c.SameWork d) : c.SamePlace d := ⟨h.position, h.report, h.miss⟩

theorem Part.settleAttempt_place : (p.chan o.channel).SamePlace ((p.settleAttempt l o).chan o.channel) := by
  cases h : o.isHalt with
  | true => rw [Part.settleAttempt_chan_halt p l o h]; exact ⟨rfl, rfl, rfl⟩
  | false => rw [Part.settleAttempt_chan_self p l o h]; exact (Channel.resumed_sameWork _ _ _).place

theorem Part.faultChannel_place (n : ChannelId) (f : FaultCode) : (p.chan n).SamePlace ((p.faultChannel n f).chan n) := by
  rw [Part.faultChannel_chan_self]; exact ⟨rfl, rfl, rfl⟩

theorem Part.enterFaulted_place (n : ChannelId) (f : FaultCode) : (p.chan n).SamePlace ((p.enterFaulted n f).chan n) := by
  rw [Part.enterFaulted_chan_self]; exact ⟨rfl, rfl, rfl⟩

theorem Part.orderFailed_place : (p.chan o.channel).SamePlace ((p.orderFailed l o f).chan o.channel) := by
  by_cases newer : o.isHalt = false ∧ (p.line l).queued o.channel ≠ none
  · rw [Part.orderFailed_newer p l o f newer.1 newer.2]
    exact p.settleAttempt_place l o
  · have none (h : o.isHalt = false) : (p.line l).queued o.channel = none := not_not.1 fun k => newer ⟨h, k⟩
    by_cases more : 1 < o.retriesLeft
    · rw [Part.orderFailed_retry p l o f none more]
      exact p.settleAttempt_place l { o with retriesLeft := o.retriesLeft - 1 }
    · cases h : o.isHalt with
      | false =>
        rw [Part.orderFailed_last p l o f h (none h) (by omega)]
        exact p.faultChannel_place _ _
      | true =>
        rw [Part.orderFailed_lastHalt p l o f h (by omega)]
        exact p.enterFaulted_place _ _

end

end Sys2Proof.Machine
end

section
/-! PROOF. O53: a reply settles its order, and a frame that answers nothing is recorded against its line (R104 to R106, R114,
R124). -/

namespace Sys2Proof.Machine

/-! ## A reply to the exchange in flight -/

/-- The part after a frame that answers the exchange in flight, before the Motion Unit takes the result. -/
def Part.answered (p : Part) (l : LineId) : Part := (p.frameSeen l).endExchange l (p.now + 2)

section
variable {p : Part} {l : LineId} {addr : BitVec 4} {kind : ExchangeKind} {o : Order} {sent : Nat}

theorem Line.awaiting_of_exchange {x : Line} (he : x.exchange = some ⟨kind, addr, some sent⟩) : x.awaiting addr = some kind := by
  rw [Line.awaiting, he]
  exact if_pos ⟨rfl, rfl⟩

theorem Part.frameSeen_awaiting (he : (p.line l).exchange = some ⟨kind, addr, some sent⟩) :
    ((p.frameSeen l).line l).awaiting addr = some kind :=
  Line.awaiting_of_exchange (by rw [Part.frameSeen_exchange, he])

theorem Part.answered_vacated {e : Exchange} (he : (p.line l).exchange = some e) :
    Part.Vacated l (p.now + 2) [] p (p.answered l) := (Part.Listened.frameSeen p l).vacated he _

theorem Part.answered_now (p : Part) (l : LineId) : (p.answered l).now = p.now := by
  obtain ⟨-, now, -⟩ := (p.frameSeen l).endExchange_rest l (p.now + 2)
  rw [Part.answered, now, Part.frameSeen_now]

variable (he : (p.line l).exchange = some ⟨.order o, addr, some sent⟩)
include he

theorem Part.answered_chan_of_order (n : ChannelId) : (p.answered l).chan n = p.chan n := by
  rw [Part.answered, Part.endExchange_of_order _ _ _ (by rw [Part.frameSeen_exchange, he]) rfl]
  exact p.frameSeen_chan l n

theorem Part.frameSeen_hearAccept : (p.frameSeen l).hearAccept l addr = (p.answered l).orderAccepted o := by
  rw [Part.hearAccept, Part.frameSeen_awaiting he, Part.frameSeen_now]; rfl

theorem Part.frameSeen_hearBusy : (p.frameSeen l).hearBusy l addr = (p.answered l).orderBusy l o := by
  rw [Part.hearBusy, Part.frameSeen_awaiting he, Part.frameSeen_now]; rfl

theorem Part.frameSeen_hearRefuse (reason : Byte) :
    (p.frameSeen l).hearRefuse l addr reason = (p.answered l).orderRefused o reason := by
  rw [Part.hearRefuse, Part.frameSeen_awaiting he, Part.frameSeen_now]; rfl

end

/-! ## The three replies to an order -/

section
variable (p : Part) (l : LineId) (o : Order) (reason : Byte)

theorem Part.MotionWork.orderAccepted : p.MotionWork (p.orderAccepted o) := by
  have cleared : p.MotionWork (p.clearMiss o.channel) := (Part.MotionWork.refl p).modChan _ _
  unfold Part.orderAccepted
  dsimp only
  split
  · exact (cleared.modChan _ _).setMotion _ _
  · exact cleared.enterFaulted _ _

theorem Part.MotionWork.orderBusy : p.MotionWork (p.orderBusy l o) :=
  ((Part.MotionWork.refl p).modChan _ _).settleAttempt l _

theorem Part.MotionWork.orderRefused : p.MotionWork (p.orderRefused o reason) := by
  have cleared : p.MotionWork (p.clearMiss o.channel) := (Part.MotionWork.refl p).modChan _ _
  unfold Part.orderRefused
  dsimp only
  split
  · exact cleared.faultChannel _ _
  · exact cleared.enterFaulted _ _

theorem Part.clearMiss_chan_self (n : ChannelId) : (p.clearMiss n).chan n = { p.chan n with miss := 0 } :=
  p.chan_modChan_self n _

theorem Part.orderAccepted_line (k : LineId) : (p.orderAccepted o).line k = p.line k := by
  unfold Part.orderAccepted
  dsimp only
  split <;> rfl

/-- R104: the record of a channel whose ORDER was accepted. -/
theorem Part.orderAccepted_chan_of_move {t : Nat} (hw : o.work = .move t) :
    (p.orderAccepted o).chan o.channel =
      ({ p.chan o.channel with miss := 0, accepted := some t } : Channel).enter p.now .moving := by
  rw [Part.orderAccepted, hw]
  dsimp only
  rw [Part.setMotion_chan_self, Part.chan_modChan_self, Part.clearMiss_chan_self]
  rfl

theorem Part.orderAccepted_of_halt {v : Nat} (hw : o.work = .halt v) :
    p.orderAccepted o = (p.clearMiss o.channel).enterFaulted o.channel (.travelTimeout v) := by
  rw [Part.orderAccepted, hw]

theorem Part.orderBusy_line (k : LineId) :
    (p.orderBusy l o).line k = if k = l then (p.line l).resumed { o with backoff := some p.now } else p.line k :=
  (p.clearMiss o.channel).settleAttempt_line l _ k

theorem Part.orderBusy_chan_of_move (h : o.isHalt = false) :
    ∃ stops, (p.orderBusy l o).chan o.channel = ({ p.chan o.channel with miss := 0 } : Channel).resumed p.now stops :=
  ⟨_, by rw [← Part.clearMiss_chan_self]
         exact (p.clearMiss o.channel).settleAttempt_chan_self l { o with backoff := some p.now } h⟩

theorem Part.orderBusy_chan_of_halt (h : o.isHalt = true) :
    (p.orderBusy l o).chan o.channel = { p.chan o.channel with miss := 0 } :=
  ((p.clearMiss o.channel).settleAttempt_chan_halt l { o with backoff := some p.now } h _).trans (p.clearMiss_chan_self _)

theorem Part.orderBusy_bank (b : BankId) : (p.orderBusy l o).bank b = p.bank b := by
  obtain ⟨banks, -⟩ := (p.clearMiss o.channel).settleAttempt_rest l { o with backoff := some p.now }
  rw [Part.bank, Part.orderBusy, banks]
  rfl

theorem Part.orderRefused_of_move (h : o.isHalt = false) :
    p.orderRefused o reason = (p.clearMiss o.channel).faultChannel o.channel (.refused reason) := by
  obtain ⟨t, hw⟩ := Order.work_of_move h
  rw [Part.orderRefused, hw]

theorem Part.orderRefused_of_halt (h : o.isHalt = true) :
    p.orderRefused o reason = (p.clearMiss o.channel).enterFaulted o.channel (.haltUnconfirmed o.retriesAtQueueing) := by
  obtain ⟨v, hw⟩ := Order.work_of_halt h
  rw [Part.orderRefused, hw]

/-- A reply clears the miss count and leaves position and report. -/
structure Channel.Replied (c d : Channel) : Prop where
  position : d.position = c.position
  report : d.report = c.report
  miss : d.miss = 0

theorem Channel.SamePlace.replied {c d : Channel} (h : ({ c with miss := 0 } : Channel).SamePlace d) : c.Replied d :=
  ⟨h.position, h.report, h.miss⟩

theorem Part.orderAccepted_replied : (p.chan o.channel).Replied ((p.orderAccepted o).chan o.channel) := by
  cases hw : o.work with
  | move t => rw [Part.orderAccepted_chan_of_move p o hw]; exact ⟨rfl, rfl, rfl⟩
  | halt v =>
    rw [Part.orderAccepted_of_halt p o hw]
    refine Channel.SamePlace.replied ?_
    rw [← Part.clearMiss_chan_self]
    exact Part.enterFaulted_place _ _ _

theorem Part.orderBusy_replied : (p.chan o.channel).Replied ((p.orderBusy l o).chan o.channel) := by
  refine Channel.SamePlace.replied ?_
  rw [← Part.clearMiss_chan_self]
  exact (p.clearMiss o.channel).settleAttempt_place l { o with backoff := some p.now }

theorem Part.orderRefused_replied : (p.chan o.channel).Replied ((p.orderRefused o reason).chan o.channel) := by
  refine Channel.SamePlace.replied ?_
  rw [← Part.clearMiss_chan_self]
  cases h : o.isHalt with
  | false => rw [Part.orderRefused_of_move p o reason h]; exact Part.faultChannel_place _ _ _
  | true => rw [Part.orderRefused_of_halt p o reason h]; exact Part.enterFaulted_place _ _ _

end

/-! ## The event of a reply -/

/-- R114, R116: the channel has become FAULTED, with the code in its record and in the CHANNEL bank. -/
def State.FaultedWith (s t : State) (n : ChannelId) (f : FaultCode) : Prop :=
  (t.part.chan n).motion = .faulted ∧ (t.part.chan n).fault = some f ∧
    t.part.bank .channel = ((s.part.bank .channel).take (faultedRecord n (s.part.chan n) f)).count

section
variable {s : State} {act : Part → Part} {n : ChannelId} {f : FaultCode} {q : Part}
  (chan : ruledSeverity (q.chan n) = ruledSeverity (s.part.chan n)) (bank : q.bank .channel = s.part.bank .channel)
include chan bank

theorem State.event_enterFaulted (eq : act s.part = q.enterFaulted n f) : s.FaultedWith (s.event act) n f := by
  refine ⟨?_, ?_, ?_⟩
  · rw [State.event_chan, eq, Part.enterFaulted_chan_self]; rfl
  · rw [State.event_chan, eq, Part.enterFaulted_chan_self]; rfl
  · rw [State.event_bank, eq, Part.enterFaulted_bank, if_pos rfl, bank, faultedRecord, chan]; rfl

theorem State.event_faultChannel (eq : act s.part = q.faultChannel n f) :
    s.FaultedWith (s.event act) n f ∧ ((s.event act).part.chan n).accepted = none ∧
      ((s.event act).part.chan n).travel = none ∧ ((s.event act).part.chan n).shortMark = false := by
  rw [State.event_chan, eq, Part.faultChannel_chan_self]
  refine ⟨⟨?_, ?_, ?_⟩, rfl, rfl, rfl⟩
  · rw [State.event_chan, eq, Part.faultChannel_chan_self]; rfl
  · rw [State.event_chan, eq, Part.faultChannel_chan_self]; rfl
  · rw [State.event_bank, eq, Part.faultChannel_bank, if_pos rfl, bank, faultedRecord, chan]; rfl

end

section
variable {s : State} {l : LineId} {addr : BitVec 4} {o : Order} {sent : Nat}
  (he : (s.part.line l).exchange = some ⟨.order o, addr, some sent⟩)
include he

/-- What every reply to an order has in common. -/
theorem State.event_replied {act : Part → Part} (work : (s.part.answered l).MotionWork (act s.part))
    (only : (s.part.answered l).OnlyChan o.channel (act s.part))
    (replied : ((s.part.answered l).chan o.channel).Replied ((act s.part).chan o.channel)) :
    ((s.event act).part.line l).exchange = none ∧ ((s.event act).part.line l).freeAt = s.part.now + 2 ∧
      ((s.event act).part.chan o.channel).miss = 0 ∧
      ((s.event act).part.chan o.channel).position = (s.part.chan o.channel).position ∧
      ((s.event act).part.chan o.channel).report = (s.part.chan o.channel).report ∧
      (∀ n, n ≠ o.channel → (s.event act).part.chan n = s.part.chan n) ∧ s.part.SameBanksBut (s.event act).part .channel ∧
      s.part.SameNotices (s.event act).part := by
  have vacated := Part.answered_vacated he
  obtain ⟨exchange, freeAt, -, banks⟩ := State.event_vacated vacated (work.line l) work.bank
  rw [Part.answered_chan_of_order he] at replied
  refine ⟨exchange, freeAt, ?_, ?_, ?_, fun n hn => ?_, banks rfl, ?_⟩
  · rw [State.event_chan]; exact replied.miss
  · rw [State.event_chan]; exact replied.position
  · rw [State.event_chan]; exact replied.report
  · rw [State.event_chan, only n hn, Part.answered_chan_of_order he]
  · exact ⟨(s.event_notices act).trans (work.notices.1.trans vacated.notices.1),
      (s.event_noticeAcks act).trans (work.notices.2.trans vacated.notices.2)⟩

theorem State.answered_clearMiss (n : ChannelId) :
    ruledSeverity (((s.part.answered l).clearMiss n).chan n) = ruledSeverity (s.part.chan n) ∧
      ((s.part.answered l).clearMiss n).bank .channel = s.part.bank .channel := by
  refine ⟨?_, (Part.answered_vacated he).bank_channel⟩
  rw [Part.clearMiss_chan_self, Part.answered_chan_of_order he]
  rfl

end

/-- R103, R105: the queue after an order re-entered with a change that keeps its work, its channel and its class. -/
theorem Line.SameQueue.resumed {x y : Line} (h : x.SameQueue y) (o : Order) :
    (y.resumed o).urgent = (x.resumed o).urgent ∧ (y.resumed o).routine = (x.resumed o).routine := by
  have queued : y.queued o.channel = x.queued o.channel := by rw [Line.queued, h.urgent, h.routine]; rfl
  unfold Line.resumed
  rw [queued]
  simp only [apply_ite Line.urgent, apply_ite Line.routine, Line.reenter_urgent, Line.reenter_routine, h.urgent, h.routine,
    and_self]

theorem isStation_of_ne {addr : BitVec 4} (notE : addr ≠ 14) (notF : addr ≠ 15) : isStation addr = false := by
  rw [isStation, decide_eq_false notE, decide_eq_false notF]
  rfl

/-! ## The obligation -/

/-- Settles O53: the reply ends the exchange, and each of the three replies is an equation of the Motion Unit; a frame that
answers nothing is heard with nothing in flight. -/
theorem repliesSettleTheirOrder : Obligations.RepliesSettleTheirOrder := by
  intro s l addr reason came good z k first heard x
  constructor
  case left =>
    intro o sent he a ends faulted
    have vacated := Part.answered_vacated he
    have chan := Part.answered_chan_of_order he o.channel
    have now := s.part.answered_now l
    have banks : s.part.SameBanks (s.part.answered l) := fun b => by
      rw [vacated.bank]
      split
      next e => rw [e]; rfl
      next => rfl
    obtain ⟨severity, bank⟩ := State.answered_clearMiss he o.channel
    refine ⟨⟨_, rfl, ?accepted⟩, ⟨_, rfl, ?busy⟩, _, rfl, ?refused⟩
    case accepted =>
      generalize hact : (fun q : Part => (q.frameSeen l).hearAccept l addr) = act
      have eq : act s.part = (s.part.answered l).orderAccepted o := by rw [← hact]; exact Part.frameSeen_hearAccept he
      obtain ⟨urgent, routine, -⟩ := s.event_line_fields act l
      have line := eq ▸ (s.part.answered l).orderAccepted_line o l
      refine ⟨State.event_replied he ?_ ?_ ?_, ?_, ?_, fun t hw => ?moving, fun v hw => ?confirmed⟩
      · rw [eq]; exact .orderAccepted _ o
      · rw [eq]; exact (Part.OnlyChan.refl _).orderAccepted o
      · rw [eq]; exact Part.orderAccepted_replied _ o
      · rw [urgent, line]; exact (vacated.queue l).urgent
      · rw [routine, line]; exact (vacated.queue l).routine
      case moving =>
        rw [State.event_chan, eq, Part.orderAccepted_chan_of_move _ o hw, chan]
        exact ⟨rfl, rfl, rfl, rfl⟩
      case confirmed =>
        exact State.event_enterFaulted severity bank (eq.trans (Part.orderAccepted_of_halt _ o hw))
    case busy =>
      generalize hact : (fun q : Part => (q.frameSeen l).hearBusy l addr) = act
      have eq : act s.part = (s.part.answered l).orderBusy l o := by rw [← hact]; exact Part.frameSeen_hearBusy he
      obtain ⟨urgent, routine, -⟩ := s.event_line_fields act l
      obtain ⟨urgentQueue, routineQueue⟩ := (vacated.queue l).resumed { o with backoff := some s.part.now }
      have line : (act s.part).line l = ((s.part.answered l).line l).resumed { o with backoff := some s.part.now } := by
        rw [eq, Part.orderBusy_line, if_pos rfl, now]
      replace urgent := urgent.trans ((congrArg Line.urgent line).trans urgentQueue)
      replace routine := routine.trans ((congrArg Line.routine line).trans routineQueue)
      refine ⟨State.event_replied he ?_ ?_ ?_, fun b => ?_, fun h alone => ?reentered, fun h newer => ?dropped, fun h => ?resumed,
        fun h => ?halting⟩
      · rw [eq]; exact .orderBusy _ l o
      · rw [eq]; exact (Part.OnlyChan.refl _).orderBusy l o
      · rw [eq]; exact Part.orderBusy_replied _ l o
      · rw [State.event_bank, eq, Part.orderBusy_bank]; exact banks b
      case reentered =>
        rw [urgent, routine, Line.resumed_last _ { o with backoff := some s.part.now } h alone, Line.reenter_urgent,
          Line.reenter_routine]
        exact ⟨rfl, rfl⟩
      case dropped =>
        rw [urgent, routine, Line.resumed_newer _ { o with backoff := some s.part.now } h newer]
        exact ⟨rfl, rfl⟩
      case resumed =>
        obtain ⟨stops, record⟩ := (s.part.answered l).orderBusy_chan_of_move l o h
        rw [State.event_chan, eq, record, chan, Channel.resumed_motion]
      case halting =>
        obtain ⟨urgentHalt, routineHalt⟩ := (s.part.line l).resumed_halt { o with backoff := some s.part.now } h
        rw [State.event_chan, eq, Part.orderBusy_chan_of_halt _ l o h, chan]
        exact ⟨urgent.trans urgentHalt, routine.trans routineHalt, rfl⟩
    case refused =>
      generalize hact : (fun q : Part => (q.frameSeen l).hearRefuse l addr reason) = act
      have eq : act s.part = (s.part.answered l).orderRefused o reason := by
        rw [← hact]; exact Part.frameSeen_hearRefuse he reason
      refine ⟨State.event_replied he ?_ ?_ ?_, fun h => ?faulted, fun h => ?unconfirmed⟩
      · rw [eq]; exact .orderRefused _ o reason
      · rw [eq]; exact (Part.OnlyChan.refl _).orderRefused o reason
      · rw [eq]; exact Part.orderRefused_replied _ o reason
      case faulted => exact State.event_faultChannel severity bank (eq.trans (Part.orderRefused_of_move _ o reason h))
      case unconfirmed => exact State.event_enterFaulted severity bank (eq.trans (Part.orderRefused_of_halt _ o reason h))
  case right =>
    intro free on c kind row
    have idle (a : BitVec 4) (k : ExchangeKind) : x.awaiting a ≠ some k := by
      rw [Line.awaiting, free]; exact nofun
    have recorded {c : Instr} {k : Heard} (heardAs : HeardAs x l c k) (hk : kind = failureKind (heardFailure k)) :=
      hk ▸ exec_heardFree on free heardAs
    rcases row with ⟨rfl | rfl | rfl, hk⟩ | ⟨rfl, found | ⟨a, received, found⟩, hk⟩ | ⟨rfl, hk⟩ | ⟨rfl, notE, notF, hk⟩
    · exact recorded (.accept fun o => idle _ _) hk
    · exact recorded (.busy fun o => idle _ _) hk
    · exact recorded (.refuse reason fun o => idle _ _) hk
    · exact recorded (.damaged found) hk
    · exact recorded (.damagedEcho found fun bytes d => idle _ _) hk
    · refine recorded (.echo came good fun bytes d => idle _ _) (hk.trans ?_)
      split <;> rfl
    · exact recorded (.key z k first (isStation_of_ne notE notF)) hk

end Sys2Proof.Machine
end

section
/-! PROOF. O51: a failed transaction counts against its channel (R103, R107, R112, R114, R123). -/

namespace Sys2Proof.Machine

/-! ## A failed QUERY (R112) -/

/-- The query miss count goes up by 1, to at most 3. -/
def Channel.countMiss (c : Channel) : Channel := { c with miss := min (c.miss + 1) 3 }

/-- R112: the record of a channel whose QUERY failed. -/
def Channel.missed (c : Channel) (now : Nat) : Channel :=
  match c.motion with
  | .halting | .unused | .ordering => c
  | .offline => c.countMiss
  | .faulted => if c.miss + 1 = 3 then { c.countMiss with position := none, report := none } else c.countMiss
  | .idle | .queued | .moving => if 3 ≤ c.miss + 1 then c.countMiss.wentOffline now else c.countMiss

/-- The states in which the third miss takes a channel OFFLINE. -/
def Motion.losable (m : Motion) : Prop := m = .idle ∨ m = .queued ∨ m = .moving

section
variable (c : Channel) (now : Nat)

theorem Channel.missed_of_losable (h : c.motion.losable) :
    c.missed now =
      if 3 ≤ c.miss + 1 then c.countMiss.wentOffline now
      else c.countMiss := by
  unfold Channel.missed
  rcases h with h | h | h <;> rw [h]

theorem Channel.missed_of_faulted (h : c.motion = .faulted) :
    c.missed now =
      if c.miss + 1 = 3 then { c.countMiss with position := none, report := none }
      else c.countMiss := by
  unfold Channel.missed
  rw [h]

theorem Channel.missed_of_offline (h : c.motion = .offline) : c.missed now = c.countMiss := by
  unfold Channel.missed
  rw [h]

theorem Channel.missed_of_other (h : c.motion = .halting ∨ c.motion = .unused ∨ c.motion = .ordering) : c.missed now = c := by
  unfold Channel.missed
  rcases h with h | h | h <;> rw [h]

/-- A channel keeps its state, or becomes OFFLINE. -/
theorem Channel.missed_cases :
    ∃ k position report,
      c.missed now = { c with miss := k, position := position, report := report } ∨
        c.missed now = ({ c with miss := k } : Channel).wentOffline now := by
  unfold Channel.missed
  dsimp only
  split
  iterate 3 exact ⟨_, _, _, .inl rfl⟩
  · exact ⟨_, _, _, .inl rfl⟩
  · split <;> exact ⟨_, _, _, .inl rfl⟩
  all_goals
    split
    · exact ⟨_, none, none, .inr rfl⟩
    · exact ⟨_, _, _, .inl rfl⟩

theorem Channel.missed_fault : (c.missed now).fault = c.fault := by
  obtain ⟨k, position, report, h | h⟩ := c.missed_cases now
  · rw [h]
  · rw [h]; rfl

theorem Channel.queried_fields (poll : Bool) :
    (c.queried poll now).motion = c.motion ∧ (c.queried poll now).travel = c.travel ∧
      (c.queried poll now).supFrom = (if supervised c.motion then some now else none) ∧ (c.queried poll now).supDue = false ∧
      ruledSeverity (c.queried poll now) = ruledSeverity c := by
  cases poll <;> exact ⟨rfl, rfl, rfl, rfl, rfl⟩

theorem Channel.queried_sameWork (poll : Bool) : c.SameWork (c.queried poll now) := by
  cases poll <;> exact ⟨rfl, rfl, rfl, rfl, rfl, rfl, rfl⟩

/-- R132: the supervision of a channel whose QUERY has failed starts again at the end of the exchange. -/
theorem Channel.missed_supervision (poll : Bool) (h : supervised ((c.queried poll now).missed now).motion = true) :
    ((c.queried poll now).missed now).supFrom = some now ∧ ((c.queried poll now).missed now).supDue = false := by
  obtain ⟨motion, -, supFrom, supDue, -⟩ := c.queried_fields now poll
  obtain ⟨k, position, report, eq | eq⟩ := (c.queried poll now).missed_cases now
  · rw [eq] at h ⊢
    refine ⟨?_, supDue⟩
    rw [← motion, if_pos h] at supFrom
    exact supFrom
  · rw [eq]
    constructor
    · show (if supervised (c.queried poll now).motion = true then (c.queried poll now).supFrom else some now) = some now
      rw [motion, supFrom]
      split <;> rfl
    · simp only [Channel.wentOffline, Channel.enter, supDue, Bool.and_false]

end

section
variable (p : Part) (n : ChannelId)

theorem Part.queryMissed_of_losable (h : (p.chan n).motion.losable) :
    p.queryMissed n =
      if 3 ≤ (p.chan n).miss + 1 then (p.modChan n Channel.countMiss).goOffline n else p.modChan n Channel.countMiss := by
  rcases h with h | h | h <;> simp only [Part.queryMissed, h, saturate_eq_min] <;> rfl

theorem Part.queryMissed_of_faulted (h : (p.chan n).motion = .faulted) :
    p.queryMissed n =
      if (p.chan n).miss + 1 = 3 then (p.modChan n Channel.countMiss).forgetPosition n else p.modChan n Channel.countMiss := by
  simp only [Part.queryMissed, h, saturate_eq_min]
  rfl

theorem Part.queryMissed_of_offline (h : (p.chan n).motion = .offline) : p.queryMissed n = p.modChan n Channel.countMiss := by
  simp only [Part.queryMissed, h, saturate_eq_min]
  rfl

theorem Part.queryMissed_of_other
    (h : (p.chan n).motion = .halting ∨ (p.chan n).motion = .unused ∨ (p.chan n).motion = .ordering) : p.queryMissed n = p := by
  rcases h with h | h | h <;> simp only [Part.queryMissed, h]

theorem Part.queryMissed_chan_self : (p.queryMissed n).chan n = (p.chan n).missed p.now := by
  have other (h : (p.chan n).motion = .halting ∨ (p.chan n).motion = .unused ∨ (p.chan n).motion = .ordering) :
      (p.queryMissed n).chan n = (p.chan n).missed p.now := by
    rw [p.queryMissed_of_other n h, Channel.missed_of_other _ _ h]
  have losable (h : (p.chan n).motion.losable) : (p.queryMissed n).chan n = (p.chan n).missed p.now := by
    rw [p.queryMissed_of_losable n h, Channel.missed_of_losable _ _ h]
    split
    · rw [Part.goOffline_chan_self, Part.chan_modChan_self]; rfl
    · rw [Part.chan_modChan_self]
  cases h : (p.chan n).motion with
  | idle => exact losable (.inl h)
  | queued => exact losable (.inr (.inl h))
  | moving => exact losable (.inr (.inr h))
  | halting => exact other (.inl h)
  | unused => exact other (.inr (.inl h))
  | ordering => exact other (.inr (.inr h))
  | offline => rw [p.queryMissed_of_offline n h, Channel.missed_of_offline _ _ h, Part.chan_modChan_self]
  | faulted =>
    rw [p.queryMissed_of_faulted n h, Channel.missed_of_faulted _ _ h]
    split
    · rw [Part.forgetPosition, Part.chan_modChan_self, Part.chan_modChan_self]
    · rw [Part.chan_modChan_self]

theorem Part.queryMissed_now : (p.queryMissed n).now = p.now := by
  unfold Part.queryMissed
  dsimp only
  split
  iterate 4 rfl
  all_goals split <;> rfl

/-- The third miss is recorded in the CHANNEL bank. -/
theorem Part.queryMissed_bank (h : (p.chan n).motion.losable) (last : 3 ≤ (p.chan n).miss + 1) :
    (p.queryMissed n).bank .channel = ((p.bank .channel).take (offlineRecord n (p.chan n))).count := by
  have record : offlineRecord n ((p.modChan n Channel.countMiss).chan n) = offlineRecord n (p.chan n) := by
    rw [Part.chan_modChan_self]; rfl
  rw [p.queryMissed_of_losable n h, if_pos last, Part.goOffline_bank, if_pos rfl, record]
  rfl

end

end Sys2Proof.Machine
end
section
namespace Sys2Proof.Machine

/-! ## A transaction that fails -/

/-- A row ends the exchange in flight as a failure, at an instant, the line being free from another. -/
def State.Fails (s : State) (l : LineId) (c : Instr) (f : Failure) (at' free : Nat) : Prop :=
  ∃ act q, exec c s = .next (s.event act) ∧ Part.Listened l s.part q ∧ q.now = at' ∧ act s.part = q.failExchange l f free

section
variable {s : State} {l : LineId} {e : Exchange} {sent : Nat} (he : (s.part.line l).exchange = some e)
  (hs : e.sentAt = some sent) (transaction : ∀ bytes d, e.kind ≠ .test bytes d)
include he hs transaction

theorem State.fails_of_heardAs (on : (s.part.line l).state ≠ .disabled) {c : Instr} {k : Heard}
    (row : HeardAs (s.part.line l) l c k) : s.Fails l c (heardFailure k) s.part.now (s.part.now + 2) := by
  have sentAt : ∀ d, (s.part.line l).exchange = some d → d.sentAt ≠ none := fun d hd => by
    rw [he] at hd
    rw [← Option.some.inj hd, hs]
    exact Option.some_ne_none sent
  obtain ⟨act, q, next, listened, now, eq⟩ := exec_heardAs on sentAt row
  refine ⟨act, q, next, listened, now, eq.trans ?_⟩
  rw [Part.hearOther_transaction (by rwa [listened.state]) (listened.exchange.trans he) hs transaction, now]

theorem State.fails_of_timeout :
    s.Fails l (.replyTimeout l) .replyTimeout (max s.part.now (sent + 10)) (max s.part.now (sent + 10)) := by
  refine ⟨_, _, rfl, .advanceTo s.part l (sent + 10), rfl, ?_⟩
  rw [Part.timeOut, he]
  dsimp only
  rw [hs]
  cases hk : e.kind with
  | order o => rfl
  | query n poll => rfl
  | test bytes d => exact absurd hk (transaction bytes d)

end

/-- The notice of a failed transaction (R123). -/
def failureRecord (f : Failure) (n : ChannelId) : ErrorRecord := ⟨.notice, failureKind f, some (.channel n), none⟩

section
variable {p q : Part} {l : LineId} {e : Exchange} (h : Part.Listened l p q) (he : (p.line l).exchange = some e) (f : Failure)
  (free : Nat)
include h he

theorem Part.Listened.failExchange_of_order {o : Order} (hk : e.kind = .order o) :
    ∃ r, Part.Vacated l free [failureRecord f o.channel] p r ∧ r.now = q.now ∧ (∀ n, r.chan n = p.chan n) ∧
      q.failExchange l f free = r.orderFailed l o f := by
  have hq := h.exchange.trans he
  obtain ⟨-, now, -⟩ := q.endExchange_rest l free
  refine ⟨(q.endExchange l free).record (.line l) (failureRecord f o.channel), (h.vacated he free).record _, now, fun n => ?_, ?_⟩
  · rw [Part.record_chan, Part.endExchange_of_order _ _ _ hq hk]
    exact h.chan n
  · rw [Part.failExchange, hq]
    dsimp only
    rw [hk]
    rfl

theorem Part.Listened.failExchange_of_query {n : ChannelId} {poll : Bool} (hk : e.kind = .query n poll) :
    ∃ r, Part.Vacated l free [failureRecord f n] p r ∧ r.now = q.now ∧
      (∀ m, r.chan m = if m = n then (p.chan m).queried poll q.now else p.chan m) ∧
      q.failExchange l f free = r.queryMissed n := by
  have hq := h.exchange.trans he
  obtain ⟨-, now, -⟩ := q.endExchange_rest l free
  refine ⟨(q.endExchange l free).record (.line l) (failureRecord f n), (h.vacated he free).record _, now, fun m => ?_, ?_⟩
  · rw [Part.record_chan, Part.endExchange_chan_of_query hq hk, h.chan]
  · rw [Part.failExchange, hq]
    dsimp only
    rw [hk]
    rfl

end

end Sys2Proof.Machine
end

section
/-! PROOF. O51: a failed transaction counts against its channel (R103, R107, R112, R114, R123). -/

namespace Sys2Proof.Machine

/-! ## The event of a failed order -/

section
variable {s : State} {act : Part → Part} {l : LineId} {o : Order} {f : Failure} {r : Part} {free : Nat}
  {errors : List ErrorRecord} (vacated : Part.Vacated l free errors s.part r)
  (chan : ∀ n, r.chan n = s.part.chan n) (eq : act s.part = r.orderFailed l o f)
include vacated chan eq

/-- R103: the queue and the record of the channel after an attempt that is settled, for an order that keeps its work. -/
theorem State.event_settled {again : Order} (settled : r.orderFailed l o f = r.settleAttempt l again)
    (name : again.channel = o.channel) (h : again.isHalt = false) :
    ((s.event act).part.line l).urgent = ((s.part.line l).resumed again).urgent ∧
      ((s.event act).part.line l).routine = ((s.part.line l).resumed again).routine ∧
      (s.event act).part.chan o.channel = (s.part.chan o.channel).resumed r.now
        (decide ((s.part.line l).queued o.channel ≠ none ∨ again.sent = false)) := by
  obtain ⟨urgent, routine, -⟩ := s.event_line_fields act l
  obtain ⟨urgentQueue, routineQueue⟩ := (vacated.queue l).resumed again
  have line : (act s.part).line l = (r.line l).resumed again := by
    rw [eq, settled, Part.settleAttempt_line, if_pos rfl]
  refine ⟨urgent.trans ((congrArg Line.urgent line).trans urgentQueue),
    routine.trans ((congrArg Line.routine line).trans routineQueue), ?_⟩
  rw [State.event_chan, eq, settled, ← name, Part.settleAttempt_chan_self r l again h, chan, vacated.queued]

theorem State.event_orderFailed_newer (h : o.isHalt = false) (newer : (s.part.line l).queued o.channel ≠ none) :
    let a := s.part.chan o.channel
    let b := (s.event act).part.chan o.channel
    ((s.event act).part.line l).urgent = (s.part.line l).urgent ∧
      ((s.event act).part.line l).routine = (s.part.line l).routine ∧ b.fault = a.fault ∧
      b.motion = (if a.accepted = none then .queued else .moving) ∧
      b.travel = (if a.accepted = none then none else a.travel) := by
  intro a b
  have settled := r.orderFailed_newer l o f h (by rwa [vacated.queued])
  obtain ⟨urgent, routine, record⟩ := State.event_settled vacated chan eq settled rfl h
  rw [Line.resumed_newer _ o h newer] at urgent routine
  refine ⟨urgent, routine, ?_, ?_, ?_⟩
  · rw [show b = _ from record]; exact (Channel.resumed_sameWork _ _ _).fault
  · rw [show b = _ from record]; exact Channel.resumed_motion _ _ _
  · rw [show b = _ from record, Channel.resumed_travel]
    simp [newer, a]

theorem State.event_orderFailed_retry (h : o.isHalt = false) (alone : (s.part.line l).queued o.channel = none)
    (more : 1 < o.retriesLeft) :
    let a := s.part.chan o.channel
    let b := (s.event act).part.chan o.channel
    let again : Order := { o with retriesLeft := o.retriesLeft - 1 }
    ((s.event act).part.line l).urgent = (if o.cls = .urgent then again :: (s.part.line l).urgent else (s.part.line l).urgent) ∧
      ((s.event act).part.line l).routine =
        (if o.cls = .routine then again :: (s.part.line l).routine else (s.part.line l).routine) ∧
      b.fault = a.fault ∧ b.motion = (if a.accepted = none then .queued else .moving) ∧
      b.travel = (if a.accepted = none ∧ o.sent = false then none else a.travel) := by
  intro a b again
  have settled := r.orderFailed_retry l o f (fun _ => by rwa [vacated.queued]) more
  obtain ⟨urgent, routine, record⟩ := State.event_settled vacated chan eq settled rfl h
  have entered := Line.resumed_last (s.part.line l) again h alone
  refine ⟨?_, ?_, ?_, ?_, ?_⟩
  · rw [urgent, entered, Line.reenter_urgent]
  · rw [routine, entered, Line.reenter_routine]
  · rw [show b = _ from record]; exact (Channel.resumed_sameWork _ _ _).fault
  · rw [show b = _ from record]; exact Channel.resumed_motion _ _ _
  · rw [show b = _ from record, Channel.resumed_travel]
    simp [alone, a]

theorem State.event_orderFailed_last (h : o.isHalt = false) (alone : (s.part.line l).queued o.channel = none)
    (last : o.retriesLeft ≤ 1) :
    s.FaultedWith (s.event act) o.channel (f.code o.retriesAtQueueing) ∧
      ((s.event act).part.chan o.channel).accepted = none ∧ ((s.event act).part.chan o.channel).travel = none ∧
      ((s.event act).part.chan o.channel).shortMark = false :=
  State.event_faultChannel (by rw [chan]) vacated.bank_channel
    (eq.trans (r.orderFailed_last l o f h (by rwa [vacated.queued]) last))

theorem State.event_orderFailed_retryHalt (h : o.isHalt = true) (more : 1 < o.retriesLeft) :
    ((s.event act).part.line l).urgent =
        { o with cls := .urgent, retriesLeft := o.retriesLeft - 1 } :: (s.part.line l).urgent ∧
      ((s.event act).part.line l).routine = (s.part.line l).routine ∧
      (s.event act).part.chan o.channel = s.part.chan o.channel := by
  obtain ⟨urgent, routine, -⟩ := s.event_line_fields act l
  have settled := eq.trans (r.orderFailed_retry l o f (fun move => by rw [h] at move; exact nomatch move) more)
  have line : (act s.part).line l = (r.line l).resumed { o with retriesLeft := o.retriesLeft - 1 } := by
    rw [settled, Part.settleAttempt_line, if_pos rfl]
  obtain ⟨urgentHalt, routineHalt⟩ := (r.line l).resumed_halt { o with retriesLeft := o.retriesLeft - 1 } h
  refine ⟨?_, ?_, ?_⟩
  · rw [urgent, line, urgentHalt, (vacated.queue l).urgent]
  · rw [routine, line, routineHalt, (vacated.queue l).routine]
  · rw [State.event_chan, settled, ← chan]
    exact r.settleAttempt_chan_halt l { o with retriesLeft := o.retriesLeft - 1 } h _

theorem State.event_orderFailed_lastHalt (h : o.isHalt = true) (last : o.retriesLeft ≤ 1) :
    ((s.event act).part.line l).urgent = (s.part.line l).urgent ∧
      ((s.event act).part.line l).routine = (s.part.line l).routine ∧
      s.FaultedWith (s.event act) o.channel (.haltUnconfirmed o.retriesAtQueueing) := by
  obtain ⟨urgent, routine, -⟩ := s.event_line_fields act l
  have faulted := eq.trans (r.orderFailed_lastHalt l o f h last)
  refine ⟨?_, ?_, State.event_enterFaulted (by rw [chan]) vacated.bank_channel faulted⟩
  · rw [urgent, faulted, Part.enterFaulted_line, (vacated.queue l).urgent]
  · rw [routine, faulted, Part.enterFaulted_line, (vacated.queue l).routine]

omit vacated in
theorem State.event_orderFailed_place :
    (s.part.chan o.channel).SamePlace ((s.event act).part.chan o.channel) ∧
      ∀ n, n ≠ o.channel → (s.event act).part.chan n = s.part.chan n := by
  refine ⟨?_, fun n hn => ?_⟩
  · rw [State.event_chan, eq, ← chan]; exact r.orderFailed_place l o f
  · rw [State.event_chan, eq, (Part.OnlyChan.refl r).orderFailed l o f n hn, chan]

end

/-! ## The event of a failed QUERY -/

/-- What a failed QUERY makes of its channel (R112, R132). -/
theorem State.event_queryMissed {s : State} {act : Part → Part} {n : ChannelId} {poll : Bool} {r : Part}
    (chan : ∀ m, r.chan m = if m = n then (s.part.chan m).queried poll r.now else s.part.chan m)
    (bank : r.bank .channel = s.part.bank .channel) (eq : act s.part = r.queryMissed n) :
    (s.event act).part.chan n = ((s.part.chan n).queried poll r.now).missed r.now ∧
      ((s.part.chan n).motion.losable → 3 ≤ (s.part.chan n).miss + 1 →
        (s.event act).part.bank .channel =
          ((s.part.bank .channel).take (offlineRecord n (s.part.chan n))).count) ∧
      ∀ m, m ≠ n → (s.event act).part.chan m = s.part.chan m := by
  have own := (chan n).trans (if_pos rfl)
  obtain ⟨motion, -, -, -, severity⟩ := (s.part.chan n).queried_fields r.now poll
  have miss := ((s.part.chan n).queried_sameWork r.now poll).miss
  refine ⟨?_, fun losable last => ?_, fun m hm => ?_⟩
  · rw [State.event_chan, eq, Part.queryMissed_chan_self, own]
  · have lost := r.queryMissed_bank n (by rwa [own, motion]) (by rwa [own, miss])
    rw [State.event_bank, eq, lost, bank, own, offlineRecord, severity]
    rfl
  · rw [State.event_chan, eq, (Part.OnlyChan.refl r).queryMissed m hm, chan, if_neg hm]

section
variable {c : Channel} {now : Nat} (poll : Bool)

theorem Channel.queried_missed_kept (h : c.motion.losable) (more : c.miss + 1 < 3) :
    let d := (c.queried poll now).missed now
    d.miss = min (c.miss + 1) 3 ∧ d.motion = c.motion ∧ d.position = c.position ∧ d.report = c.report ∧
      d.accepted = c.accepted ∧ d.travel = c.travel := by
  intro d
  obtain ⟨motion, travel, -⟩ := c.queried_fields now poll
  have work := c.queried_sameWork now poll
  have eq : d = (c.queried poll now).countMiss := by
    rw [show d = _ from Channel.missed_of_losable _ now (by rwa [motion]), if_neg (by rw [work.miss]; omega)]
  rw [eq]
  exact ⟨congrArg (fun k => min (k + 1) 3) work.miss, motion, work.position, work.report, work.accepted, travel⟩

theorem Channel.queried_missed_lost (h : c.motion.losable) (last : 3 ≤ c.miss + 1) :
    let d := (c.queried poll now).missed now
    d.miss = min (c.miss + 1) 3 ∧ d.motion = .offline ∧ d.position = none ∧ d.report = none ∧ d.accepted = none ∧
      d.travel = none ∧ d.shortMark = false := by
  intro d
  obtain ⟨motion, -⟩ := c.queried_fields now poll
  have miss := (c.queried_sameWork now poll).miss
  have eq : d = (c.queried poll now).countMiss.wentOffline now := by
    rw [show d = _ from Channel.missed_of_losable _ now (by rwa [motion]), if_pos (by rwa [miss])]
  rw [eq]
  exact ⟨congrArg (fun k => min (k + 1) 3) miss, rfl, rfl, rfl, rfl, rfl, rfl⟩

theorem Channel.queried_missed_faulted (h : c.motion = .faulted) :
    let d := (c.queried poll now).missed now
    d.motion = .faulted ∧ d.miss = min (c.miss + 1) 3 ∧ (c.miss = 2 → d.position = none ∧ d.report = none) ∧
      (c.miss ≠ 2 → d.position = c.position ∧ d.report = c.report) := by
  intro d
  obtain ⟨motion, -⟩ := c.queried_fields now poll
  have work := c.queried_sameWork now poll
  have count := congrArg (fun k => min (k + 1) 3) work.miss
  have eq := Channel.missed_of_faulted (c.queried poll now) now (motion.trans h)
  by_cases last : c.miss + 1 = 3
  · rw [if_pos (by rwa [work.miss])] at eq
    rw [show d = _ from eq]
    exact ⟨motion.trans h, count, fun _ => ⟨rfl, rfl⟩, fun k => absurd last (by omega)⟩
  · rw [if_neg (by rwa [work.miss])] at eq
    rw [show d = _ from eq]
    exact ⟨motion.trans h, count, fun k => absurd k (by omega), fun _ => ⟨work.position, work.report⟩⟩

theorem Channel.queried_missed_offline (h : c.motion = .offline) :
    let d := (c.queried poll now).missed now
    d.motion = .offline ∧ d.miss = min (c.miss + 1) 3 := by
  intro d
  obtain ⟨motion, -⟩ := c.queried_fields now poll
  rw [show d = _ from Channel.missed_of_offline _ now (motion.trans h)]
  exact ⟨motion.trans h, congrArg (fun k => min (k + 1) 3) (c.queried_sameWork now poll).miss⟩

theorem Channel.queried_missed_halting (h : c.motion = .halting) :
    let d := (c.queried poll now).missed now
    d.motion = .halting ∧ d.miss = c.miss := by
  intro d
  obtain ⟨motion, -⟩ := c.queried_fields now poll
  rw [show d = _ from Channel.missed_of_other _ now (.inl (motion.trans h))]
  exact ⟨motion.trans h, (c.queried_sameWork now poll).miss⟩

end

/-! ## The obligation -/

/-- Every row that fails a transaction, with the kind it is recorded under. -/
theorem State.fails_of_row {s : State} {l : LineId} {e : Exchange} {sent : Nat} {c : Instr} {kind : ErrorKind} {at' free : Nat}
    {a : BitVec 4} {p : Word} {m f r z k : Byte} {came : List Byte} {good first : Bool} {heard : Reception}
    (he : (s.part.line l).exchange = some e) (hs : e.sentAt = some sent) (on : (s.part.line l).state ≠ .disabled)
    (transaction : ∀ bytes d, e.kind ≠ .test bytes d)
    (row : c = .replyTimeout l ∧ kind = .replyTimeout ∧ at' = max s.part.now (sent + 10) ∧ free = at' ∨
      (c = .damagedFrame l heard ∧ Damaged (s.part.line l).receiver heard ∧ kind = .checkError ∨
        c = .status l a p m f ∧ m.extractLsb' 0 2 = 3 ∧ kind = .checkError ∨
        c = .status l a p m f ∧ m.extractLsb' 0 2 ≠ 3 ∧ (a ≠ e.node ∨ ∃ o, e.kind = .order o ∧ o.isHalt = false) ∧
          kind = .unexpectedFrame ∨
        (c = .accept l a ∨ c = .busy l a ∨ c = .refuse l a r) ∧ (a ≠ e.node ∨ ∃ n poll, e.kind = .query n poll) ∧
          kind = .unexpectedFrame ∨
        c = .testEcho l a came good ∧
          kind = (if came.length = 8 ∧ good = true then .unexpectedFrame else .checkError) ∨
        c = .key l a z k first ∧ a ≠ 14 ∧ a ≠ 15 ∧ kind = .unexpectedFrame) ∧ at' = s.part.now ∧ free = at' + 2) :
    ∃ failure, kind = failureKind failure ∧ s.Fails l c failure at' free := by
  have awaited {x : BitVec 4} {k : ExchangeKind} (h : (s.part.line l).awaiting x = some k) : x = e.node ∧ e.kind = k := by
    rw [Line.awaiting, he] at h
    obtain ⟨⟨-, node⟩, eq⟩ := Option.ite_none_right_eq_some.1 h
    exact ⟨node.symm, Option.some.inj eq⟩
  have untested (x : BitVec 4) (bytes : Pattern) (d : Bool) : (s.part.line l).awaiting x ≠ some (.test bytes d) :=
    fun h => transaction bytes d (awaited h).2
  rcases row with ⟨rfl, rfl, rfl, rfl⟩ | ⟨row, rfl, rfl⟩
  · exact ⟨.replyTimeout, rfl, State.fails_of_timeout he hs transaction⟩
  · have failing {c : Instr} {k : Heard} (heardAs : HeardAs (s.part.line l) l c k) (hk : kind = failureKind (heardFailure k)) :
        ∃ failure, kind = failureKind failure ∧ s.Fails l c failure s.part.now (s.part.now + 2) :=
      ⟨_, hk, State.fails_of_heardAs he hs transaction on heardAs⟩
    rcases row with ⟨rfl, found | ⟨x, received, found⟩, hk⟩ | ⟨rfl, bad, hk⟩ | ⟨rfl, whole, other, hk⟩ |
      ⟨reply, other, hk⟩ | ⟨rfl, hk⟩ | ⟨rfl, notE, notF, hk⟩
    · exact failing (.damaged found) hk
    · exact failing (.damagedEcho found (untested _)) hk
    · exact failing (.badStatus a p f bad) hk
    · refine failing (.status p f whole (fun n poll h => ?_) fun o h => ?_) hk
      · obtain ⟨node, query⟩ := awaited h
        rcases other with other | ⟨o, order, -⟩
        · exact other node
        · exact ExchangeKind.noConfusion (query.symm.trans order)
      · obtain ⟨node, order⟩ := awaited h
        rcases other with other | ⟨o', order', move⟩
        · exact absurd node other
        · exact ExchangeKind.order.inj (order.symm.trans order') ▸ move
    · have unordered (o : Order) : (s.part.line l).awaiting a ≠ some (.order o) := fun h => by
        obtain ⟨node, order⟩ := awaited h
        rcases other with other | ⟨n, poll, query⟩
        · exact other node
        · exact ExchangeKind.noConfusion (query.symm.trans order)
      rcases reply with rfl | rfl | rfl
      · exact failing (.accept unordered) hk
      · exact failing (.busy unordered) hk
      · exact failing (.refuse r unordered) hk
    · refine failing (.echo came good (untested a)) (hk.trans ?_)
      split <;> rfl
    · exact failing (.key z k first (isStation_of_ne notE notF)) hk

theorem Failure.code_eq (f : Failure) (retries : Nat) :
    f.code retries = if failureKind f = .checkError then .checkError retries else .noResponse retries := by
  cases f <;> rfl

/-- Settles O51: every such row ends the exchange as a failure, and an ORDER, a HALT and a QUERY each take it their way. -/
theorem failedTransactionCountsAgainstItsChannel : Obligations.FailedTransactionCountsAgainstItsChannel := by
  intro s l e sent c kind at' free a p m f r z k came good first heard x he hs on row transaction
  obtain ⟨failure, hkind, act, q, next, listened, now, eq⟩ := State.fails_of_row he hs on transaction row
  subst hkind now
  cases hk : e.kind with
  | test bytes d => exact absurd hk (transaction bytes d)
  | order o =>
    obtain ⟨r, vacated, now, chan, failed⟩ := listened.failExchange_of_order he failure free hk
    replace eq := eq.trans failed
    have work : r.MotionWork (act s.part) := eq ▸ (Part.MotionWork.refl r).orderFailed l o failure
    obtain ⟨exchange, freeAt, bank, -⟩ := State.event_vacated vacated (work.line l) work.bank
    obtain ⟨place, others⟩ := State.event_orderFailed_place chan eq
    refine ⟨_, next, exchange, freeAt, ?_, ?_, fun n poll query => ExchangeKind.noConfusion query⟩
    · rw [State.event_now, eq, ← now]; exact r.orderFailed_now l o failure
    rintro o' ⟨⟩
    refine ⟨bank, fun h newer => State.event_orderFailed_newer vacated chan eq h newer,
      fun h alone more => State.event_orderFailed_retry vacated chan eq h alone more, fun h alone last => ?_,
      fun h more => State.event_orderFailed_retryHalt vacated chan eq h more, fun h last => ?_, place.position, place.report,
      place.miss, others⟩
    · obtain ⟨⟨motion, fault, recorded⟩, accepted, travel, mark⟩ := State.event_orderFailed_last vacated chan eq h alone last
      rw [Failure.code_eq] at fault recorded
      exact ⟨motion, accepted, travel, mark, fault, recorded⟩
    · exact State.event_orderFailed_lastHalt vacated chan eq h last
  | query n poll =>
    obtain ⟨r, vacated, now, chan, failed⟩ := listened.failExchange_of_query he failure free hk
    replace eq := eq.trans failed
    rw [← now] at chan ⊢
    have work : r.MotionWork (act s.part) := eq ▸ (Part.MotionWork.refl r).queryMissed n
    obtain ⟨exchange, freeAt, bank, -⟩ := State.event_vacated vacated (work.line l) work.bank
    obtain ⟨record, lost, others⟩ := State.event_queryMissed chan vacated.bank_channel eq
    refine ⟨_, next, exchange, freeAt, ?_, fun o order => ExchangeKind.noConfusion order, ?_⟩
    · rw [State.event_now, eq]; exact r.queryMissed_now n
    rintro n' poll' ⟨⟩
    dsimp only
    rw [record]
    refine ⟨bank, ?_, fun losable => ?_, Channel.queried_missed_faulted poll, Channel.queried_missed_offline poll,
      Channel.queried_missed_halting poll, fun supervised => ?_, others⟩
    · rw [Channel.missed_fault]; exact ((s.part.chan n).queried_sameWork r.now poll).fault
    · by_cases last : 3 ≤ (s.part.chan n).miss + 1
      · obtain ⟨miss, motion, position, report, accepted, travel, mark⟩ :=
          Channel.queried_missed_lost (now := r.now) poll losable last
        exact ⟨miss, fun more => absurd last (by omega), fun _ =>
          ⟨motion, position, report, accepted, travel, mark, lost losable last⟩⟩
      · obtain ⟨miss, kept⟩ := Channel.queried_missed_kept (now := r.now) poll losable (by omega)
        exact ⟨miss, fun _ => kept, fun k => absurd k last⟩
    · refine Channel.missed_supervision _ _ _ ?_
      rcases supervised with h | h | h | h <;> rw [h] <;> rfl

end Sys2Proof.Machine
end

section
/-! PROOF. O59: a loss of arbitration counts no failure (R103, R127, R143). -/

namespace Sys2Proof.Machine

/-! ## The retake -/

/-- The retake of a line to which one is offered: its state takes it or not (R127). -/
def Line.retakeAfter (x : Line) (r : Option Retake) : Option Retake :=
  match r with
  | some r => if x.state = .run ∨ x.state = .quieting ∧ r.inQuieting = true then some r else x.retake
  | none => x.retake

theorem Line.retakeAfter_of_run {x : Line} (h : x.state = .run) (r : Retake) : x.retakeAfter (some r) = some r := if_pos (.inl h)

theorem Line.retakeAfter_of_quieting {x : Line} (h : x.state = .quieting) {r : Retake} (hr : r.inQuieting = true) :
    x.retakeAfter (some r) = some r := if_pos (.inr ⟨h, hr⟩)

/-- A retake is offered to the line, or none is. -/
def Part.offerRetake (p : Part) (l : LineId) (r : Option Retake) : Part :=
  match r with
  | some r => p.setRetake l r
  | none => p

section
variable (p : Part) (l : LineId) (r : Option Retake)

theorem Part.offerRetake_line (k : LineId) :
    (p.offerRetake l r).line k = if k = l then { p.line l with retake := (p.line l).retakeAfter r } else p.line k := by
  have same : p.line k = if k = l then p.line l else p.line k := by
    split
    next e => rw [e]
    next => rfl
  cases r with
  | none => exact same
  | some r =>
    have written : (p.modLine l fun x => { x with retake := some r }).line k =
        if k = l then { p.line l with retake := some r } else p.line k := p.line_modLine l k _
    rw [Part.offerRetake, Line.retakeAfter]
    unfold Part.setRetake
    cases hs : (p.line l).state with
    | run => simpa using written
    | quieting =>
      cases hr : r.inQuieting with
      | true => simpa using written
      | false => simpa using same
    | _ => simpa using same

theorem Part.offerRetake_rest :
    (p.offerRetake l r).chans = p.chans ∧ (p.offerRetake l r).banks = p.banks ∧ (p.offerRetake l r).now = p.now ∧
      p.SameNotices (p.offerRetake l r) := by
  cases r with
  | none => exact ⟨rfl, rfl, rfl, rfl, rfl⟩
  | some r =>
    have cases : p.setRetake l r = p ∨ p.setRetake l r = p.modLine l fun x => { x with retake := some r } := by
      unfold Part.setRetake
      split
      · exact .inr rfl
      · split
        · exact .inr rfl
        · exact .inl rfl
      all_goals exact .inl rfl
    rw [Part.offerRetake]
    rcases cases with eq | eq <;> rw [eq] <;> exact ⟨rfl, rfl, rfl, rfl, rfl⟩

end

/-- The retake that a lost order leaves: itself, unless a newer one has replaced it (R127). -/
def Line.retakeOf (x : Line) (o : Order) : Option Retake :=
  if o.isHalt then some (.halt o.channel) else if x.queued o.channel = none then some (.move o.channel) else none

/-- The retake that a lost QUERY leaves: itself, while its channel is still polled or supervised (R127). -/
def Channel.retakeOf (c : Channel) (n : ChannelId) (poll : Bool) : Option Retake :=
  if poll then (if c.motion = .moving then some (.poll n) else none)
  else if supervised c.motion then some (.supervise n) else none

section
variable (p : Part) (l : LineId)

theorem Part.loseOrder_eq (o : Order) :
    p.loseOrder l o = ((p.modLine l fun x => x.lose p.now).settleAttempt l o).offerRetake l ((p.line l).retakeOf o) := by
  unfold Part.loseOrder Line.retakeOf
  cases o.isHalt with
  | true => rfl
  | false => cases (p.line l).queued o.channel <;> rfl

theorem Part.loseQuery_eq (n : ChannelId) (poll : Bool) :
    p.loseQuery l n poll =
      ((p.modLine l fun x => x.lose p.now).modChan n fun c => c.restartSupervision p.now).offerRetake l
        ((p.chan n).retakeOf n poll) := by
  unfold Part.loseQuery Channel.retakeOf
  cases poll with
  | true => by_cases h : (p.chan n).motion = .moving <;> simp only [h, if_true, if_false] <;> rfl
  | false => by_cases h : supervised (p.chan n).motion = true <;> simp only [h] <;> rfl

end

/-! ## The frame of an exchange lost -/

/-- A line that gave way to another sender, with a queue, a retake and a test. -/
def Line.yielded (x : Line) (now : Nat) (queue : Line) (retake : Option Retake) (test : LineTest) : Line :=
  { x.lose now with urgent := queue.urgent, routine := queue.routine, retake := retake, test := test }

/-- The loss of an exchange's frame: its line gave way and its bank took the record, and no other line or bank changed. -/
structure Part.Yielded (l : LineId) (subject : Subject) (queue : Line) (retake : Option Retake) (test : LineTest)
    (p q : Part) : Prop where
  line : q.line l = (p.line l).yielded p.now queue retake test
  other : ∀ k, k ≠ l → q.line k = p.line k
  bank : ∀ b, q.bank b = if b = .line l then ((p.bank (.line l)).take (lostRecord subject)).count else p.bank b
  notices : p.SameNotices q
  now : q.now = p.now

/-- What an attempt of an order changes of a line. -/
theorem Line.resumed_eq (x : Line) (o : Order) :
    x.resumed o = { x with urgent := (x.resumed o).urgent, routine := (x.resumed o).routine } := by
  unfold Line.resumed
  split
  · rfl
  · split
    · unfold Line.reenter; split <;> rfl
    · rfl

section
variable (p : Part) (l : LineId)

theorem Part.lose_line (k : LineId) :
    (p.modLine l fun x => x.lose p.now).line k = if k = l then (p.line l).lose p.now else p.line k := p.line_modLine l k _

/-- The line lost its frame, its bank took the record, and the retake is offered last. -/
theorem Part.Yielded.of_offer {subject : Subject} {queue : Line} {q : Part}
    (line : ∀ k, q.line k =
      if k = l then { (p.line l).lose p.now with urgent := queue.urgent, routine := queue.routine } else p.line k)
    (banks : q.banks = (p.record (.line l) (lostRecord subject)).banks) (notices : p.SameNotices q) (now : q.now = p.now)
    (r : Option Retake) :
    Part.Yielded l subject queue ((p.line l).retakeAfter r) (p.line l).test p (q.offerRetake l r) := by
  obtain ⟨-, offerBanks, offerNow, offerNotices⟩ := q.offerRetake_rest l r
  refine ⟨?_, fun k hk => ?_, fun b => ?_, ⟨offerNotices.1.trans notices.1, offerNotices.2.trans notices.2⟩, offerNow.trans now⟩
  · rw [Part.offerRetake_line, if_pos rfl, line, if_pos rfl]
    rfl
  · rw [Part.offerRetake_line, if_neg hk, line, if_neg hk]
  · rw [Part.bank, offerBanks, banks]
    exact Part.bank_record _ _ _ _

theorem Part.loseOrder_yielded (o : Order) :
    Part.Yielded l (.channel o.channel) ((p.line l).resumed o) ((p.line l).retakeAfter ((p.line l).retakeOf o)) (p.line l).test p
      ((p.record (.line l) (lostRecord (.channel o.channel))).loseOrder l o) := by
  rw [Part.loseOrder_eq]
  generalize hq : (p.record (.line l) (lostRecord (.channel o.channel))) = q
  have lines (k : LineId) : q.line k = p.line k := by rw [← hq]; rfl
  have now : q.now = p.now := by rw [← hq]; rfl
  obtain ⟨banks, settledNow, notices⟩ := (q.modLine l fun x => x.lose q.now).settleAttempt_rest l o
  rw [lines]
  refine .of_offer p l (fun k => ?_) (banks.trans ?_) ?_ (settledNow.trans now) _
  · rw [Part.settleAttempt_line, Part.lose_line, Part.lose_line, if_pos rfl, lines, lines, now]
    split
    · obtain ⟨urgent, routine⟩ := (Line.SameQueue.mk (x := p.line l) (y := (p.line l).lose p.now) rfl rfl).resumed o
      rw [Line.resumed_eq, urgent, routine]
    · rfl
  · rw [← hq]; rfl
  · rw [← hq] at notices ⊢; exact notices

theorem Part.loseOrder_chan (o : Order) (n : ChannelId) :
    ((p.record (.line l) (lostRecord (.channel o.channel))).loseOrder l o).chan n =
      if n = o.channel ∧ o.isHalt = false then
        (p.chan n).resumed p.now (decide ((p.line l).queued o.channel ≠ none ∨ o.sent = false))
      else p.chan n := by
  rw [Part.loseOrder_eq]
  generalize hq : (p.record (.line l) (lostRecord (.channel o.channel))) = q
  have now : q.now = p.now := by rw [← hq]; rfl
  have chan (m : ChannelId) : (q.modLine l fun x => x.lose q.now).chan m = p.chan m := by rw [← hq]; rfl
  have queued : ((q.modLine l fun x => x.lose q.now).line l).queued o.channel = (p.line l).queued o.channel := by
    rw [Part.lose_line, if_pos rfl, ← hq]; rfl
  obtain ⟨chans, -⟩ := ((q.modLine l fun x => x.lose q.now).settleAttempt l o).offerRetake_rest l ((q.line l).retakeOf o)
  rw [Part.chan, chans]
  change ((q.modLine l fun x => x.lose q.now).settleAttempt l o).chan n = _
  split
  next own =>
    obtain ⟨rfl, h⟩ := own
    rw [Part.settleAttempt_chan_self _ l o h, chan, queued, ← now]
    rfl
  next other =>
    cases h : o.isHalt with
    | true => rw [Part.settleAttempt_chan_halt _ l o h, chan]
    | false => rw [Part.settleAttempt_onlyChan _ l o n fun e => other ⟨e, h⟩, chan]

theorem Part.loseQuery_yielded (n : ChannelId) (poll : Bool) :
    Part.Yielded l (.channel n) (p.line l) ((p.line l).retakeAfter ((p.chan n).retakeOf n poll)) (p.line l).test p
      ((p.record (.line l) (lostRecord (.channel n))).loseQuery l n poll) := by
  rw [Part.loseQuery_eq]
  refine .of_offer p l (fun k => ?_) ?_ ?_ ?_ _
  · exact p.lose_line l k
  · rfl
  · exact ⟨rfl, rfl⟩
  · rfl

theorem Part.loseQuery_chan (n : ChannelId) (poll : Bool) (m : ChannelId) :
    ((p.record (.line l) (lostRecord (.channel n))).loseQuery l n poll).chan m =
      if m = n then (p.chan n).restartSupervision p.now else p.chan m := by
  rw [Part.loseQuery_eq, Part.chan, (Part.offerRetake_rest _ l _).1]
  exact Part.chan_modChan _ n m _

/-- The bytes that came back of a test frame before the loss (R143). -/
def bytesBeforeLoss (back : Pattern) : LossPlace → List Byte
  | .lead => []
  | .pattern i => back.toList.take i.val
  | .crc => back.toList

theorem backBeforeLoss_eq (back : Pattern) (place : LossPlace) :
    backBeforeLoss back place = (bytesBeforeLoss back place).map some := by
  cases place <;> rfl

/-- The test of a line whose test frame lost arbitration. -/
def LineTest.afterLoss (x : LineTest) (bytes : Pattern) (discarded : Bool) (place : LossPlace) (back : Pattern) : LineTest :=
  if place = .lead ∨ discarded = true then x
  else x.countFrame (mismatches bytes.toList ((bytesBeforeLoss back place).map some))

theorem Part.loseTest_yielded (bytes : Pattern) (discarded : Bool) (place : LossPlace) (back : Pattern) :
    Part.Yielded l (.line l) (p.line l) (p.line l).retake ((p.line l).test.afterLoss bytes discarded place back) p
        ((p.record (.line l) (lostRecord (.line l))).loseTest l bytes discarded place back) ∧
      p.SameChans ((p.record (.line l) (lostRecord (.line l))).loseTest l bytes discarded place back) := by
  generalize hq : (p.record (.line l) (lostRecord (.line l))).modLine l (fun x => x.lose p.now) = q
  have line (k : LineId) : q.line k = if k = l then (p.line l).lose p.now else p.line k := by
    rw [← hq]; exact Part.lose_line _ l k
  have kept : Part.Yielded l (.line l) (p.line l) (p.line l).retake (p.line l).test p q := by
    refine ⟨?_, fun k hk => ?_, fun b => ?_, ?_, ?_⟩
    · rw [line, if_pos rfl]; rfl
    · rw [line, if_neg hk]
    · rw [← hq]; exact Part.bank_record _ _ _ _
    · rw [← hq]; exact ⟨rfl, rfl⟩
    · rw [← hq]; rfl
  have chan : p.SameChans q := fun n => by rw [← hq]; rfl
  have frame (h : place ≠ .lead) :
      (p.record (.line l) (lostRecord (.line l))).loseTest l bytes discarded place back =
        q.countFrame l bytes discarded ((bytesBeforeLoss back place).map some) := by
    rw [← backBeforeLoss_eq, ← hq]
    cases place with
    | lead => exact absurd rfl h
    | pattern i => rfl
    | crc => rfl
  by_cases lead : place = .lead
  · subst lead
    have lost : (p.record (.line l) (lostRecord (.line l))).loseTest l bytes discarded .lead back = q := hq
    rw [LineTest.afterLoss, if_pos (.inl rfl), lost]
    exact ⟨kept, chan⟩
  · rw [frame lead, Part.countFrame, LineTest.afterLoss]
    cases discarded with
    | true => simpa using ⟨kept, chan⟩
    | false =>
      rw [if_neg Bool.false_ne_true, if_neg (by simp [lead])]
      refine ⟨⟨?_, fun k hk => ?_, kept.bank, kept.notices, kept.now⟩, chan⟩
      · rw [Part.line_modTest, if_pos rfl, kept.line]; rfl
      · rw [Part.line_modTest, if_neg hk, kept.other k hk]

end

/-! ## The event of a loss -/

section
variable (p : Part) (l : LineId) (place : LossPlace) (back : Pattern) {e : Exchange} (he : (p.line l).exchange = some e)
include he

theorem Part.loseArbitration_of_sent (hs : e.sentAt ≠ none) : p.loseArbitration l place back = p := by
  obtain ⟨t, ht⟩ := Option.ne_none_iff_exists'.1 hs
  simp only [Part.loseArbitration, he, ht]

variable (hs : e.sentAt = none)
include hs

theorem Part.loseArbitration_of_order {o : Order} (hk : e.kind = .order o) :
    p.loseArbitration l place back = (p.record (.line l) (lostRecord (.channel o.channel))).loseOrder l o := by
  simp only [Part.loseArbitration, he, hs, hk]

theorem Part.loseArbitration_of_query {n : ChannelId} {poll : Bool} (hk : e.kind = .query n poll) :
    p.loseArbitration l place back = (p.record (.line l) (lostRecord (.channel n))).loseQuery l n poll := by
  simp only [Part.loseArbitration, he, hs, hk]

theorem Part.loseArbitration_of_test {bytes : Pattern} {discarded : Bool} (hk : e.kind = .test bytes discarded) :
    p.loseArbitration l place back = (p.record (.line l) (lostRecord (.line l))).loseTest l bytes discarded place back := by
  simp only [Part.loseArbitration, he, hs, hk]

end

/-- The line of the lost frame at the end of the event. -/
structure Line.GaveWay (x y : Line) (now : Nat) (queue : Line) (retake : Option Retake) (test : LineTest) : Prop where
  exchange : y.exchange = none
  freeAt : y.freeAt = now + 2
  receiving : y.receiving = true
  receiver : y.receiver = .looking
  rest : x.state ≠ .quieting → { y with
    exchange := x.exchange, freeAt := x.freeAt, receiving := x.receiving, receiver := x.receiver, urgent := x.urgent,
    routine := x.routine, retake := x.retake, test := x.test } = x
  urgent : y.urgent = queue.urgent
  routine : y.routine = queue.routine
  test : y.test = test
  retake : x.state ≠ .quieting ∨ y.state = .quieting → y.retake = retake

/-- Quieting complete may follow on the line, and leaves all but its state and what goes with that. -/
theorem State.event_gaveWay {s : State} {act : Part → Part} {l : LineId} {subject : Subject} {queue : Line}
    {retake : Option Retake} {test : LineTest} (h : Part.Yielded l subject queue retake test s.part (act s.part)) :
    (s.part.line l).GaveWay ((s.event act).part.line l) s.part.now queue retake test := by
  have yielded (y : Line) (eq : y = (s.part.line l).yielded s.part.now queue retake test) :
      (s.part.line l).GaveWay y s.part.now queue retake test := by
    subst eq
    exact ⟨rfl, rfl, rfl, rfl, fun _ => rfl, rfl, rfl, rfl, fun _ => rfl⟩
  rw [State.event_part, Part.line_completeQuieting]
  split
  next rest =>
    have quieting : (s.part.line l).state = .quieting := by rw [h.line] at rest; exact rest.1
    rw [h.line]
    exact ⟨rfl, rfl, rfl, rfl, fun k => absurd quieting k, rfl, rfl, rfl,
      fun k => k.elim (absurd quieting) LineState.noConfusion⟩
  next => exact yielded _ h.line

/-- R127: on a loss of an exchange's frame, what the obligation says besides the channel. -/
theorem State.event_yielded {s : State} {act : Part → Part} {l : LineId} {subject : Subject} {queue : Line}
    {retake : Option Retake} {test : LineTest} (h : Part.Yielded l subject queue retake test s.part (act s.part)) :
    (s.event act).part.bank (.line l) = ((s.part.bank (.line l)).take (lostRecord subject)).count ∧
      (∀ k, k ≠ l → (s.part.line k).state ≠ .quieting → (s.event act).part.line k = s.part.line k) ∧
      s.part.SameBanksBut (s.event act).part (.line l) ∧ s.part.SameNotices (s.event act).part ∧
      (s.event act).part.now = s.part.now := by
  refine ⟨?_, s.event_otherLines act h.other, fun b hb => ?_,
    ⟨(s.event_notices act).trans h.notices.1, (s.event_noticeAcks act).trans h.notices.2⟩, (s.event_now act).trans h.now⟩
  · rw [State.event_bank, h.bank, if_pos rfl]
  · rw [State.event_bank, h.bank, if_neg hb]

/-- An exchange's frame lost before its end leaves its line to the other sender. -/
theorem Part.loseArbitration_yielded (p : Part) (l : LineId) (place : LossPlace) (back : Pattern) {e : Exchange}
    (he : (p.line l).exchange = some e) (hs : e.sentAt = none) :
    ∃ subject queue retake test, Part.Yielded l subject queue retake test p (p.loseArbitration l place back) := by
  cases hk : e.kind with
  | order o => rw [p.loseArbitration_of_order l place back he hs hk]; exact ⟨_, _, _, _, p.loseOrder_yielded l o⟩
  | query n poll => rw [p.loseArbitration_of_query l place back he hs hk]; exact ⟨_, _, _, _, p.loseQuery_yielded l n poll⟩
  | test bytes discarded =>
    rw [p.loseArbitration_of_test l place back he hs hk]
    exact ⟨_, _, _, _, (p.loseTest_yielded l bytes discarded place back).1⟩

/-- R127: the frame of an answer lost before its end. -/
theorem Part.loseArbitration_of_answer {p : Part} {l : LineId} {a : Answer} (place : LossPlace) (back : Pattern)
    (free : (p.line l).exchange = none) (ha : (p.line l).answer = some a) :
    p.loseArbitration l place back =
      (p.record (.line l) (lostRecord (.line l))).modLine l fun x => { x.yield with answer := none } := by
  simp only [Part.loseArbitration, free, ha]
  rfl

theorem Part.loseArbitration_of_nothing {p : Part} {l : LineId} (place : LossPlace) (back : Pattern)
    (free : (p.line l).exchange = none) (ha : (p.line l).answer = none) : p.loseArbitration l place back = p := by
  simp only [Part.loseArbitration, free, ha]
  rfl

/-- An act that changes nothing leaves only quieting complete to the event. -/
theorem State.event_nothing {s : State} {act : Part → Part} (h : act s.part = s.part) :
    (s.part.SameChans (s.event act).part ∧ s.part.SameLines (s.event act).part ∧ s.part.SameBanks (s.event act).part) ∧
      s.part.SameNotices (s.event act).part ∧ (s.event act).part.now = s.part.now := by
  refine ⟨⟨s.event_sameChans act fun n => by rw [h], s.event_sameLines act fun l => by rw [h], fun b => ?_⟩, ⟨?_, ?_⟩, ?_⟩
  · rw [State.event_bank, h]
  · rw [State.event_notices, h]
  · rw [State.event_noticeAcks, h]
  · rw [State.event_now, h]

section
variable {x y : Line} {now : Nat} {test : LineTest}

/-- The queue and the retake after the loss of an ORDER that no newer one replaces. -/
theorem Line.GaveWay.move {o : Order} (h : x.GaveWay y now (x.resumed o) (x.retakeAfter (x.retakeOf o)) test)
    (move : o.isHalt = false) (alone : x.queued o.channel = none) :
    y.urgent = (if o.cls = .urgent then o :: x.urgent else x.urgent) ∧
      y.routine = (if o.cls = .routine then o :: x.routine else x.routine) ∧
      (x.state = .run → y.retake = some (.move o.channel)) := by
  refine ⟨?_, ?_, fun run => ?_⟩
  · rw [h.urgent, Line.resumed_last x o move alone, Line.reenter_urgent]
  · rw [h.routine, Line.resumed_last x o move alone, Line.reenter_routine]
  · rw [h.retake (.inl (by rw [run]; exact LineState.noConfusion)), Line.retakeOf, if_neg (by simp [move]), if_pos alone,
      Line.retakeAfter_of_run run]

/-- A retake that QUIETING also takes. -/
theorem Line.GaveWay.retake_inQuieting {queue : Line} {r : Retake} (h : x.GaveWay y now queue (x.retakeAfter (some r)) test)
    (hr : r.inQuieting = true) (takes : x.state = .run ∨ x.state = .quieting ∧ y.state = .quieting) : y.retake = some r := by
  rcases takes with run | ⟨quieting, still⟩
  · rw [h.retake (.inl (by rw [run]; exact LineState.noConfusion)), Line.retakeAfter_of_run run]
  · rw [h.retake (.inr still), Line.retakeAfter_of_quieting quieting hr]

end

/-- The counts of a test after a loss past the lead byte of a frame of its own (R143). -/
theorem LineTest.afterLoss_counted (x : LineTest) (bytes : Pattern) {place : LossPlace} (back : Pattern) (lead : place ≠ .lead) :
    x.Counted (x.afterLoss bytes false place back) bytes (bytesBeforeLoss back place) := by
  rw [LineTest.afterLoss, if_neg (by simp [lead])]
  exact LineTest.countFrame_counted x bytes _

/-! ## The obligation -/

/-- R103: the channel of a lost ORDER. -/
theorem Channel.resumed_lost (c : Channel) (now : Nat) (newer : Prop) [Decidable newer] (sent : Bool) :
    let b := c.resumed now (decide (newer ∨ sent = false))
    b.motion = (if c.accepted = none then .queued else .moving) ∧
      b.travel = (if c.accepted = none ∧ (newer ∨ sent = false) then none else c.travel) ∧ b.accepted = c.accepted ∧
      b.miss = c.miss ∧ b.shortMark = c.shortMark ∧ b.fault = c.fault := by
  intro b
  have work := c.resumed_sameWork now (decide (newer ∨ sent = false))
  refine ⟨Channel.resumed_motion _ _ _, ?_, work.accepted, work.miss, Channel.resumed_shortMark _ _ _, work.fault⟩
  rw [show b.travel = _ from Channel.resumed_travel _ _ _]
  simp only [decide_eq_true_iff]

section
variable {s : State} {act : Part → Part} {l : LineId} {place : LossPlace} {back : Pattern}
  (loss : act s.part = s.part.loseArbitration l place back)

theorem State.lostAnswer {a : Answer} (free : (s.part.line l).exchange = none) (ha : (s.part.line l).answer = some a)
    (loss : act s.part = s.part.loseArbitration l place back) :
    let x := s.part.line l
    let y := (s.event act).part.line l
    ((s.event act).part.bank (.line l) = ((s.part.bank (.line l)).take (lostRecord (.line l))).count ∧
      s.part.SameChans (s.event act).part ∧ y.answer = none ∧ y.receiving = true ∧ y.test = x.test ∧
      (x.state ≠ .quieting → y = { x with answer := none, receiving := true, receiver := .looking })) ∧
    (∀ k, k ≠ l → (s.part.line k).state ≠ .quieting → (s.event act).part.line k = s.part.line k) ∧
    s.part.SameBanksBut (s.event act).part (.line l) ∧ s.part.SameNotices (s.event act).part ∧
    (s.event act).part.now = s.part.now := by
  intro x y
  replace loss := loss.trans (Part.loseArbitration_of_answer place back free ha)
  have line (k : LineId) : (act s.part).line k =
      if k = l then { x with answer := none, receiving := true, receiver := .looking } else s.part.line k := by
    rw [loss, Part.line_modLine]
    rfl
  have own := (line l).trans (if_pos rfl)
  have bank (b : BankId) : (act s.part).bank b =
      if b = .line l then ((s.part.bank (.line l)).take (lostRecord (.line l))).count else s.part.bank b := by
    rw [loss]
    exact Part.bank_record _ _ _ _
  obtain ⟨answer, receiving, test⟩ := s.event_line_heard act l
  refine ⟨⟨?_, s.event_sameChans act fun n => by rw [loss]; rfl, ?_, ?_, ?_, fun run => ?_⟩,
    s.event_otherLines act fun k hk => by rw [line, if_neg hk], fun b hb => ?_, ⟨?_, ?_⟩, ?_⟩
  · rw [State.event_bank, bank, if_pos rfl]
  · rw [answer, own]
  · rw [receiving, own]
  · rw [test, own]
  · rw [← own]; exact State.event_line _ _ _ (by rw [own]; exact run)
  · rw [State.event_bank, bank, if_neg hb]
  · rw [State.event_notices, loss]; rfl
  · rw [State.event_noticeAcks, loss]; rfl
  · rw [State.event_now, loss]; rfl

variable {e : Exchange} (he : (s.part.line l).exchange = some e) (hs : e.sentAt = none)
include he hs loss

theorem State.lostOrder {o : Order} (hk : e.kind = .order o) :
    let x := s.part.line l
    let y := (s.event act).part.line l
    let a := s.part.chan o.channel
    let b := (s.event act).part.chan o.channel
    (s.event act).part.bank (.line l) = ((s.part.bank (.line l)).take (lostRecord (.channel o.channel))).count ∧
      y.test = x.test ∧ (∀ n : ChannelId, n ≠ o.channel → (s.event act).part.chan n = s.part.chan n) ∧
      (o.isHalt = false → x.queued o.channel = none →
        y.urgent = (if o.cls = .urgent then o :: x.urgent else x.urgent) ∧
        y.routine = (if o.cls = .routine then o :: x.routine else x.routine) ∧
        (x.state = .run → y.retake = some (.move o.channel))) ∧
      (o.isHalt = false → x.queued o.channel ≠ none → y.urgent = x.urgent ∧ y.routine = x.routine) ∧
      (o.isHalt = false → b.motion = (if a.accepted = none then .queued else .moving) ∧
        b.travel = (if a.accepted = none ∧ (x.queued o.channel ≠ none ∨ o.sent = false) then none else a.travel) ∧
        b.accepted = a.accepted ∧ b.miss = a.miss ∧ b.shortMark = a.shortMark ∧ b.fault = a.fault) ∧
      (o.isHalt = true → y.urgent = { o with cls := .urgent } :: x.urgent ∧ y.routine = x.routine ∧ b = a ∧
        (x.state = .run ∨ (x.state = .quieting ∧ y.state = .quieting) → y.retake = some (.halt o.channel))) := by
  intro x y a b
  have eq := loss.trans (s.part.loseArbitration_of_order l place back he hs hk)
  have chan (n : ChannelId) := (congrArg (Part.chan · n) eq).trans (s.part.loseOrder_chan l o n)
  have yielded := eq ▸ s.part.loseOrder_yielded l o
  have gave := State.event_gaveWay yielded
  obtain ⟨lost, -⟩ := State.event_yielded yielded
  refine ⟨lost, gave.test, fun n hn => ?_, gave.move, fun move newer => ?_, fun move => ?_, fun halt => ?_⟩
  · rw [State.event_chan]
    exact (chan n).trans (if_neg fun k => hn k.1)
  · rw [gave.urgent, gave.routine, Line.resumed_newer _ o move newer]
    exact ⟨rfl, rfl⟩
  · have record := (s.event_chan act o.channel).trans ((chan o.channel).trans (if_pos ⟨rfl, move⟩))
    rw [show b = _ from record]
    exact Channel.resumed_lost _ _ _ _
  · obtain ⟨urgent, routine⟩ := x.resumed_halt o halt
    refine ⟨gave.urgent.trans urgent, gave.routine.trans routine, ?_, fun takes => ?_⟩
    · exact (s.event_chan act o.channel).trans ((chan o.channel).trans (if_neg (by simp [halt])))
    · rw [Line.retakeOf, if_pos halt] at gave
      exact gave.retake_inQuieting rfl takes

theorem State.lostQuery {n : ChannelId} {poll : Bool} (hk : e.kind = .query n poll) :
    let x := s.part.line l
    let y := (s.event act).part.line l
    (s.event act).part.bank (.line l) = ((s.part.bank (.line l)).take (lostRecord (.channel n))).count ∧
      y.test = x.test ∧ y.urgent = x.urgent ∧ y.routine = x.routine ∧
      (s.event act).part.chan n = (s.part.chan n).restartSupervision s.part.now ∧
      (∀ m : ChannelId, m ≠ n → (s.event act).part.chan m = s.part.chan m) ∧
      (x.state = .run ∨ (x.state = .quieting ∧ y.state = .quieting) → poll = true →
        (s.part.chan n).motion = .moving → y.retake = some (.poll n)) ∧
      (x.state = .run → poll = false → supervised (s.part.chan n).motion = true →
        y.retake = some (.supervise n)) := by
  intro x y
  have eq := loss.trans (s.part.loseArbitration_of_query l place back he hs hk)
  have chan (m : ChannelId) := (congrArg (Part.chan · m) eq).trans (s.part.loseQuery_chan l n poll m)
  have yielded := eq ▸ s.part.loseQuery_yielded l n poll
  have gave := State.event_gaveWay yielded
  obtain ⟨lost, -⟩ := State.event_yielded yielded
  refine ⟨lost, gave.test, gave.urgent, gave.routine, ?_, fun m hm => ?_, fun takes polled moving => ?_,
    fun run supervision live => ?_⟩
  · exact (s.event_chan act n).trans ((chan n).trans (if_pos rfl))
  · exact (s.event_chan act m).trans ((chan m).trans (if_neg hm))
  · rw [Channel.retakeOf, if_pos polled, if_pos moving] at gave
    exact gave.retake_inQuieting rfl takes
  · have runs : (s.part.line l).state = .run := run
    rw [gave.retake (.inl (by rw [runs]; exact LineState.noConfusion)), Channel.retakeOf, if_neg (by simp [supervision]),
      if_pos live, Line.retakeAfter_of_run runs]

theorem State.lostTest {bytes : Pattern} {discarded : Bool} (hk : e.kind = .test bytes discarded) :
    let x := s.part.line l
    let y := (s.event act).part.line l
    (s.event act).part.bank (.line l) = ((s.part.bank (.line l)).take (lostRecord (.line l))).count ∧
      s.part.SameChans (s.event act).part ∧ y.urgent = x.urgent ∧ y.routine = x.routine ∧
      (x.state ≠ .quieting → y.retake = x.retake) ∧
      (place = .lead ∨ discarded = true → y.test = x.test) ∧
      (place ≠ .lead → discarded = false → x.test.Counted y.test bytes (bytesBeforeLoss back place)) := by
  intro x y
  have eq := loss.trans (s.part.loseArbitration_of_test l place back he hs hk)
  obtain ⟨yielded, chans⟩ := s.part.loseTest_yielded l bytes discarded place back
  rw [← eq] at yielded chans
  have gave := State.event_gaveWay yielded
  obtain ⟨lost, -⟩ := State.event_yielded yielded
  refine ⟨lost, s.event_sameChans act chans, gave.urgent, gave.routine, fun run => gave.retake (.inl run),
    fun out => gave.test.trans (if_pos out), fun lead own => ?_⟩
  rw [show y.test = _ from gave.test, own]
  exact x.test.afterLoss_counted bytes back lead

end

/-- Settles O59: by what is being sent, an exchange's frame, an answer or nothing, and by the kind of the exchange. -/
theorem arbitrationLossCountsNoFailure : Obligations.ArbitrationLossCountsNoFailure := by
  intro s l place back x sequenceFrom came
  refine ⟨s.event fun p => p.loseArbitration l place back, rfl, ?_⟩
  generalize hact : (fun p : Part => p.loseArbitration l place back) = act
  have loss : act s.part = s.part.loseArbitration l place back := by rw [← hact]
  have cameEq : came = bytesBeforeLoss back place := by cases place <;> rfl
  rcases Option.eq_none_or_eq_some x.exchange with free | ⟨e, he⟩
  · have unsent {e : Exchange} {P : Prop} (he : x.exchange = some e) : P := nomatch free.symm.trans he
    rcases Option.eq_none_or_eq_some x.answer with silent | ⟨a, ha⟩
    · obtain ⟨⟨chans, lines, banks⟩, notices, now⟩ :=
        State.event_nothing (loss.trans (Part.loseArbitration_of_nothing place back free silent))
      exact ⟨⟨fun e he => unsent he, fun a _ ha => (nomatch silent.symm.trans ha), fun _ => ⟨chans, lines, banks⟩⟩,
        fun k _ => lines k, fun b _ => banks b, notices, now⟩
    · obtain ⟨answer, rest⟩ := State.lostAnswer free ha loss
      refine ⟨⟨fun e he => unsent he, fun _ _ _ => answer, ?_⟩, rest⟩
      rintro (⟨-, silent⟩ | ⟨e, he, -⟩)
      · exact nomatch silent.symm.trans ha
      · exact unsent he
  · have flying {P : Prop} (free : x.exchange = none) : P := nomatch free.symm.trans he
    have same {e' : Exchange} (he' : x.exchange = some e') : e' = e := Option.some.inj (he'.symm.trans he)
    rcases Option.eq_none_or_eq_some e.sentAt with hs | ⟨sent, hs⟩
    · obtain ⟨subject, queue, retake, test, yielded⟩ := s.part.loseArbitration_yielded l place back he hs
      rw [← loss] at yielded
      have gave := State.event_gaveWay yielded
      obtain ⟨-, rest⟩ := State.event_yielded yielded
      refine ⟨⟨fun e' he' _ => ?_, fun a free => flying free, ?_⟩, rest⟩
      · obtain rfl := same he'
        refine ⟨gave.exchange, gave.freeAt, gave.receiving, gave.receiver, gave.rest, fun o hk => State.lostOrder loss he hs hk,
          fun n poll hk => State.lostQuery loss he hs hk, fun bytes discarded hk => ?_⟩
        obtain ⟨lost, chans, urgent, routine, kept, uncounted, counts⟩ := State.lostTest loss he hs hk
        refine ⟨lost, chans, urgent, routine, kept, uncounted, fun lead own => ?_⟩
        have counted : x.test.Counted ((s.event act).part.line l).test bytes came := cameEq ▸ counts lead own
        obtain ⟨kind, target, result, pattern⟩ := counted.kept
        exact ⟨counted.frames, counted.errors, counted.clean, counted.last, counted.seq, kind, target, result, pattern⟩
      · rintro (⟨free, -⟩ | ⟨e', he', sent⟩)
        · exact flying free
        · exact absurd (same he' ▸ hs) sent
    · obtain ⟨⟨chans, lines, banks⟩, notices, now⟩ :=
        State.event_nothing (loss.trans (s.part.loseArbitration_of_sent l place back he (by simp [hs])))
      refine ⟨⟨fun e' he' unsent => ?_, fun a free => flying free, fun _ => ⟨chans, lines, banks⟩⟩, fun k _ => lines k,
        fun b _ => banks b, notices, now⟩
      rw [same he', hs] at unsent
      exact nomatch unsent

end Sys2Proof.Machine
end

section
/-! SUPPORT. What a STATUS makes of its channel (R99, R108 to R111). -/

namespace Sys2Proof.Machine

/-! ## What stands after a STATUS -/

/-- The place of the record stands, and its fault too unless the channel has faulted. -/
structure Channel.Stood (c d : Channel) : Prop where
  place : c.SamePlace d
  fault : d.fault = c.fault ∨ d.motion = .faulted

theorem Channel.Stood.refl (c : Channel) : c.Stood c := ⟨⟨rfl, rfl, rfl⟩, .inl rfl⟩

theorem Channel.SameWork.stood {c d : Channel} (h : c.SameWork d) : c.Stood d := ⟨h.place, .inl h.fault⟩

theorem Channel.faultedWith_stood (c : Channel) (now : Nat) (f : FaultCode) : c.Stood (c.faultedWith now f) :=
  ⟨⟨rfl, rfl, rfl⟩, .inr rfl⟩

/-! ## A channel tested from IDLE (R99) -/

section
variable (c : Channel) (now : Nat)

theorem Channel.tested_eq_or : c.tested now = c ∨ c.tested now = c.enter now .queued := by
  unfold Channel.tested
  split
  · exact .inr rfl
  · exact .inl rfl

theorem Channel.tested_stood : c.Stood (c.tested now) := by
  rcases c.tested_eq_or now with h | h <;> rw [h]
  · exact .refl c
  · exact ⟨⟨rfl, rfl, rfl⟩, .inl rfl⟩

theorem Channel.tested_kept :
    (c.tested now).accepted = c.accepted ∧ (c.tested now).travel = c.travel ∧ (c.tested now).shortMark = c.shortMark := by
  rcases c.tested_eq_or now with h | h <;> rw [h] <;> exact ⟨rfl, rfl, rfl⟩

theorem Channel.tested_within (idle : c.motion = .idle) (h : withinTolerance c c.granted = true) :
    (c.tested now).motion = .idle := by
  rw [Channel.tested, if_neg (by simp [h])]
  exact idle

theorem Channel.tested_out {g : Nat} (idle : c.motion = .idle) (granted : c.granted = some g)
    (h : withinTolerance c (some g) = false) : (c.tested now).motion = .queued := by
  rw [Channel.tested, if_pos ⟨idle, granted ▸ h, by rw [granted]; exact Option.some_ne_none g⟩]
  rfl

end

theorem withinTolerance_some {c : Channel} {target : Nat} :
    withinTolerance c (some target) = true ↔
      ∃ v, c.position = some v ∧ v ≤ target + c.cfg.tolerance ∧ target ≤ v + c.cfg.tolerance := by
  unfold withinTolerance
  cases c.position <;> simp

/-! ## The order a channel waits with -/

theorem Line.queued_join_self {x : Line} {o : Order} (alone : x.queued o.channel = none) : (x.join o).queued o.channel = some o := by
  rw [Line.queued_eq, List.head?_eq_none_iff] at alone
  rw [Line.queued_eq, Line.ordersOf_join_self _ _ alone]
  rfl

theorem Line.queued_reenter_self {x : Line} {o : Order} (alone : x.queued o.channel = none) :
    (x.reenter o).queued o.channel = some o := by
  rw [Line.queued_eq, List.head?_eq_none_iff] at alone
  rw [Line.queued_eq, Line.ordersOf_reenter_self _ _ alone]
  rfl

section
variable (p : Part) (n : ChannelId)

theorem Part.queuedOf_modChan {f : Channel → Channel} (hf : (f (p.chan n)).cfg = (p.chan n).cfg) :
    (p.modChan n f).queuedOf n = p.queuedOf n := by
  rw [Part.queuedOf, Part.lineOf, Part.chan_modChan_self, hf]
  rfl

theorem Part.queuedOf_setMotion (m : Motion) : (p.setMotion n m).queuedOf n = p.queuedOf n := p.queuedOf_modChan n rfl

theorem Part.queuedOf_modLine (f : Line → Line) : (p.modLine (p.lineOf n) f).queuedOf n = (f (p.line (p.lineOf n))).queued n :=
  congrArg (Line.queued · n) (p.line_modLine_self _ f)

/-- R99: the ORDER that a channel out of tolerance gets. -/
theorem Part.testIdle_queuedOf {g : Nat} (idle : (p.chan n).motion = .idle) (granted : (p.chan n).granted = some g)
    (out : withinTolerance (p.chan n) (some g) = false) (alone : p.queuedOf n = none) :
    ∃ o, (p.testIdle n).queuedOf n = some o ∧ o.work = .move g := by
  refine ⟨p.newOrder n (.move g) (classOf (p.chan n).governing), ?_, rfl⟩
  rw [p.testIdle_of_idle n idle granted, if_neg (by simp [out]), Part.queuedOf_setMotion, Part.joinOrder, Part.queuedOf_modLine]
  exact Line.queued_join_self alone

/-! ## Completion (R109) -/

/-- The record without its accepted order. -/
def Channel.released (c : Channel) : Channel := { c with accepted := none, travel := none, shortMark := false }

/-- R109: the channel has no newer order to carry out, or is within tolerance of the newer one's target. -/
def Channel.rests (c : Channel) (newer : Option Order) : Bool :=
  match newer with
  | none => true
  | some o =>
    match o.work with
    | .move t => withinTolerance c (some t)
    | .halt _ => false

/-- R109: the record of a channel that completed its accepted order, with the order that waits for it. -/
def Channel.completed (c : Channel) (newer : Option Order) (now : Nat) : Channel :=
  if c.rests newer then (c.released.enter now .idle).tested now else c.released.enter now .queued

/-- R16: the part once a completed channel has let go of its order and joined the notice set. -/
def Part.completing (p : Part) (n : ChannelId) : Part :=
  let q := p.modChan n Channel.released
  if (q.chan n).notify then q.joinNotices n else q

theorem Part.completing_facts :
    (p.completing n).chan n = (p.chan n).released ∧ (p.completing n).queuedOf n = p.queuedOf n ∧
      (p.completing n).now = p.now ∧ (p.completing n).lines = p.lines ∧ (p.completing n).banks = p.banks ∧
      (p.completing n).notices = (if (p.chan n).notify then p.notices ||| BitVec.ofNat 48 (2 ^ n.val) else p.notices) := by
  have chan : (p.modChan n Channel.released).chan n = (p.chan n).released := p.chan_modChan_self n _
  have queued : (p.modChan n Channel.released).queuedOf n = p.queuedOf n := p.queuedOf_modChan n rfl
  have notify : ((p.modChan n Channel.released).chan n).notify = (p.chan n).notify := by rw [chan]; rfl
  rw [Part.completing, ← notify]
  split <;> exact ⟨chan, queued, rfl, rfl, rfl, rfl⟩

theorem Part.complete_eq :
    p.complete n =
      if (p.chan n).rests (p.queuedOf n) then
        ((if p.queuedOf n = none then p.completing n else (p.completing n).removeOrder n).setMotion n .idle).testIdle n
      else (p.completing n).setMotion n .queued := by
  obtain ⟨chan, queued, -⟩ := p.completing_facts n
  have unfolded : p.complete n =
      match (p.completing n).queuedOf n with
      | none => ((p.completing n).setMotion n .idle).testIdle n
      | some o =>
        match o.work with
        | .move t =>
          if withinTolerance ((p.completing n).chan n) (some t) then
            (((p.completing n).removeOrder n).setMotion n .idle).testIdle n
          else (p.completing n).setMotion n .queued
        | .halt _ => (p.completing n).setMotion n .queued := rfl
  rw [unfolded, queued, chan]
  cases hq : p.queuedOf n with
  | none => rfl
  | some o =>
    cases hw : o.work with
    | move t =>
      simp only [Channel.rests, hw, reduceCtorEq, if_false]
      rfl
    | halt v =>
      simp only [Channel.rests, hw]
      rfl

theorem Part.complete_chan_self : (p.complete n).chan n = (p.chan n).completed (p.queuedOf n) p.now := by
  obtain ⟨chan, -, now, -⟩ := p.completing_facts n
  rw [Part.complete_eq, Channel.completed]
  split
  · rw [Part.testIdle_chan_tested, Part.setMotion_chan_self]
    split
    · rw [← chan, ← now]; rfl
    · rw [Part.removeOrder_chan, ← chan, ← now]; rfl
  · rw [Part.setMotion_chan_self, chan, now]

theorem Part.complete_work : (p.completing n).MotionWork (p.complete n) := by
  rw [Part.complete_eq]
  split
  · split
    · exact ((Part.MotionWork.refl _).setMotion n _).testIdle n
    · exact (((Part.MotionWork.refl _).removeOrder n).setMotion n _).testIdle n
  · exact (Part.MotionWork.refl _).setMotion n _

section
variable (c : Channel) (newer : Option Order) (now : Nat)

theorem Channel.completed_stood : c.Stood (c.completed newer now) := by
  unfold Channel.completed
  split
  · obtain ⟨⟨position, report, miss⟩, fault⟩ := (c.released.enter now .idle).tested_stood now
    exact ⟨⟨position, report, miss⟩, fault⟩
  · exact ⟨⟨rfl, rfl, rfl⟩, .inl rfl⟩

theorem Channel.completed_released :
    (c.completed newer now).accepted = none ∧ (c.completed newer now).travel = none ∧
      (c.completed newer now).shortMark = false := by
  unfold Channel.completed
  split
  · exact (c.released.enter now .idle).tested_kept now
  · exact ⟨rfl, rfl, rfl⟩

theorem Channel.completed_idle (rests : c.rests newer = true) (h : withinTolerance c c.granted = true) :
    (c.completed newer now).motion = .idle := by
  rw [Channel.completed, if_pos rests]
  exact Channel.tested_within _ now rfl h

theorem Channel.completed_out {g : Nat} (rests : c.rests newer = true) (granted : c.granted = some g)
    (h : withinTolerance c (some g) = false) : (c.completed newer now).motion = .queued := by
  rw [Channel.completed, if_pos rests]
  exact Channel.tested_out _ now rfl granted h

theorem Channel.completed_newer (works : c.rests newer = false) : (c.completed newer now).motion = .queued := by
  rw [Channel.completed, if_neg (by simp [works])]
  rfl

end

theorem joined_getLsbD (notices : BitVec 48) (n : ChannelId) (k : Nat) (hk : k < 48) :
    (notices ||| BitVec.ofNat 48 (2 ^ n.val)).getLsbD k = (notices.getLsbD k || decide (k = n.val)) := by
  rw [BitVec.getLsbD_or, BitVec.getLsbD_ofNat, Nat.testBit_two_pow]
  simp [hk, eq_comm]

/-! ## A short travel (R110) -/

/-- R110: the record of a channel that stopped short of its accepted target. -/
def Channel.stoppedShort (c : Channel) (newer : Option Order) (now : Nat) : Channel :=
  if newer ≠ none then c.released.enter now .queued
  else if c.shortMark then c.faultedWith now (.shortTravel c.position)
  else ({ c with accepted := none, shortMark := true } : Channel).enter now .queued

theorem Part.shortTravel_newer (newer : p.queuedOf n ≠ none) (target : Nat) :
    p.shortTravel n target = (p.modChan n Channel.released).setMotion n .queued := by
  unfold Part.shortTravel
  exact if_pos (Option.isSome_iff_ne_none.2 newer)

theorem Part.shortTravel_second (alone : p.queuedOf n = none) (mark : (p.chan n).shortMark = true) (target : Nat) :
    p.shortTravel n target = p.faultChannel n (.shortTravel (p.chan n).position) := by
  unfold Part.shortTravel
  dsimp only
  rw [alone, if_neg (by simp), if_pos mark]

/-- The order of a first short travel: it has been sent before. -/
def Part.shortOrder (p : Part) (n : ChannelId) (target : Nat) : Order :=
  { p.newOrder n (.move target) (classOf (p.chan n).governing) with sent := true }

theorem Part.shortTravel_first (alone : p.queuedOf n = none) (mark : (p.chan n).shortMark = false) (target : Nat) :
    p.shortTravel n target =
      ((p.modChan n fun c => { c with accepted := none, shortMark := true }).modLine (p.lineOf n) fun x =>
        x.reenter (p.shortOrder n target)).setMotion n .queued := by
  unfold Part.shortTravel
  dsimp only
  rw [alone, if_neg (by simp), if_neg (by simp [mark])]
  rfl

theorem Part.shortTravel_chan_self (target : Nat) :
    (p.shortTravel n target).chan n = (p.chan n).stoppedShort (p.queuedOf n) p.now := by
  unfold Channel.stoppedShort
  by_cases newer : p.queuedOf n = none
  · rw [if_neg (not_not.2 newer)]
    cases mark : (p.chan n).shortMark with
    | true => rw [p.shortTravel_second n newer mark, if_pos rfl, Part.faultChannel_chan_self]
    | false =>
      rw [p.shortTravel_first n newer mark, if_neg Bool.false_ne_true, Part.setMotion_chan_self]
      exact congrArg (Channel.enter · p.now .queued)
        (p.chan_modChan_self n fun c => { c with accepted := none, shortMark := true })
  · rw [p.shortTravel_newer n newer, if_pos newer, Part.setMotion_chan_self, Part.chan_modChan_self]
    rfl

theorem Part.shortTravel_queuedOf (alone : p.queuedOf n = none) (mark : (p.chan n).shortMark = false) (target : Nat) :
    (p.shortTravel n target).queuedOf n = some (p.shortOrder n target) := by
  rw [p.shortTravel_first n alone mark, Part.queuedOf_setMotion]
  have lineOf : p.lineOf n = (p.modChan n fun c => { c with accepted := none, shortMark := true }).lineOf n := by
    rw [Part.lineOf, Part.lineOf, Part.chan_modChan_self]
  rw [lineOf, Part.queuedOf_modLine, ← lineOf]
  exact Line.queued_reenter_self alone

theorem Part.MotionWork.shortTravel {q : Part} (h : q.MotionWork p) (target : Nat) : q.MotionWork (p.shortTravel n target) := by
  unfold Part.shortTravel
  dsimp only
  split
  · exact (h.modChan n _).setMotion n _
  · split
    · exact h.faultChannel n _
    · exact ((h.modChan n _).reenter _ _).setMotion n _

theorem Channel.stoppedShort_stood (c : Channel) (newer : Option Order) (now : Nat) : c.Stood (c.stoppedShort newer now) := by
  unfold Channel.stoppedShort
  split
  · exact ⟨⟨rfl, rfl, rfl⟩, .inl rfl⟩
  · split
    · exact c.faultedWith_stood now _
    · exact ⟨⟨rfl, rfl, rfl⟩, .inl rfl⟩

end

end Sys2Proof.Machine
end

section
/-! PROOF. O52: a STATUS sets position and report and settles a QUERY or a HALT (R108 to R111, R114, R123, R124). -/

namespace Sys2Proof.Machine

/-! ## STATUS in answer to a QUERY -/

theorem nodeMotionOfByte_of_code {motion : Byte} {m : NodeMotion}
    (h : motion.extractLsb' 0 2 = match m with | .stopped => 0 | .opening => 1 | .closing => 2) :
    nodeMotionOfByte motion = some m := by
  unfold nodeMotionOfByte
  rw [h]
  cases m <;> rfl

/-- R108: the record of a channel whose QUERY was answered, before its motion state is considered. -/
structure Channel.Reported (a : Channel) (position : Option Nat) (report : NodeReport) (c : Channel) : Prop where
  cfg : c.cfg = a.cfg
  granted : c.granted = a.granted
  governing : c.governing = a.governing
  notifyWord : c.notifyWord = a.notifyWord
  motion : c.motion = a.motion
  accepted : c.accepted = a.accepted
  travel : c.travel = a.travel
  shortMark : c.shortMark = a.shortMark
  fault : c.fault = a.fault
  position : c.position = position
  report : c.report = some report
  miss : c.miss = 0

section
variable (p : Part) (n : ChannelId) (position : Word) (m : NodeMotion) (motion : Byte)

theorem Part.takeStatus_chan_self :
    (p.takeStatus n position m motion).chan n =
      { p.chan n with position := positionOfWord position, report := some (nodeReportOfByte m motion), miss := 0 } :=
  p.chan_modChan_self n _

section
variable {p n position m motion} {q : Part} {faults : Byte} (taken : p.takeStatus n position m motion = q)
include taken

theorem Part.queryStatus_flagged (flagged : faultFlags faults ≠ 0) (notFaulted : (q.chan n).motion ≠ .faulted)
    (notHalting : (q.chan n).motion ≠ .halting) :
    p.queryStatus n position m motion faults = q.faultChannel n (.nodeFault (faultFlags faults)) := by
  unfold Part.queryStatus
  rw [taken]
  exact if_pos ⟨flagged, notFaulted, notHalting⟩

theorem Part.queryStatus_stopped {t : Nat} (clear : faultFlags faults = 0) (moving : (q.chan n).motion = .moving)
    (stopped : m = .stopped) (accepted : (q.chan n).accepted = some t) :
    p.queryStatus n position m motion faults =
      if withinTolerance (q.chan n) (some t) then q.complete n else q.shortTravel n t := by
  unfold Part.queryStatus
  rw [taken]
  dsimp only
  rw [if_neg (by simp [clear]), moving, stopped, accepted]

theorem Part.queryStatus_travelling (clear : faultFlags faults = 0) (moving : (q.chan n).motion = .moving) (m_ne : m ≠ .stopped) :
    p.queryStatus n position m motion faults = q := by
  unfold Part.queryStatus
  rw [taken]
  dsimp only
  rw [if_neg (by simp [clear]), moving]
  cases m with
  | stopped => exact absurd rfl m_ne
  | opening => rfl
  | closing => rfl

theorem Part.queryStatus_offline (clear : faultFlags faults = 0) (offline : (q.chan n).motion = .offline) :
    p.queryStatus n position m motion faults = (q.setMotion n .idle).testIdle n := by
  unfold Part.queryStatus
  rw [taken]
  dsimp only
  rw [if_neg (by simp [clear]), offline]

theorem Part.queryStatus_idle (clear : faultFlags faults = 0) (idle : (q.chan n).motion = .idle) :
    p.queryStatus n position m motion faults = q.testIdle n := by
  unfold Part.queryStatus
  rw [taken]
  dsimp only
  rw [if_neg (by simp [clear]), idle]

theorem Part.queryStatus_queued (clear : faultFlags faults = 0) (queued : (q.chan n).motion = .queued) :
    p.queryStatus n position m motion faults = q := by
  unfold Part.queryStatus
  rw [taken]
  dsimp only
  rw [if_neg (by simp [clear]), queued]

theorem Part.queryStatus_beyond (h : (q.chan n).motion = .faulted ∨ (q.chan n).motion = .halting) :
    p.queryStatus n position m motion faults = q := by
  unfold Part.queryStatus
  rw [taken]
  dsimp only
  rcases h with h | h <;> rw [if_neg (by simp [h]), h]

/-- Whatever the motion state, place and fault stand, and besides the notice set only what the Motion Unit writes changes. -/
theorem Part.queryStatus_frame :
    (q.chan n).Stood ((p.queryStatus n position m motion faults).chan n) ∧
      ∃ w : Part, w.lines = q.lines ∧ w.banks = q.banks ∧ w.MotionWork (p.queryStatus n position m motion faults) := by
  have tested (r : Part) (now : r.now = q.now) : (r.chan n).Stood ((r.testIdle n).chan n) := by
    rw [Part.testIdle_chan_tested]; exact Channel.tested_stood _ _
  have still : (q.chan n).Stood (q.chan n) ∧ ∃ w : Part, w.lines = q.lines ∧ w.banks = q.banks ∧ w.MotionWork q :=
    ⟨.refl _, q, rfl, rfl, .refl q⟩
  unfold Part.queryStatus
  rw [taken]
  dsimp only
  split
  · refine ⟨?_, q, rfl, rfl, (Part.MotionWork.refl q).faultChannel n _⟩
    rw [Part.faultChannel_chan_self]
    exact Channel.faultedWith_stood _ _ _
  · cases (q.chan n).motion with
    | moving =>
      dsimp only
      split
      · split
        · obtain ⟨-, -, -, lines, banks, -⟩ := q.completing_facts n
          refine ⟨?_, q.completing n, lines, banks, q.complete_work n⟩
          rw [Part.complete_chan_self]
          exact Channel.completed_stood _ _ _
        · refine ⟨?_, q, rfl, rfl, Part.MotionWork.shortTravel q n (.refl q) _⟩
          rw [Part.shortTravel_chan_self]
          exact Channel.stoppedShort_stood _ _ _
      · exact still
    | offline =>
      refine ⟨?_, q, rfl, rfl, ((Part.MotionWork.refl q).setMotion n _).testIdle n⟩
      have := tested (q.setMotion n .idle) rfl
      rw [Part.setMotion_chan_self] at this
      exact ⟨⟨this.place.position, this.place.report, this.place.miss⟩, this.fault⟩
    | idle => exact ⟨tested q rfl, q, rfl, rfl, (Part.MotionWork.refl q).testIdle n⟩
    | _ => exact still

end

end

theorem Part.queryStatus_onlyChan (p : Part) (n : ChannelId) (position : Word) (m : NodeMotion) (motion faults : Byte) :
    (p.takeStatus n position m motion).OnlyChan n (p.queryStatus n position m motion faults) := by
  intro k hk
  have before := (Part.OnlyChan.refl p).takeStatus (n := n) position m motion k hk
  have after := (Part.OnlyChan.refl p).queryStatus (n := n) position m motion faults k hk
  exact after.trans before.symm

/-- The part when a STATUS has answered a QUERY, before the motion state of the channel is considered. -/
theorem Part.answered_takeStatus {p : Part} {l : LineId} {addr : BitVec 4} {n : ChannelId} {poll : Bool} {sent : Nat}
    (he : (p.line l).exchange = some ⟨.query n poll, addr, some sent⟩) (position : Word) (m : NodeMotion) (motion : Byte) :
    ∃ q, (p.answered l).takeStatus n position m motion = q ∧ Part.Vacated l (p.now + 2) [] p q ∧
      (p.chan n).Reported (positionOfWord position) (nodeReportOfByte m motion) (q.chan n) ∧
      (q.chan n).pollFrom = ((p.chan n).queried poll p.now).pollFrom ∧ ∀ k, k ≠ n → q.chan k = p.chan k := by
  have chan (k : ChannelId) : (p.answered l).chan k = if k = n then (p.chan k).queried poll p.now else p.chan k := by
    rw [Part.answered, Part.endExchange_chan_of_query ((p.frameSeen_exchange l).trans he) rfl, Part.frameSeen_chan,
      Part.frameSeen_now]
  refine ⟨_, rfl, (Part.answered_vacated he).modChan fun _ => rfl, ?_, ?_, fun k hk => ?_⟩
  · rw [Part.takeStatus_chan_self, chan, if_pos rfl]
    cases poll <;> exact ⟨rfl, rfl, rfl, rfl, rfl, rfl, rfl, rfl, rfl, rfl, rfl, rfl⟩
  · rw [Part.takeStatus_chan_self, chan, if_pos rfl]
  · rw [Part.takeStatus, Part.chan_modChan, if_neg hk, chan, if_neg hk]

theorem Part.frameSeen_hearStatus_query {p : Part} {l : LineId} {addr : BitVec 4} {n : ChannelId} {poll : Bool} {sent : Nat}
    (he : (p.line l).exchange = some ⟨.query n poll, addr, some sent⟩) {motion : Byte} {m : NodeMotion}
    (hm : nodeMotionOfByte motion = some m) (position : Word) (faults : Byte) :
    (p.frameSeen l).hearStatus l addr position motion faults =
      (p.answered l).queryStatus n position m motion faults := by
  rw [Part.hearStatus, hm, Part.frameSeen_awaiting he, Part.frameSeen_now]
  rfl

theorem Part.frameSeen_hearStatus_halt {p : Part} {l : LineId} {addr : BitVec 4} {o : Order} {expiry sent : Nat}
    (he : (p.line l).exchange = some ⟨.order o, addr, some sent⟩) (hw : o.work = .halt expiry) {motion : Byte} {m : NodeMotion}
    (hm : nodeMotionOfByte motion = some m) (position : Word) (faults : Byte) :
    (p.frameSeen l).hearStatus l addr position motion faults = (p.answered l).haltStatus o expiry position m motion := by
  rw [Part.hearStatus, hm, Part.frameSeen_awaiting he, Part.frameSeen_now]
  dsimp only
  rw [hw]
  rfl

/-! ## The event of a STATUS to a QUERY, by the channel's motion state -/

section
variable {s : State} {act : Part → Part} {l : LineId} {n : ChannelId} {free : Nat} {report : NodeReport} {position : Option Nat}
  {q : Part} (vacated : Part.Vacated l free [] s.part q) (reported : (s.part.chan n).Reported position report (q.chan n))

/-- R10, of the position that was reported. -/
def Channel.Within (c : Channel) (position : Option Nat) (target : Nat) : Prop :=
  ∃ v, position = some v ∧ v ≤ target + c.cfg.tolerance ∧ target ≤ v + c.cfg.tolerance

theorem Channel.Reported.within_iff {a c : Channel} (h : a.Reported position report c) (target : Nat) :
    withinTolerance c (some target) = true ↔ a.Within position target := by
  rw [withinTolerance_some, h.position, h.cfg]
  rfl

theorem Channel.Reported.not_within_iff {a c : Channel} (h : a.Reported position report c) (target : Nat) :
    withinTolerance c (some target) = false ↔ ¬ a.Within position target := by
  rw [← h.within_iff, Bool.not_eq_true]

include vacated reported

/-- R109: completion. -/
theorem State.event_complete (eq : act s.part = q.complete n) :
    let a := s.part.chan n
    let b := (s.event act).part.chan n
    b.accepted = none ∧ b.travel = none ∧ b.shortMark = false ∧
      (s.part.queuedOf n = none → ∀ g, a.granted = some g →
        (a.Within position g → b.motion = .idle) ∧ (¬ a.Within position g → b.motion = .queued)) ∧
      (∀ o newer, s.part.queuedOf n = some o → o.work = .move newer → ¬ a.Within position newer → b.motion = .queued) ∧
      (∀ o newer, s.part.queuedOf n = some o → o.work = .move newer → a.Within position newer → a.granted = some newer →
        b.motion = .idle) ∧
      ∀ k : Nat, k < 48 → (s.event act).part.notices.getLsbD k =
        (s.part.notices.getLsbD k || (decide (k = n.val) && a.notify)) := by
  intro a b
  have record : b = (q.chan n).completed (s.part.queuedOf n) q.now := by
    rw [← vacated.queuedOf, ← Part.complete_chan_self, ← eq]
    exact s.event_chan act n
  have moving {o : Order} {t : Nat} (hw : o.work = .move t) :
      (q.chan n).rests (some o) = withinTolerance (q.chan n) (some t) := by
    simp only [Channel.rests, hw]
  obtain ⟨accepted, travel, mark⟩ := (q.chan n).completed_released (s.part.queuedOf n) q.now
  rw [record]
  refine ⟨accepted, travel, mark, fun alone g hg => ⟨fun within => ?_, fun out => ?_⟩, fun o t ho hw out => ?_,
    fun o t ho hw within hg => ?_, fun k hk => ?_⟩
  · refine Channel.completed_idle _ _ _ (by rw [alone]; rfl) ?_
    rw [reported.granted, hg, reported.within_iff]
    exact within
  · exact Channel.completed_out _ _ _ (by rw [alone]; rfl) (reported.granted.trans hg) ((reported.not_within_iff g).2 out)
  · refine Channel.completed_newer _ _ _ ?_
    rw [ho, moving hw, reported.not_within_iff]
    exact out
  · have rests : withinTolerance (q.chan n) (some t) = true := (reported.within_iff t).2 within
    refine Channel.completed_idle _ _ _ ?_ ?_
    · rw [ho, moving hw, rests]
    · rw [reported.granted, hg, rests]
  · obtain ⟨-, -, -, -, -, notices⟩ := q.completing_facts n
    have notify : (q.chan n).notify = a.notify := by rw [Channel.notify, reported.notifyWord]; rfl
    rw [State.event_notices, eq, (q.complete_work n).notices.1, notices, notify, vacated.notices.1]
    cases a.notify with
    | true => rw [if_pos rfl, joined_getLsbD _ _ _ hk, Bool.and_true]
    | false => rw [if_neg Bool.false_ne_true, Bool.and_false, Bool.or_false]

/-- R108: a channel whose node reports a fault. -/
theorem State.event_flagged {f : FaultCode} (eq : act s.part = q.faultChannel n f) :
    let b := (s.event act).part.chan n
    s.FaultedWith (s.event act) n f ∧ b.accepted = none ∧ b.travel = none ∧ b.shortMark = false ∧
      s.part.SameNotices (s.event act).part := by
  obtain ⟨faulted, accepted, travel, mark⟩ := State.event_faultChannel
    (by rw [ruledSeverity, reported.governing]; rfl) vacated.bank_channel eq
  have notices := ((Part.MotionWork.refl q).faultChannel n f).notices
  refine ⟨faulted, accepted, travel, mark, ?_, ?_⟩
  · rw [State.event_notices, eq, notices.1, vacated.notices.1]
  · rw [State.event_noticeAcks, eq, notices.2, vacated.notices.2]

/-- R110: a short travel. -/
theorem State.event_shortTravel {target : Nat} (eq : act s.part = q.shortTravel n target) :
    let a := s.part.chan n
    let b := (s.event act).part.chan n
    b.accepted = none ∧ s.part.SameNotices (s.event act).part ∧
      (s.part.queuedOf n ≠ none → b.motion = .queued ∧ b.travel = none ∧ b.shortMark = false) ∧
      (s.part.queuedOf n = none → a.shortMark = false →
        b.motion = .queued ∧ b.travel = a.travel ∧ b.shortMark = true ∧
        ∃ o : Order, (s.event act).part.queuedOf n = some o ∧ o.work = .move target ∧ o.sent = true ∧
          o.retriesLeft = s.part.globals.retryLimit ∧ o.retriesAtQueueing = s.part.globals.retryLimit) ∧
      (s.part.queuedOf n = none → a.shortMark = true →
        s.FaultedWith (s.event act) n (.shortTravel position) ∧ b.travel = none ∧ b.shortMark = false) := by
  intro a b
  have record : b = (q.chan n).stoppedShort (s.part.queuedOf n) q.now := by
    rw [← vacated.queuedOf, ← q.shortTravel_chan_self n target, ← eq]
    exact s.event_chan act n
  have notices := (Part.MotionWork.shortTravel q n (.refl q) target).notices
  refine ⟨?_, ⟨?_, ?_⟩, fun newer => ?_, fun alone mark => ?_, fun alone mark => ?_⟩
  · rw [record, Channel.stoppedShort]
    split
    · rfl
    · split <;> rfl
  · rw [State.event_notices, eq, notices.1, vacated.notices.1]
  · rw [State.event_noticeAcks, eq, notices.2, vacated.notices.2]
  · rw [record, Channel.stoppedShort, if_pos newer]
    exact ⟨rfl, rfl, rfl⟩
  · have unmarked := reported.shortMark.trans mark
    have queued : q.queuedOf n = none := (vacated.queuedOf n).trans alone
    rw [record, Channel.stoppedShort, if_neg (not_not.2 alone), if_neg (by simp [unmarked])]
    refine ⟨rfl, reported.travel, rfl, q.shortOrder n target, ?_, rfl, rfl, congrArg GlobalConfig.retryLimit vacated.globals,
      congrArg GlobalConfig.retryLimit vacated.globals⟩
    rw [State.event_queuedOf, eq, q.shortTravel_queuedOf n queued unmarked]
  · have queued : q.queuedOf n = none := (vacated.queuedOf n).trans alone
    have short := eq.trans (q.shortTravel_second n queued (reported.shortMark.trans mark) target)
    rw [reported.position] at short
    obtain ⟨faulted, -, travel, cleared⟩ := State.event_faultChannel
      (by rw [ruledSeverity, reported.governing]; rfl) vacated.bank_channel short
    exact ⟨faulted, travel, cleared⟩

/-- R99, R111: a channel tested from IDLE. -/
theorem State.event_tested {r : Part} (idle : (r.chan n).motion = .idle)
    (grant : (r.chan n).granted = (q.chan n).granted)
    (tolerance : ∀ t, withinTolerance (r.chan n) t = withinTolerance (q.chan n) t)
    (queued : r.queuedOf n = q.queuedOf n) (eq : act s.part = r.testIdle n) {g : Nat}
    (hg : (s.part.chan n).granted = some g) :
    ((s.part.chan n).Within position g → ((s.event act).part.chan n).motion = .idle) ∧
      (¬ (s.part.chan n).Within position g → ((s.event act).part.chan n).motion = .queued ∧
        (s.part.queuedOf n = none → ∃ o : Order, (s.event act).part.queuedOf n = some o ∧ o.work = .move g)) := by
  have granted : (r.chan n).granted = some g := grant.trans (reported.granted.trans hg)
  rw [State.event_chan, eq, Part.testIdle_chan_tested]
  refine ⟨fun within => ?_, fun out => ⟨?_, fun alone => ?_⟩⟩
  · refine Channel.tested_within _ _ idle ?_
    rw [granted, tolerance, reported.within_iff]
    exact within
  · exact Channel.tested_out _ _ idle granted ((tolerance _).trans ((reported.not_within_iff g).2 out))
  · rw [State.event_queuedOf, eq]
    exact r.testIdle_queuedOf n idle granted ((tolerance _).trans ((reported.not_within_iff g).2 out))
      (queued.trans ((vacated.queuedOf n).trans alone))

end

/-! ## The obligation -/

/-- R124: a STATUS with nothing in flight. -/
theorem statusHeardFree {s : State} {l : LineId} (on : (s.part.line l).state ≠ .disabled)
    (free : (s.part.line l).exchange = none) (addr : BitVec 4) (position : Word) (motion faults : Byte) :
    ∃ t, exec (.status l addr position motion faults) s = .next t ∧
      t.part.bank (.line l) = ((s.part.bank (.line l)).take
        ⟨.notice, if motion.extractLsb' 0 2 = 3 then .checkError else .unexpectedFrame, some (.line l), none⟩).count ∧
      (t.part.line l).freeAt = max (s.part.line l).freeAt (s.part.now + 2) ∧ s.part.SameBanksBut t.part (.line l) ∧
      s.part.SameChans t.part := by
  have idle (k : ExchangeKind) : (s.part.line l).awaiting addr ≠ some k := by
    rw [Line.awaiting, free]; exact nofun
  by_cases bad : motion.extractLsb' 0 2 = 3
  · obtain ⟨t, next, bank, freeAt, -, banks, chans⟩ := exec_heardFree on free (.badStatus addr position faults bad)
    exact ⟨t, next, by rw [if_pos bad]; exact bank, freeAt, banks, chans⟩
  · obtain ⟨t, next, bank, freeAt, -, banks, chans⟩ := exec_heardFree on free
      (.status (addr := addr) position faults bad (fun n poll => idle _) fun o h => absurd h (idle _))
    exact ⟨t, next, by rw [if_neg bad]; exact bank, freeAt, banks, chans⟩

/-- R123, R198: a STATUS with node motion 3 fails the transaction. -/
theorem statusDamaged {s : State} {l : LineId} {e : Exchange} {sent : Nat} {n : ChannelId}
    (on : (s.part.line l).state ≠ .disabled) (he : (s.part.line l).exchange = some e) (hs : e.sentAt = some sent)
    (channel : e.kind.channel = some n) (addr : BitVec 4) (position : Word) {motion : Byte} (faults : Byte)
    (bad : motion.extractLsb' 0 2 = 3) :
    ∃ t, exec (.status l addr position motion faults) s = .next t ∧
      t.part.bank (.line l) = ((s.part.bank (.line l)).take ⟨.notice, .checkError, some (.channel n), none⟩).count ∧
      (t.part.line l).exchange = none ∧ (t.part.line l).freeAt = s.part.now + 2 ∧
      ∀ k : ChannelId, k ≠ n → t.part.chan k = s.part.chan k := by
  have transaction (bytes : Pattern) (d : Bool) : e.kind ≠ .test bytes d := fun test => by
    rw [test] at channel; exact nomatch channel
  obtain ⟨act, q, next, listened, now, eq⟩ :=
    State.fails_of_heardAs he hs transaction on (.badStatus addr position faults bad)
  cases hk : e.kind with
  | test bytes d => exact absurd hk (transaction bytes d)
  | order o =>
    obtain rfl : o.channel = n := by rw [hk] at channel; exact Option.some.inj channel
    obtain ⟨r, vacated, -, chan, failed⟩ := listened.failExchange_of_order he .checkError (s.part.now + 2) hk
    replace eq := eq.trans failed
    have work : r.MotionWork (act s.part) := eq ▸ (Part.MotionWork.refl r).orderFailed l o .checkError
    obtain ⟨exchange, freeAt, bank, -⟩ := State.event_vacated vacated (work.line l) work.bank
    obtain ⟨-, others⟩ := State.event_orderFailed_place chan eq
    exact ⟨_, next, bank, exchange, freeAt, others⟩
  | query m poll =>
    obtain rfl : m = n := by rw [hk] at channel; exact Option.some.inj channel
    obtain ⟨r, vacated, rNow, chan, failed⟩ := listened.failExchange_of_query he .checkError (s.part.now + 2) hk
    replace eq := eq.trans failed
    rw [← rNow] at chan
    have work : r.MotionWork (act s.part) := eq ▸ (Part.MotionWork.refl r).queryMissed m
    obtain ⟨exchange, freeAt, bank, -⟩ := State.event_vacated vacated (work.line l) work.bank
    obtain ⟨-, -, others⟩ := State.event_queryMissed chan vacated.bank_channel eq
    exact ⟨_, next, bank, exchange, freeAt, others⟩

/-- R114: a STATUS in answer to a HALT. -/
theorem statusAnswersHalt {s : State} {act : Part → Part} {l : LineId} {addr : BitVec 4} {o : Order} {sent expiry : Nat}
    (he : (s.part.line l).exchange = some ⟨.order o, addr, some sent⟩) {position : Word} {m : NodeMotion} {motion : Byte}
    (eq : act s.part = (s.part.answered l).haltStatus o expiry position m motion) :
    let b := (s.event act).part.chan o.channel
    ((s.event act).part.line l).exchange = none ∧ ((s.event act).part.line l).freeAt = s.part.now + 2 ∧
      (b.position = positionOfWord position ∧ b.report = some (nodeReportOfByte m motion) ∧ b.miss = 0 ∧
        s.FaultedWith (s.event act) o.channel (.travelTimeout expiry)) ∧
      (∀ k : ChannelId, k ≠ o.channel → (s.event act).part.chan k = s.part.chan k) ∧
      s.part.SameBanksBut (s.event act).part .channel := by
  intro b
  generalize hq : (s.part.answered l).takeStatus o.channel position m motion = q
  have vacated : Part.Vacated l (s.part.now + 2) [] s.part q := by
    rw [← hq]; exact (Part.answered_vacated he).modChan fun _ => rfl
  replace eq : act s.part = q.enterFaulted o.channel (.travelTimeout expiry) := by rw [← hq]; exact eq
  have chan : q.chan o.channel = { s.part.chan o.channel with
      position := positionOfWord position, report := some (nodeReportOfByte m motion), miss := 0 } := by
    rw [← hq, Part.takeStatus_chan_self, Part.answered_chan_of_order he]
  have work : q.MotionWork (act s.part) := eq ▸ (Part.MotionWork.refl q).enterFaulted _ _
  obtain ⟨exchange, freeAt, -, banks⟩ := State.event_vacated vacated (work.line l) work.bank
  have place := q.enterFaulted_place o.channel (.travelTimeout expiry)
  rw [← eq, chan] at place
  refine ⟨exchange, freeAt, ⟨?_, ?_, ?_, State.event_enterFaulted (by rw [chan]; rfl) vacated.bank_channel eq⟩, fun k hk => ?_,
    banks rfl⟩
  · exact (congrArg Channel.position (s.event_chan act o.channel)).trans place.position
  · exact (congrArg Channel.report (s.event_chan act o.channel)).trans place.report
  · exact (congrArg Channel.miss (s.event_chan act o.channel)).trans place.miss
  · rw [State.event_chan, eq, q.enterFaulted_onlyChan o.channel _ k hk, ← hq, Part.takeStatus, Part.chan_modChan, if_neg hk,
      Part.answered_chan_of_order he]

/-- Settles O52: with nothing in flight, damaged, in answer to a QUERY by the channel's motion state, and in answer to a HALT. -/
theorem statusSettlesItsTransaction : Obligations.StatusSettlesItsTransaction := by
  refine ⟨fun s l addr position motion faults => ⟨fun on free => ?free,
    fun e sent n on he hs channel bad => statusDamaged on he hs channel addr position faults bad⟩, ?_⟩
  case free =>
    obtain ⟨t, next, bank, freeAt, banks, chans⟩ := statusHeardFree on free addr position motion faults
    exact ⟨t, next, bank, freeAt, banks, chans⟩
  intro s l addr position motion faults m kind sent x seen report flags faulted he code
  have hm := nodeMotionOfByte_of_code code
  refine ⟨?query, ?halt⟩
  case query =>
    rintro n poll rfl
    refine ⟨s.event fun p => (p.frameSeen l).hearStatus l addr position motion faults, rfl, ?_⟩
    generalize hact : (fun p : Part => (p.frameSeen l).hearStatus l addr position motion faults) = act
    have eq : act s.part = (s.part.answered l).queryStatus n position m motion faults := by
      rw [← hact]; exact Part.frameSeen_hearStatus_query he hm position faults
    obtain ⟨q, taken, vacated, reported, pollFrom, others⟩ := Part.answered_takeStatus he position m motion
    obtain ⟨stood, w, lines, banks, work⟩ := Part.queryStatus_frame (faults := faults) taken
    rw [← eq] at stood work
    have only : q.OnlyChan n (act s.part) := by
      rw [eq]
      exact taken ▸ (s.part.answered l).queryStatus_onlyChan n position m motion faults
    have lineEq : q.line l = w.line l := by rw [Part.line, ← lines]; rfl
    obtain ⟨exchange, freeAt, -, banksBut⟩ := State.event_vacated vacated (lineEq ▸ work.line l)
      fun b hb => (work.bank b hb).trans (by rw [Part.bank, banks]; rfl)
    have unchanged (h : act s.part = q) : (s.event act).part.chan n = q.chan n := by rw [State.event_chan, h]
    refine ⟨exchange, freeAt, ⟨?position, ?report, ?miss, fun flagged notFaulted notHalting => ?flagged, fun _ => ?fault,
      fun beyond => ?beyond, fun clear queued => ?queued, fun clear moving running => ?travelling,
      fun target clear moving stopped accepted within => ?completed, fun target clear moving stopped accepted out => ?short,
      fun g clear motion hg => ?tested⟩, fun k hk => ?others, banksBut rfl⟩
    case position => exact (congrArg Channel.position (s.event_chan act n)).trans (stood.place.position.trans reported.position)
    case report => exact (congrArg Channel.report (s.event_chan act n)).trans (stood.place.report.trans reported.report)
    case miss => exact (congrArg Channel.miss (s.event_chan act n)).trans (stood.place.miss.trans reported.miss)
    case flagged =>
      exact State.event_flagged vacated reported (eq.trans
        (Part.queryStatus_flagged taken flagged (by rwa [reported.motion]) (by rwa [reported.motion])))
    case fault => rw [State.event_chan, ← reported.fault]; exact stood.fault
    case beyond =>
      rw [unchanged (eq.trans (Part.queryStatus_beyond taken (by rwa [reported.motion])))]
      exact ⟨reported.motion, reported.fault⟩
    case queued =>
      rw [unchanged (eq.trans (Part.queryStatus_queued taken clear (reported.motion.trans queued)))]
      exact reported.motion.trans queued
    case travelling =>
      have same := unchanged (eq.trans (Part.queryStatus_travelling taken clear (reported.motion.trans moving) running))
      rw [same]
      refine ⟨reported.motion.trans moving, reported.accepted, reported.travel, pollFrom.trans ?_⟩
      cases poll with
      | true => exact if_pos moving
      | false => rfl
    case completed =>
      have stops := eq.trans (Part.queryStatus_stopped taken clear (reported.motion.trans moving) stopped
        (reported.accepted.trans accepted))
      rw [if_pos ((reported.within_iff target).2 within)] at stops
      exact State.event_complete vacated reported stops
    case short =>
      have stops := eq.trans (Part.queryStatus_stopped taken clear (reported.motion.trans moving) stopped
        (reported.accepted.trans accepted))
      rw [if_neg (by rw [(reported.not_within_iff target).2 out]; exact Bool.false_ne_true)] at stops
      exact State.event_shortTravel vacated reported stops
    case tested =>
      rcases motion with offline | idle
      · refine State.event_tested vacated reported (r := q.setMotion n .idle) ?_ ?_ (fun t => ?_) (q.queuedOf_setMotion n _)
          (eq.trans (Part.queryStatus_offline taken clear (reported.motion.trans offline))) hg
        all_goals rw [Part.setMotion_chan_self]; rfl
      · exact State.event_tested vacated reported (reported.motion.trans idle) rfl (fun _ => rfl) rfl
          (eq.trans (Part.queryStatus_idle taken clear (reported.motion.trans idle))) hg
    case others => rw [State.event_chan, only k hk, others k hk]
  case halt =>
    rintro o expiry rfl hw
    refine ⟨s.event fun p => (p.frameSeen l).hearStatus l addr position motion faults, rfl, ?_⟩
    generalize hact : (fun p : Part => (p.frameSeen l).hearStatus l addr position motion faults) = act
    have eq : act s.part = (s.part.answered l).haltStatus o expiry position m motion := by
      rw [← hact]; exact Part.frameSeen_hearStatus_halt he hw hm position faults
    exact statusAnswersHalt he eq

end Sys2Proof.Machine
end
